-- ==== Sys2Proof/Word.lean ====
section
/-! DEFINITION. The word and byte of the node: registers are 64 bits wide (00 R12), memory is bytes. -/

namespace Sys2Proof

/-- A register of the node: 64 bits (00 R12). -/
abbrev Word := BitVec 64

/-- A byte of memory. -/
abbrev Byte := BitVec 8

end Sys2Proof
end

