-- ==== Sys2Proof/Syntax.lean ====
section
/-! DEFINITION. The commands of the KN-1 node and the data they carry. One constructor of `Instr` per row of the
opcode table; an operand that names a unit of the node ranges over the units of 01 Table 1-1 only. -/

namespace Sys2Proof

/-- A requester, with the fields of its sender code (14 Table 14-1): 0–255 pilot cores, 256–319 PD harts,
320 the harbourmaster, 321 the host, 322 a pump or engine. -/
structure Sender where
  endpoint : Fin 512
  node     : Fin 8 := 0
  host     : Bool := false
  vc0      : Bool := false
  deriving DecidableEq, Repr

/-- A TIDE ordered set as it stands in a control slot (11 Table 11-5), with the sub-nanosecond part of the
receiver's own stamp in units of 2^-16 ns. -/
structure TideSet where
  quality : BitVec 3
  hops    : BitVec 4
  seq     : BitVec 16
  txTide  : Word
  gmNgi   : BitVec 18
  echoSeq : BitVec 16
  dwell   : BitVec 32
  txSub   : BitVec 16
  rxSub   : BitVec 16
  deriving DecidableEq, Repr

/-- The transport of a PTP message, and its type (02 R43). -/
inductive PtpTransport where
  | udpIpv4 | ieee8023 | other
  deriving DecidableEq, Repr

inductive PtpKind where
  | sync | followUp | delayResp | other
  deriving DecidableEq, Repr

/-- A PTP message from the management port (02 R43): its timestamp in ns of the TAI timescale (the origin of a Sync or Follow_Up,
the arrival of a Delay_Req) and its correction field in units of 2^-16 ns. -/
structure PtpMsg where
  transport  : PtpTransport
  domain     : BitVec 8
  kind       : PtpKind
  twoStep    : Bool
  seq        : BitVec 16
  time       : Nat
  correction : Int
  deriving DecidableEq, Repr

/-- What a HELLO control slot carries (11 Table 11-4). -/
structure Hello where
  ngi   : BitVec 18
  port  : Fin 16
  light : Bool
  long  : Bool
  level : BitVec 16
  deriving DecidableEq, Repr

/-- How a training attempt of a port ended: the lanes that trained, the round trip measured, the neighbour's HELLO
and the credits its SYNC advertised, in units of 8 KiB (11 R284, R289). `none` for the HELLO: no neighbour answered. -/
structure Training where
  lanes : BitVec 8
  rttNs : Nat
  hello : Option Hello
  caps  : List (BitVec 16)
  deriving DecidableEq, Repr

/-- Why an UP port enters DOWN (11 R285). -/
inductive DownCause where
  | lockLost | badFrames | noControlSlot | basinLost
  deriving DecidableEq, Repr

/-- The message bytes of a frame (11 R276): the frame control word of Table 11-2 and the 40 flit slots of 32 bytes. -/
structure FrameBody where
  fcw   : BitVec 40
  slots : List (List Byte)
  deriving DecidableEq, Repr

/-- A frame as the receiver's decoder sees it (11 R273): how many symbols of its two codewords are wrong, and its message bytes. -/
structure Frame where
  symErrs0 : Nat
  symErrs1 : Nat
  body     : FrameBody
  deriving DecidableEq, Repr

/-- The wrong symbols of one sector's codeword of 36 bytes as they stand in the stack: place and error (10 R260). -/
abbrev SectorErrors := List (Fin 36 × BitVec 8)

/-- How an HBM access meets its controller: its class (10 R255), and the wrong symbols of each sector in order. -/
structure HbmWay where
  high   : Bool := false
  errors : List SectorErrors := []
  deriving DecidableEq, Repr

/-- The wrong symbols that a traffic generator meets at a sector in one of its passes (10 R269). -/
structure TgFault where
  pass   : Nat
  addr   : BitVec 31
  errors : SectorErrors
  deriving DecidableEq, Repr

/-- What a CSR instruction does with the source operand. -/
inductive CsrOp where
  | write | set | clear
  deriving DecidableEq, Repr

/-- The integer operations of RV64I and M (07 Table 7-1). -/
inductive IntOp where
  | add | sub | sll | slt | sltu | xor | srl | sra | or | and | mul | mulh | mulhsu | mulhu | div | divu | rem | remu
  deriving DecidableEq, Repr

/-- The conditions of a branch. -/
inductive BranchOp where
  | eq | ne | lt | ge | ltu | geu
  deriving DecidableEq, Repr

/-- LR, SC and the AMOs, which 12 Table 12-2 numbers (07 Table 7-3). -/
inductive AtomicOp where
  | lr | sc | amo (op : Fin 9)
  deriving DecidableEq, Repr

/-- Scalar floating-point operations (07 Table 7-1, R181). -/
inductive FpOp where
  | add | sub | mul | div | sqrt | madd | min | max | sgnj | sgnjn | sgnjx | eq | lt | le
  deriving DecidableEq, Repr

/-- The sizes of a floating-point value; half only in moves, loads, stores and conversions (Zfhmin). -/
inductive FpSize where
  | half | single | double
  deriving DecidableEq, Repr

/-- Short-vector operations (07 R179, R180). -/
inductive VecOp where
  | add | sub | mul | and | or | xor | minu | min | maxu | max
  | saddu | sadd | ssubu | ssub | smul
  | fadd | fsub | fmul | fdiv | fmacc | fmin | fmax | fwmacc | fredusum | fredosum
  deriving DecidableEq, Repr

/-- The first source of a short-vector operation: a vector group, an integer or floating-point register, or the immediate. -/
inductive VecSrc where
  | vec (reg : Fin 32) | scalar (reg : Fin 32) | imm
  deriving DecidableEq, Repr

/-- An instruction of the standard sets of a hart (07 R174–R182). Its immediate is the command's value. -/
inductive HartInstr where
  | csr (op : CsrOp) (num : BitVec 12) (rd : Fin 32) (rs1 : Option (Fin 32))
  | int (op : IntOp) (half : Bool) (rd rs1 : Fin 32) (rs2 : Option (Fin 32))
  | auipc (rd : Fin 32)
  | jump (rd : Fin 32) (rs1 : Option (Fin 32))
  | branch (op : BranchOp) (rs1 rs2 : Fin 32)
  | load (size : Fin 4) (signed fp : Bool) (rd rs1 : Fin 32)
  | store (size : Fin 4) (fp : Bool) (rs2 rs1 : Fin 32)
  | atomic (op : AtomicOp) (wide : Bool) (rd rs1 rs2 : Fin 32)
  | fence
  | ecall
  | ebreak
  | mret
  | sret
  | fp (op : FpOp) (double : Bool) (rm : Fin 8) (rd rs1 rs2 rs3 : Fin 32)
  /-- Conversions between two sizes, to and from an integer of 64 bits (`wide`) or 32, moves of the bits, and fclass. -/
  | convert (to_ from_ : FpSize) (rm : Fin 8) (rd rs1 : Fin 32)
  | toInt (double signed wide : Bool) (rm : Fin 8) (rd rs1 : Fin 32)
  | ofInt (double signed wide : Bool) (rm : Fin 8) (rd rs1 : Fin 32)
  | moveFp (toInt : Bool) (size : FpSize) (rd rs1 : Fin 32)
  | classify (double : Bool) (rd rs1 : Fin 32)
  | vset (rd : Fin 32) (rs1 : Option (Fin 32)) (vtype : Word)
  | vec (op : VecOp) (masked : Bool) (vd : Fin 32) (src : VecSrc) (vs2 : Fin 32)
  | vmem (store : Bool) (eew : Fin 4) (masked : Bool) (vd rs1 : Fin 32) (stride : Option (Fin 32))
  /-- The compressed form of an instruction (C). -/
  | compressed (full : HartInstr)
  /-- An instruction word of the custom-1 opcode (07 R186). -/
  | long (word : BitVec 32)
  /-- An instruction of an extension that 07 Table 7-1 does not list. -/
  | unlisted
  deriving DecidableEq, Repr

/-- A load, store or AMO at a tray address (12 R336–R338). -/
inductive TrayOp where
  | load  (bytes : Nat)
  | store (data : List Byte) (poison : Bool)
  | amo   (aop : Fin 10) (wide : Bool) (operand compare : Word)
  deriving DecidableEq, Repr

/-- The write that completes a berth message (14 R378): the word at 0x038, or all 64 bytes. -/
inductive Post where
  | word  (value : Word)
  | whole (bytes : List Byte)
  deriving DecidableEq, Repr

/-- A wake source of 01 Table 1-9. -/
inductive WakeSource where
  | bell | berthMessage | engineCompletion | tideMark | comparator | management
  deriving DecidableEq, Repr

/-- One rail's AVSBus telemetry (18 R474): millivolts, units of 10 mA, degrees Celsius. -/
structure RailReading where
  mv      : BitVec 16
  current : BitVec 20
  temp    : BitVec 8
  deriving DecidableEq, Repr


/-- The commands of the node: one constructor per row of the opcode table. -/
inductive Instr where
  /-- REGISTER_WRITE (R15). A write to a register that has no row of its own takes effect, is discarded with CFG_REJECT under the busy or reserved-encoding checks, or is ignored at an unlisted offset. -/
  | registerWrite (sender : Sender) (addr : Nat) (wide : Bool) (value : Word)
  /-- CFG_COMMIT (R14). A write to a block's CFG_COMMIT captures every RWS shadow of the block, or is discarded with CFG_REJECT while an earlier commit is pending. -/
  | cfgCommit (sender : Sender) (block : Nat)
  /-- COMMIT_BOUNDARY (R14). A block reaches its operation boundary and applies the RWS values that its pending commit captured. -/
  | commitBoundary (block : Nat)
  /-- BUS_ERROR_ACCESS (R12). A register access of the wrong width or alignment, or an access to an unmapped address, completes with the requester's error and writes nothing. -/
  | busErrorAccess (sender : Sender) (write : Bool) (addr : Nat) (bytes : Nat)
  /-- TIDE_ORDERED_SET_SEND (R44). Every 1 000 ns a port sends a TIDE ordered set, or a FENCE in the safe state, in the control slot nearest the period. -/
  | tideOrderedSetSend (port : Fin 16)
  /-- TIDE_ORDERED_SET_RECEIVE (R45). A port stamps an arriving TIDE ordered set, measures the link delay, and a follower sets its tide and HOPS from its parent. -/
  | tideOrderedSetReceive (port : Fin 16) (set : TideSet)
  /-- PTP_MESSAGE (R43). The harbourmaster takes a PTP message on the management port and updates a grandmaster's time of day. -/
  | ptpMessage (message : PtpMsg)
  /-- PPS_EDGE (R492). A rising edge on PPS_IN is timestamped, corrected by PPS_COMP and used for the phase of the second when the node is a grandmaster. -/
  | ppsEdge
  /-- HOLDOVER_ENTRY (R52). Five ordered-set periods without a valid parent set, or two missing 1PPS edges at a grandmaster, take a LOCKED node into HOLDOVER. -/
  | holdoverEntry
  /-- ADRIFT_ENTRY (R53). EST_ERR exceeds HOLDOVER_LIMIT and the node enters ADRIFT, raising TIDE_ADRIFT. -/
  | adriftEntry
  /-- PARENT_RETURN (R54). A parent becomes valid again; the node measures its offset and slews, or voids admitted work, enters ACQUIRE and steps the tide. -/
  | parentReturn (port : Fin 16) (offset : Int)
  /-- LOCK_ACHIEVED (R54). The slewed offset reaches 2 ns or less and the node enters LOCKED. -/
  | lockAchieved
  /-- STEP_WRITE (R56). A write to STEP sets STEP_BASE to the tide of the write and sets STEP_VALID, or is discarded while STEP_PERIOD is non-zero. -/
  | stepWrite (wide : Bool) (high : Bool) (value : Word)
  /-- STEP_MARK (R57). The tide reaches STEP_NEXT_MARK; STEP, STEP_BASE, STEP_NEXT and STEP_NEXT_MARK advance once, late marks included. -/
  | stepMark
  /-- SCHEDULE_ENTRY_WRITE (R61). A write carrying byte 1 of a schedule entry checks it and makes it ARMED, MALFORMED or REFUSED, or disarms it when VALID is 0. -/
  | scheduleEntryWrite (entry : Fin 4096) (word : Fin 4) (wide : Bool) (high : Bool) (value : Word)
  /-- START_CHAIN (R64). A due START_CHAIN schedule entry is dispatched and enters a chain into a core queue, or sets TARGET_OFFLINE. -/
  | startChain (entry : Fin 4096)
  /-- ADD_TRIGGER (R64). A due ADD_TRIGGER schedule entry is dispatched and adds its increment to a trigger counter. -/
  | addTrigger (entry : Fin 4096)
  /-- RING_BELL (R64). A due RING_BELL schedule entry is dispatched and writes its value to a bell page. -/
  | ringBell (entry : Fin 4096)
  /-- POWER_MODE (R64). A due POWER_MODE schedule entry is checked again and starts a power-mode transition, or does nothing and records CAUSE 3. -/
  | powerMode (entry : Fin 4096)
  /-- CHECKPOINT_ACTION (R425). A due CHECKPOINT schedule entry places a checkpoint request in the harbourmaster's queue, or is skipped when one runs. -/
  | checkpointAction (entry : Fin 4096)
  /-- ROUTE_BANK (R299). A due ROUTE_BANK schedule entry makes every port of both FDs use the named route-table bank from its next packet boundary. -/
  | routeBank (entry : Fin 4096)
  /-- TIDE_MARK_COMPARATOR_HIT (R65). The tide reaches an enabled TMC_MARK_i; TMC_HIT bit i is set and the harbourmaster is signalled or the node woken. -/
  | tideMarkComparatorHit (comparator : Fin 16)
  /-- VTC_CROSSING (R66). A voltage or temperature comparator's source crosses its threshold; VTC_HIT is set, VTC is raised and the node wakes if WAKE is set. -/
  | vtcCrossing (comparator : Fin 4) (reading : BitVec 16)
  /-- Q_TAIL_WRITE (R98). A write to a core queue's Q_TAIL makes ring slots pending, or is discarded with TAIL_REJECT when it overfills the ring or the core is not ONLINE. -/
  | qTailWrite (core : Fin 256) (queue : Fin 6) (value : Word)
  /-- Q_CHAIN_WRITE (R99). A write to Q_CHAIN enters a chain address into the queue's four-entry chain FIFO. -/
  | qChainWrite (core : Fin 256) (queue : Fin 6) (value : Word)
  /-- RESERVED_SLOT_ENTER (R99). A harbourmaster or dispatcher entry that found the chain FIFO full enters it as soon as an entry frees. -/
  | reservedSlotEnter (core : Fin 256) (queue : Fin 6)
  /-- DESCRIPTOR_START (R100). A queue fetches the descriptor at the head of its chain or ring and starts it once FENCE and its counter wait are met, or halts on a fetch error. -/
  | descriptorStart (core : Fin 256) (queue : Fin 6)
  /-- RESUME (R104). Q_CTRL.RESUME on a HALTED queue fetches the halted descriptor again and runs it. -/
  | resume (core : Fin 256) (queue : Fin 6)
  /-- SKIP (R104). Q_CTRL.SKIP on a HALTED queue retires the halted descriptor without an increment and continues. -/
  | skip (core : Fin 256) (queue : Fin 6)
  /-- FLUSH (R104). Q_CTRL.FLUSH discards every pending slot and chain, ends a running descriptor with ABORTED and leaves the queue IDLE. -/
  | flush (core : Fin 256) (queue : Fin 6)
  /-- WFI (R105). A pilot core executes WFI and waits for an enabled wake source. -/
  | wfi (core : Fin 256)
  /-- PILOT_WAKE (R105). A source enabled in WAKE_EN is set in WAKE_CAUSE and the waiting pilot core resumes within 8 cycles. -/
  | pilotWake (core : Fin 256)
  /-- PUMP_DESCRIPTOR (R112). A pump checks its descriptor and moves, gathers, scatters or converts its elements, ending with OK, ACCESS, POISON or REMOTE_DEAD. -/
  | pumpDescriptor (core : Fin 256) (pump : Fin 2)
  /-- PUMP_COMPLETE (R115). A pump descriptor completes, increments its event counter and then writes POST_VALUE to POST_ADDR. -/
  | pumpComplete (core : Fin 256) (pump : Fin 2)
  /-- PUMP_CONV_READ (R114). A read of PUMP_CONV_p returns the NaN and saturation counts and clears them. -/
  | pumpConvRead (core : Fin 256) (pump : Fin 2)
  /-- OFFLINE_DRAIN (R116). A harbourmaster OFFLINE_DRAIN request takes an ONLINE core to DRAINING, refusing new tail writes and chains. -/
  | offlineDrain (core : Fin 256)
  /-- CORE_DRAIN_DONE (R116). A DRAINING core's queues are empty and its tray writes acknowledged, and the core enters OFFLINE. -/
  | coreDrainDone (core : Fin 256)
  /-- OFFLINE_ABORT (R116). A harbourmaster OFFLINE_ABORT request ends every running descriptor with ABORTED within 5 µs, flushes the queues, voids admitted work and takes the core OFFLINE. -/
  | offlineAbort (core : Fin 256)
  /-- ONLINE (R116). A harbourmaster ONLINE request resets an OFFLINE core's queues and event counters and starts the pilot core at PILOT_PC. -/
  | online (core : Fin 256)
  /-- MXE_DESCRIPTOR (R134). An MXE checks a descriptor, refusing it as MALFORMED, ACCESS or OVERLAP, or runs its passes and drains over A, B and the accumulator bank. -/
  | mxeDescriptor (core : Fin 256) (engine : Fin 2)
  /-- MXE_COMPLETE (R138). An MXE descriptor completes: its summary is written, its event counter incremented and its trigger add sent. -/
  | mxeComplete (core : Fin 256) (engine : Fin 2)
  /-- MX_CONV_READ (R137). A read of MX_CONV returns the output-conversion event counts and clears them. -/
  | mxConvRead (core : Fin 256) (engine : Fin 2)
  /-- FLE_CHAIN (R166). An FLE checks a chain descriptor, refusing it as MALFORMED, POOL, ACCESS or OVERLAP, or walks the tensor through its stages. -/
  | fleChain (core : Fin 256)
  /-- FLE_COMPLETE (R168). An FLE descriptor completes: STORE writes and summary records become visible, the counter increments and the trigger add is sent. -/
  | fleComplete (core : Fin 256)
  /-- FL_CONV_READ (R165). A read of FL_CONV returns the FLE event counts and clears them. -/
  | flConvRead (core : Fin 256)
  /-- KADD (R187). The Xkmlv instruction kadd adds A and B element-wise into D and writes its event counts to rd. -/
  | kadd (hart : Fin 320) (rd : Fin 32) (rs1 : Fin 32) (rs2 : Fin 32) (rs3 : Fin 32)
  /-- KSUB (R187). The Xkmlv instruction ksub subtracts B from A element-wise into D. -/
  | ksub (hart : Fin 320) (rd : Fin 32) (rs1 : Fin 32) (rs2 : Fin 32) (rs3 : Fin 32)
  /-- KMUL (R187). The Xkmlv instruction kmul multiplies A and B element-wise into D. -/
  | kmul (hart : Fin 320) (rd : Fin 32) (rs1 : Fin 32) (rs2 : Fin 32) (rs3 : Fin 32)
  /-- KFMA (R187). The Xkmlv instruction kfma computes A × B + D element-wise with one rounding. -/
  | kfma (hart : Fin 320) (rd : Fin 32) (rs1 : Fin 32) (rs2 : Fin 32) (rs3 : Fin 32)
  /-- KMAX (R187). The Xkmlv instruction kmax writes the element-wise maximum of A and B to D. -/
  | kmax (hart : Fin 320) (rd : Fin 32) (rs1 : Fin 32) (rs2 : Fin 32) (rs3 : Fin 32)
  /-- KMIN (R187). The Xkmlv instruction kmin writes the element-wise minimum of A and B to D. -/
  | kmin (hart : Fin 320) (rd : Fin 32) (rs1 : Fin 32) (rs2 : Fin 32) (rs3 : Fin 32)
  /-- KDIV (R187). The Xkmlv instruction kdiv divides A by B element-wise for FX and INT results. -/
  | kdiv (hart : Fin 320) (rd : Fin 32) (rs1 : Fin 32) (rs2 : Fin 32) (rs3 : Fin 32)
  /-- KCVT (R187). The Xkmlv instruction kcvt converts A into D's format element by element. -/
  | kcvt (hart : Fin 320) (rd : Fin 32) (rs1 : Fin 32) (rs2 : Fin 32) (rs3 : Fin 32)
  /-- KGATH (R189). The Xkmlv instruction kgath gathers elements of A by an INT32 index vector into D in ordered mode. -/
  | kgath (hart : Fin 320) (rd : Fin 32) (rs1 : Fin 32) (rs2 : Fin 32) (rs3 : Fin 32)
  /-- KSCAT (R189). The Xkmlv instruction kscat scatters elements of A into D by an INT32 index vector in ordered mode. -/
  | kscat (hart : Fin 320) (rd : Fin 32) (rs1 : Fin 32) (rs2 : Fin 32) (rs3 : Fin 32)
  /-- KDOT (R190). The Xkmlv instruction kdot sums the products of A and B in groups of 16 and writes the value to rd. -/
  | kdot (hart : Fin 320) (rd : Fin 32) (rs1 : Fin 32) (rs2 : Fin 32) (rs3 : Fin 32)
  /-- KSUM (R190). The Xkmlv instruction ksum sums the elements of A and writes the value to rd. -/
  | ksum (hart : Fin 320) (rd : Fin 32) (rs1 : Fin 32) (rs2 : Fin 32) (rs3 : Fin 32)
  /-- KAMAX (R187). The Xkmlv instruction kamax writes the largest magnitude of A to rd. -/
  | kamax (hart : Fin 320) (rd : Fin 32) (rs1 : Fin 32) (rs2 : Fin 32) (rs3 : Fin 32)
  /-- XKMLV_INTERRUPT_STOP (R196). An interrupt taken during an Xkmlv instruction stops it at an element or group boundary within 64 cycles. -/
  | xkmlvInterruptStop (hart : Fin 320) (op : Fin 32) (rd : Fin 32) (rs1 : Fin 32) (rs2 : Fin 32) (rs3 : Fin 32) (stop : Nat) (cause : Nat)
  /-- XKMLV_CSR_WRITE (R185). A write to an Xkmlv CSR sets XS to Dirty, saturating lvl at 16 777 216, or raises illegal instruction while XS is Off. -/
  | xkmlvCsrWrite (hart : Fin 320) (csr : HartInstr) (value : Word)
  /-- CBO_CLEAN (R183). cbo.clean writes a dirty block to HBM from every PD cache level and keeps it valid. -/
  | cboClean (hart : Fin 64) (addr : Word)
  /-- CBO_FLUSH (R183). cbo.flush writes a dirty block to HBM and invalidates it in every PD cache. -/
  | cboFlush (hart : Fin 64) (addr : Word)
  /-- CBO_INVAL (R183). cbo.inval invalidates a block without write-back, or acts as cbo.flush when envcfg selects it. -/
  | cboInval (hart : Fin 64) (addr : Word)
  /-- CBO_ZERO (R183). cbo.zero writes zeros to a whole 64-byte block. -/
  | cboZero (hart : Fin 64) (addr : Word)
  /-- SV_BATCH_START (R213). A crew core starts a batch descriptor, checks it, swaps ADMIT_GATE and performs admission or waits for ADMITTED. -/
  | svBatchStart (core : Fin 256)
  /-- SEGMENT_CLAIM (R213). A crew core claims the next segment by fetch-and-add on CLAIM_NEXT, or ends its part and decrements CREW_K. -/
  | segmentClaim (core : Fin 256)
  /-- SEGMENT_COMPLETE (R224). A segment's problems end; x sections, result records and DONE_TAG are written and the status word updated, setting COMPLETE on the last. -/
  | segmentComplete (core : Fin 256)
  /-- STOP_MARK (R229). The tide reaches a segment's stop mark; unfinished direct problems end DEADLINE_FACTOR and iterative ones DEADLINE_ITERATE. -/
  | stopMark (core : Fin 256)
  /-- MOVE_REQ_POLL (R230). Every 2^POLL_LOG2 cycles a crew SV reads the control line and applies an earlier MOVE_REQ, voiding promises that no longer fit. -/
  | moveReqPoll (core : Fin 256)
  /-- SV_QUERY_WRITE (R206). A write to SV_QUERY computes the footprint, lane count and cycles of a method and shape into SV_QUERY_RES. -/
  | svQueryWrite (core : Fin 256) (wide : Bool) (high : Bool) (value : Word)
  /-- RING_TAIL_WRITE (R212). A write to a solver ring's RING_TAIL makes batches pending, or is discarded with TAIL_REJECT when it overfills the ring. -/
  | ringTailWrite (die : Fin 4) (ring : Fin 8) (value : Word)
  /-- DISPATCHER_ENTER (R212). The solver dispatcher takes the head ring slot, writes CREW_K and enters the descriptor into the SV chain FIFO of each ONLINE crew core. -/
  | dispatcherEnter (die : Fin 4) (ring : Fin 8)
  /-- DISPATCHER_CLOSE (R233). The dispatcher, handed a batch whose CREW_K reached 0, writes ABORTED records for unclaimed problems, sets COMPLETE and sends the trigger add. -/
  | dispatcherClose (die : Fin 4)
  /-- BATCH_REFUSED (R233). Every crew core has refused a batch as MALFORMED and the dispatcher retires its slot without COMPLETE. -/
  | batchRefused (die : Fin 4) (ring : Fin 8)
  /-- HBM_READ (R261). A controller serves an HBM read through the channel function, correcting, poisoning or counting ECC outcomes. -/
  | hbmRead (addr : Nat) (bytes : Nat) (way : HbmWay)
  /-- HBM_WRITE (R261). A controller stores an HBM write, merging partial sectors by read-modify-write and storing or clearing poison. -/
  | hbmWrite (addr : Nat) (data : List Byte) (poison : Bool) (way : HbmWay)
  /-- REFRESH (R258). A bank group's refresh interval expires and its banks are refreshed per bank. -/
  | refresh (channel : Fin 192)
  /-- PATROL_SCRUB (R262). The patrol scrubber reads a sector in idle cycles and treats its ECC outcome under R261 with cause SCRUB. -/
  | patrolScrub (channel : Fin 192) (errors : SectorErrors)
  /-- CHANNEL_RETRAIN_START (R266). At an accepted retraining's start mark the channel enters HELD, drains its write buffer and begins its PHY retune. -/
  | channelRetrainStart (channel : Fin 192)
  /-- CHANNEL_RETRAIN_END (R266). A retraining's retune and READ_ECC check end; the channel becomes ACTIVE and queued accesses resume, or it is FENCED. -/
  | channelRetrainEnd (channel : Fin 192) (pass : Bool)
  /-- CHANNEL_REFILL_DONE (R267). The poison refill of a recovered channel ends; the channel enters ACTIVE and LOST is cleared for its regions. -/
  | channelRefillDone (channel : Fin 192)
  /-- GO (R268). A write of TG_CTRL.GO starts an ISOLATED channel's traffic generator, or is discarded with CFG_REJECT in any other state. -/
  | go (channel : Fin 192) (value : Word)
  /-- ABORT (R270). A write of TG_CTRL.ABORT stops a RUNNING generator at its next sector. -/
  | abort (channel : Fin 192)
  /-- TG_DONE (R269). A traffic generator finishes its passes, or its first failure with STOP_ON_ERR, and reports DONE. -/
  | tgDone (channel : Fin 192) (faults : List TgFault) (order : Nat)
  /-- CH_CE_READ (R261). A read of CH_CE_c returns the corrected-error count and clears it. -/
  | chCeRead (channel : Fin 192)
  /-- CH_UE_READ (R261). A read of CH_UE_c returns the uncorrectable-error count and clears it. -/
  | chUeRead (channel : Fin 192)
  /-- PORT_TRAINING (R284). An enabled port leaves DOWN, or retries every 100 ms, and trains through equalisation, frame lock, HELLO and SYNC. -/
  | portTraining (port : Fin 16)
  /-- PORT_UP (R284). A port's training completes with SYNC in both directions and the port enters UP, or returns to DOWN on failure or RTT_LIMIT. -/
  | portUp (port : Fin 16) (outcome : Training)
  /-- RETRAIN (R284). PORT_CTRL.RETRAIN forces the port DOWN and into a new training with its committed fields. -/
  | retrain (port : Fin 16)
  /-- RETUNE (R286). PORT_CTRL.RETUNE takes the named lane out of the active set to retune it. -/
  | retune (port : Fin 16) (lane : Fin 8)
  /-- LANE_DROP (R286). A lane whose symbol errors exceed 10^-5 over 1 ms leaves the active set and raises LINK_LANE; below MIN_WIDTH the port goes DOWN. -/
  | laneDrop (port : Fin 16) (lane : Fin 8)
  /-- LANE_REJOIN (R286). A lane completes its retune and rejoins the active set at a frame boundary. -/
  | laneRejoin (port : Fin 16) (lane : Fin 8)
  /-- PORT_DOWN (R285). An UP port loses frame lock for 1 µs, receives eight bad frames, sees no control slot for 10 µs or loses basin data, enters DOWN and raises LINK_DOWN. -/
  | portDown (port : Fin 16) (cause : DownCause)
  /-- FRAME_RECEIVE (R273). A receiver decodes a frame under its FEC mode, accepting its flits or discarding it as bad. -/
  | frameReceive (port : Fin 16) (frame : Frame)
  /-- CREDIT (R289). A received CREDIT control slot adds freed flits to CR_v, acknowledges frames and triggers replay on NAK. -/
  | credit (port : Fin 16) (nak : Bool) (sync : Bool) (ackFseq : BitVec 12) (freed : List (BitVec 16))
  /-- AUDIT (R290). A received AUDIT control slot reconciles SENT_v against flits received and sets CREDIT_AUDIT on a difference. -/
  | audit (port : Fin 16) (nak : Bool) (ackFseq : BitVec 12) (sent : List (BitVec 16))
  /-- FENCE (R283). A received FENCE control slot puts the port into PEER_FENCED and the router treats it as down. -/
  | fence (port : Fin 16) (ngi : BitVec 18)
  /-- HELLO (R460). A received HELLO updates NEIGHBOUR and the port's limited status, retraining the port if that changes. -/
  | hello (port : Fin 16) (hello : Hello)
  /-- EGRESS_PACKET_START (R288). An egress port with a free data slot starts the first qualifying packet by VC0 bucket, VC7, guaranteed share and deficit round robin. -/
  | egressPacketStart (port : Fin 16)
  /-- UNICAST (R300). A router looks up an arriving unicast header and delivers, forwards, escapes or drops the packet. -/
  | unicast (port : Fin 16) (vc : Fin 8)
  /-- MULTICAST (R305). A router replicates an arriving multicast packet on each port whose mask share is non-zero and delivers locally when named. -/
  | multicast (port : Fin 16) (vc : Fin 8)
  /-- ESCAPE (R303). A packet that has waited ESC_WAIT ns without credit on any candidate port moves to VC7. -/
  | escape (port : Fin 16) (vc : Fin 8)
  /-- BASIN_FILL (R293). A basin flit returns to the on-die share in arrival order as room frees, or is discarded with BASIN_POISON when read poisoned. -/
  | basinFill (port : Fin 16) (vc : Fin 8)
  /-- RTR_BANK_WRITE (R299). A write to RTR_BANK changes the active route-table bank from each port's next packet boundary. -/
  | rtrBankWrite (wide : Bool) (high : Bool) (value : Word)
  /-- ROUTE_TABLE_WRITE (R298). A write to the route-table window updates both FD copies, or is discarded with CFG_REJECT when it changes an active-bank entry. -/
  | routeTableWrite (word : Fin 262144) (wide : Bool) (high : Bool) (value : Word)
  /-- TAG_FILTER_WRITE (R306). A write to TAG_FILTER applies to headers arriving 100 ns or more later on every port of both FDs. -/
  | tagFilterWrite (word : Fin 1024) (wide : Bool) (high : Bool) (value : Word)
  /-- DROP_COUNT_READ (R304). A read of DROP_COUNT_c returns the drop count and clears it. -/
  | dropCountRead (cause : Fin 5)
  /-- BASIN_OCC_READ (R502). A read of BASIN_OCC_v returns occupancy and clears HIGH. -/
  | basinOccRead (port : Fin 16) (vc : Fin 8)
  /-- ENABLE (R313). QCTL ENABLE checks a DISABLED queue's context, zeroes its state and sends a first grant, or is refused in QCTL_STATUS. -/
  | enable (queue : Fin 262144)
  /-- DRAIN (R313). QCTL DRAIN stops a queue taking new submission entries. -/
  | drain (queue : Fin 262144)
  /-- QUEUE_DRAIN_DONE (R313). A DRAINING queue's started operations complete; the quay writes back its context and the queue enters DISABLED. -/
  | queueDrainDone (queue : Fin 262144)
  /-- RESET (R313). QCTL RESET ends every started operation with ABORTED within 5 µs, discards the rest and disables the queue. -/
  | reset (queue : Fin 262144)
  /-- QCTL_RESUME (R313). QCTL RESUME takes a HALTED queue back to ACTIVE after the operation that halted it. -/
  | qctlResume (queue : Fin 262144)
  /-- QUEUE_BELL_SQ_TAIL (R314). A queue bell with selector 0 writes SQ_TAIL, or is discarded with TAIL_REJECT when it overfills the ring. -/
  | queueBellSqTail (queue : Fin 262144) (index : BitVec 32)
  /-- QUEUE_BELL_CQ_HEAD (R314). A queue bell with selector 1 writes CQ_HEAD, freeing completion records. -/
  | queueBellCqHead (queue : Fin 262144) (index : BitVec 32)
  /-- QUEUE_BELL_RQ_HEAD (R314). A queue bell with selector 2 writes RQ_HEAD, freeing receive slots and their window bytes. -/
  | queueBellRqHead (queue : Fin 262144) (index : BitVec 32)
  /-- STAGING_WINDOW_WRITE (R315). A whole aligned 64-byte write to a queue's staging window stores a work request at SQ_TAIL and advances it. -/
  | stagingWindowWrite (queue : Fin 262144) (offset : Nat) (data : List Byte) (poison : Bool)
  /-- PUT (R317). A PUT work request starts and sends LOCAL data to the peer's opening. -/
  | put (queue : Fin 262144)
  /-- GET (R317). A GET work request starts and reads the peer's opening into LOCAL. -/
  | get (queue : Fin 262144)
  /-- SEND (R317). A SEND work request starts and sends LOCAL data to the peer's next receive slot. -/
  | send (queue : Fin 262144)
  /-- ATOMIC (R317). An ATOMIC work request starts and performs its atomic operation at the peer's opening. -/
  | atomic (queue : Fin 262144)
  /-- CTR_ADD (R317). A CTR_ADD work request starts and adds its operand to a trigger counter of the peer node. -/
  | ctrAdd (queue : Fin 262144)
  /-- NOP_WORK_REQUEST (R317). A NOP work request starts and completes without sending. -/
  | nopWorkRequest (queue : Fin 262144)
  /-- OPERATION_COMPLETE (R319). An operation completes; the quay writes its completion record in submission order and then signals SIG_CTR. -/
  | operationComplete (queue : Fin 262144)
  /-- PUT_RECEIVE (R323). An arriving PUT packet is checked against the queue and opening and its payload written, or answered with ERROR. -/
  | putReceive (quay : Fin 2)
  /-- GET_REQ_RECEIVE (R323). An arriving GET_REQ packet is checked and answered with GET_RESP data. -/
  | getReqReceive (quay : Fin 2)
  /-- GET_RESP_RECEIVE (R321). An arriving GET_RESP packet writes its data at LOCAL. -/
  | getRespReceive (quay : Fin 2)
  /-- SEND_RECEIVE (R319). An arriving SEND packet fills the next receive slot and a receive record is written. -/
  | sendReceive (quay : Fin 2)
  /-- ATOMIC_RECEIVE (R324). An arriving ATOMIC packet is performed at most once and answered with ATOMIC_RESP. -/
  | atomicReceive (quay : Fin 2)
  /-- ATOMIC_RESP_RECEIVE (R321). An arriving ATOMIC_RESP packet writes a fetched value to LOCAL. -/
  | atomicRespReceive (quay : Fin 2)
  /-- ACK_RECEIVE (R324). An arriving cumulative ACK advances TX_ACKED and carries the peer's completion stamp. -/
  | ackReceive (quay : Fin 2)
  /-- NAK_RECEIVE (R324). An arriving NAK makes the sender retransmit from TX_ACKED. -/
  | nakReceive (quay : Fin 2)
  /-- GRANT_RECEIVE (R325). An arriving GRANT raises TX_GRANTED to the highest grant seen. -/
  | grantReceive (quay : Fin 2)
  /-- CTR_ADD_RECEIVE (R346). An arriving CTR_ADD adds to a trigger counter, or is answered ERROR with TAG on a tag mismatch. -/
  | ctrAddReceive (quay : Fin 2)
  /-- ERROR_RECEIVE (R320). An arriving ERROR response ends the operation with the status it carries and halts the queue. -/
  | errorReceive (quay : Fin 2)
  /-- RETRANSMIT_TIMEOUT (R324). RTO_US passes without progress; the sender retransmits from TX_ACKED, or ends the operation with PEER_LOST after seven tries. -/
  | retransmitTimeout (queue : Fin 262144)
  /-- GAP_NAK (R324). A receive gap persists for 5 µs and the receiver sends a NAK. -/
  | gapNak (queue : Fin 262144)
  /-- ACK_TIMER (R324). 64 packets or 5 µs pass and the receiver sends a cumulative ACK. -/
  | ackTimer (queue : Fin 262144)
  /-- GRANT_TIMER (R325). Ungranted bytes reach WIN_BYTES ÷ 8, or 2 µs or 100 µs pass, and the receiver sends a GRANT. -/
  | grantTimer (queue : Fin 262144)
  /-- CALENDAR_PERIOD_START (R331). A calendar period starts; a committed calendar takes effect and unsent admitted operations are booked again, voiding those that no longer fit. -/
  | calendarPeriodStart (quay : Fin 2)
  /-- RANK_FLUSH (R335). A write to RANK_FLUSH invalidates the cached rank entries for operations that start after it. -/
  | rankFlush (quay : Fin 2)
  /-- TRAY_REQUEST (R336). A load, store or AMO to another node's tray address is sent by the quay toward that node, or ends as dead at once. -/
  | trayRequest (sender : Sender) (addr : Nat) (op : TrayOp)
  /-- TRAY_LD (R336). An arriving TRAY_LD is checked against TRAY_TAG and answered with TRAY_RESP data or ERROR. -/
  | trayLd (quay : Fin 2)
  /-- TRAY_ST (R336). An arriving TRAY_ST is checked against TRAY_TAG, stored in issue order and acknowledged. -/
  | traySt (quay : Fin 2)
  /-- TRAY_AMO (R338). An arriving TRAY_AMO is performed at the target and answered. -/
  | trayAmo (quay : Fin 2)
  /-- TRAY_RESP (R337). An arriving TRAY_RESP completes the requester's load, store or AMO. -/
  | trayResp (quay : Fin 2)
  /-- TRAY_ERR (R339). An ERROR response to a tray request faults the hart, raises TRAY_ERR or ends the pump with ACCESS, capturing TRAY_CAP. -/
  | trayErr (quay : Fin 2)
  /-- TRAY_DEAD (R340). A tray request has no response after DEAD_NS; it ends as dead, raises TRAY_DEAD and sets the DEAD_MAP bit. -/
  | trayDead (quay : Fin 2) (request : Nat)
  /-- TRIGGER_ADD (R344). An add from a schedule entry, engine, quay signal or CTR_ADD reaches a trigger counter and applies, or is discarded for a disabled block. -/
  | triggerAdd
  /-- TRIG_DROPS_READ (R346). A read of TRIG_DROPS returns the discarded-add count and clears it. -/
  | trigDropsRead (quay : Fin 2)
  /-- CL_STRAY_READ (R350). A read of CL_STRAY returns the stray-chunk count and clears it. -/
  | clStrayRead (quay : Fin 2)
  /-- ARM (R351). GCTL ARM checks a group's context and tables and takes it to ARMING, or is refused. -/
  | arm (group : Fin 4096)
  /-- GROUP_ACTIVATE (R351). The tide reaches ARM_MARK; the group enters ACTIVE and grants its senders a first window. -/
  | groupActivate (group : Fin 4096)
  /-- QUIESCE (R351). GCTL QUIESCE ends the operation in progress with SHRUNK, discards pending requests, staging and connections and enters QUIESCED. -/
  | quiesce (group : Fin 4096)
  /-- DISABLE (R351). GCTL DISABLE takes a QUIESCED group to DISABLED. -/
  | disable (group : Fin 4096)
  /-- GROUP_BELL_SQ_TAIL (R352). A group bell with selector 0 writes the group's SQ_TAIL. -/
  | groupBellSqTail (group : Fin 4096) (index : BitVec 32)
  /-- GROUP_BELL_CQ_HEAD (R352). A group bell with selector 1 writes the group's CQ_HEAD. -/
  | groupBellCqHead (group : Fin 4096) (index : BitVec 32)
  /-- ALLREDUCE (R356). An ALLREDUCE request starts its reduce-scatter up the levels and all-gather back down. -/
  | allreduce (group : Fin 4096)
  /-- REDUCE_SCATTER (R356). A REDUCE_SCATTER request starts its reduce-scatter up to the top level. -/
  | reduceScatter (group : Fin 4096)
  /-- ALLGATHER (R356). An ALLGATHER request starts its all-gather from the top level down. -/
  | allgather (group : Fin 4096)
  /-- BROADCAST (R352). A BROADCAST request scatters ROOT's final ranges and then all-gathers them. -/
  | broadcast (group : Fin 4096)
  /-- ALLTOALL (R352). An ALLTOALL request sends each block directly to its peer. -/
  | alltoall (group : Fin 4096)
  /-- GATHER (R352). A GATHER request sends each member's block directly to ROOT. -/
  | gather (group : Fin 4096)
  /-- SCATTER (R352). A SCATTER request sends ROOT's blocks directly to each member. -/
  | scatter (group : Fin 4096)
  /-- ALLTOALLV (R353). An ALLTOALLV request exchanges counts and then sends per-peer blocks directly. -/
  | alltoallv (group : Fin 4096)
  /-- GATHERV (R353). A GATHERV request sends counts and then blocks to ROOT. -/
  | gatherv (group : Fin 4096)
  /-- SCATTERV (R353). A SCATTERV request has ROOT send counts and then blocks to each member. -/
  | scatterv (group : Fin 4096)
  /-- CHUNK (R357). An arriving CHUNK lands in staging and is decoded, reduced or copied into DST, or discarded as stray. -/
  | chunk (quay : Fin 2)
  /-- C_ACK (R361). An arriving C_ACK advances a collective connection's acknowledged PSN. -/
  | cAck (quay : Fin 2)
  /-- C_GRANT (R361). An arriving C_GRANT raises a collective connection's window. -/
  | cGrant (quay : Fin 2)
  /-- C_COUNT (R353). An arriving C_COUNT writes a peer's count into RCOUNT. -/
  | cCount (quay : Fin 2)
  /-- STEP_WINDOW_END (R367). A class 1 step window ends without its incoming data and the operation's promise is voided with cause PEER. -/
  | stepWindowEnd (group : Fin 4096)
  /-- COLLECTIVE_COMPLETE (R368). A member's collective completes; the quay stamps it, writes the record and signals SIG_CTR. -/
  | collectiveComplete (group : Fin 4096)
  /-- GROUP_STAT_WRITEBACK (R348). Every 10 µs the quay writes an ACTIVE group's statistics back to its context. -/
  | groupStatWriteback (group : Fin 4096)
  /-- POST_COMPOSE (R378). An 8-byte write to bytes 0x000–0x037 of a POST window stores the word in the requester's compose buffer. -/
  | postCompose (sender : Sender) (berth : Fin 256) (word : Fin 7) (value : Word)
  /-- POST (R379). A write to 0x038 or a whole 64-byte write posts the composed message to the berth, or is rejected with a bus error. -/
  | post (sender : Sender) (berth : Fin 256) (message : Post)
  /-- B_TAKE (R380). The owner's write to B_TAKE frees the berth's oldest slot. -/
  | bTake (sender : Sender) (berth : Fin 256)
  /-- BERTH_CLEAR (R382). A berth's owner becomes not live; its messages are discarded within 1 µs and ABORTED is set. -/
  | berthClear (berth : Fin 256)
  /-- ABORTED (R383). The node posts an ABORTED notice to the reply berth of each discarded message, or sets NOTICE_LOST. -/
  | aborted
  /-- OR_BELL_WRITE (R386). A write to a core, PD-hart or harbourmaster bell ORs into the bell word and signals the owner. -/
  | orBellWrite (bell : Fin 321) (value : Word)
  /-- BELL_READ (R386). A read of a core, PD-hart or harbourmaster bell returns the bell word and clears it. -/
  | bellRead (bell : Fin 321)
  /-- HOST_BELL_WRITE (R388). A host bell write is carried to the bridge node and sent to the host at HN_BASE, or discarded when no bridge is UP. -/
  | hostBellWrite (bell : Fin 64) (value : Word)
  /-- HOST_REQUEST (R387). A host request arriving on the bridge's port 15 is performed as a tray request of quay 1, or answered with ERROR. -/
  | hostRequest
  /-- QUERY_VERSION (R392). The harbourmaster returns the stepping, operating level, limited and ranged flags and image levels. -/
  | queryVersion (berth : Fin 2)
  /-- NOP (R392). The harbourmaster replies to NOP without acting. -/
  | nop (berth : Fin 2)
  /-- SET_POWER_MODE (R35). The harbourmaster accepts a power-mode change at a tide mark, or refuses it under R35, the safe state or the brake. -/
  | setPowerMode (berth : Fin 2)
  /-- SET_SLEEP (R37). The harbourmaster accepts a sleep-depth change at a mark, or refuses DOZE or DEEP while promises, groups or a checkpoint are outstanding. -/
  | setSleep (berth : Fin 2)
  /-- SET_FEC (R275). The harbourmaster sets a port's FEC request and starts its retraining. -/
  | setFec (berth : Fin 2)
  /-- CORE_STATE (R116). The harbourmaster writes CORE_CTRL requests for the named cores and returns the mask of discarded requests. -/
  | coreState (berth : Fin 2)
  /-- CORE_LOAD (R94). The harbourmaster loads a pilot program into the pilot regions of OFFLINE cores and sets PILOT_PC. -/
  | coreLoad (berth : Fin 2)
  /-- CH_RETRAIN (R265). The harbourmaster accepts a channel retraining at a start mark, or refuses it; a forced request voids promises. -/
  | chRetrain (berth : Fin 2)
  /-- CH_ISOLATE (R263). The harbourmaster moves a channel between FENCED and ISOLATED. -/
  | chIsolate (berth : Fin 2)
  /-- CH_RECOVER (R416). The harbourmaster starts the retraining and poison refill of a FENCED channel as a long operation. -/
  | chRecover (berth : Fin 2)
  /-- REG_READ (R392). The harbourmaster reads 1–5 words of a die's register window and returns them. -/
  | regRead (berth : Fin 2)
  /-- REG_WRITE (R392). The harbourmaster writes 1–4 words to a die's register window, stopping at a bus error. -/
  | regWrite (berth : Fin 2)
  /-- REG_COPY (R392). The harbourmaster copies words from HBM into a die's register window as a long operation. -/
  | regCopy (berth : Fin 2)
  /-- BERTH_ASSIGN (R392). The harbourmaster sets the owner and ENABLE of an empty berth. -/
  | berthAssign (berth : Fin 2)
  /-- HOST_NOTIFY (R388). The harbourmaster sets the tray's bridge node and HN_BASE. -/
  | hostNotify (berth : Fin 2)
  /-- CHECKPOINT (R425). The harbourmaster accepts a checkpoint with a plan, start mark and status word, or refuses it when one runs. -/
  | checkpoint (berth : Fin 2)
  /-- RESTORE (R440). The harbourmaster chooses, copies and verifies the newest fitting shard into the job's memory. -/
  | restore (berth : Fin 2)
  /-- FW_STAGE (R456). The harbourmaster checks an image and writes it into the inactive bank of the named instances. -/
  | fwStage (berth : Fin 2)
  /-- FW_ACTIVATE (R457). The harbourmaster accepts an activation at a mark after evaluating levels and the refusals of Table 17-4. -/
  | fwActivate (berth : Fin 2)
  /-- ATTEST (R463). The harbourmaster writes a signed attestation report with the certificate. -/
  | attest (berth : Fin 2)
  /-- LIFETIME_READ (R420). The harbourmaster copies raw bytes of the lifetime record to a destination. -/
  | lifetimeRead (berth : Fin 2)
  /-- FAULT_STATUS (R417). The harbourmaster returns a fault domain's state, configuration, last report tide and window start. -/
  | faultStatus (berth : Fin 2)
  /-- FAULT_RELEASE (R416). The harbourmaster takes a FENCED or FAULT domain into SELFTEST with WIN_COUNT 0, or answers BAD_STATE. -/
  | faultRelease (berth : Fin 2)
  /-- SET_NGI (R467). The harbourmaster writes SELF_NGI, names the node, sends HELLO and retrains zero-capacity ports, or answers BAD_STATE. -/
  | setNgi (berth : Fin 2)
  /-- ABORT_OP (R394). The harbourmaster ends a running long operation at its next unit boundary with STATE ABORTED. -/
  | abortOp (berth : Fin 2)
  /-- REPLY_RETRY (R390). Every 100 µs a reply that met a full berth is posted again, and after 10 ms it is dropped and counted in REPLY_LOST. -/
  | replyRetry (slot : Nat)
  /-- STATUS_WORD_UPDATE (R394). At least every 1 ms the harbourmaster updates a running long operation's status word. -/
  | statusWordUpdate (slot : Nat)
  /-- FAULT_REPORT (R405). A fault report reaches the hub, which counts it, logs it, changes the domain's state and, for a FAT source, starts the safe state. -/
  | faultReport
  /-- HBM_HOT (R258). A stack reaches 95 °C, raises HBM_HOT and forces a change to EFF. -/
  | hbmHot (stack : Fin 12) (reading : BitVec 16)
  /-- HBM_CRIT (R402). A stack reaches 105 °C and raises the fatal source HBM_CRIT. -/
  | hbmCrit (stack : Fin 12) (reading : BitVec 16)
  /-- DIE_HOT (R403). A logic-die sensor reaches 105 °C, raises DIE_HOT and forces a change to EFF. -/
  | dieHot (sensor : Fin 7) (reading : BitVec 16)
  /-- DIE_CRIT (R402). A logic-die sensor reaches 115 °C and raises the fatal source DIE_CRIT. -/
  | dieCrit (sensor : Fin 7) (reading : BitVec 16)
  /-- THERMAL_CLEAR (R403). A thermal source's sensor falls 5 °C below its threshold and its condition clears. -/
  | thermalClear (sensor : Fin 19) (reading : BitVec 16)
  /-- DROOP (R402). VDD_CD stays more than 10 % below the mode's voltage for more than 1 µs and raises the fatal source DROOP. -/
  | droop (die : Fin 4)
  /-- VR_FAULT (R482). VR_FAULT_N is low for 100 ns and the node raises VR_FAULT. -/
  | vrFault
  /-- CLK_LOSS (R491). REFCLK is absent for 1 µs and CLK_LOSS is raised. -/
  | clkLoss
  /-- MESH_DOWN (R402). A package mesh link loses lock or fails its check and MESH_DOWN is raised. -/
  | meshDown
  /-- HUB_ERR (R402). The fault hub's duplicated checker disagrees and HUB_ERR is raised. -/
  | hubErr
  /-- HM_LOCKSTEP (R373). The two harbourmaster cores disagree and HM_LOCKSTEP is raised. -/
  | hmLockstep
  /-- HM_WDOG (R402). The harbourmaster firmware has not served its watchdog for 100 ms and HM_WDOG is raised. -/
  | hmWdog
  /-- CORE_UE (R402). A parity or check failure in a pilot core, engine, lane register file or queue raises CORE_UE for the core's domain. -/
  | coreUe (core : Fin 256)
  /-- QUAY_UE (R402). An uncorrectable error in quay microcode, context cache or collective engine raises QUAY_UE for the quay's domain. -/
  | quayUe (quay : Fin 2)
  /-- HBM_PHY (R263). A PHY loss of lock fences the channel and raises HBM_PHY. -/
  | hbmPhy (channel : Fin 192)
  /-- QUIET_PERIOD_END (R414). A domain's quiet period ends with its conditions cleared and the domain enters SELFTEST. -/
  | quietPeriodEnd (domain : Fin 468)
  /-- SELFTEST_PASS (R415). A domain's self-test passes; RECOV and WIN_COUNT advance and the domain returns to NORMAL or is FENCED over its limit. -/
  | selftestPass (domain : Fin 468)
  /-- SELFTEST_FAIL (R413). A domain's self-test fails, or a report names it during SELFTEST, and it enters FENCED. -/
  | selftestFail (domain : Fin 468)
  /-- LIFETIME_WRITE (R420). Every 600 s, after a FAT report, before DEEP or at power-down, the harbourmaster writes the live counts into the older copy of the lifetime record. -/
  | lifetimeWrite
  /-- SENSOR_SAMPLE (R422). Once per second each temperature sensor is sampled into its histogram. -/
  | sensorSample (readings : List (BitVec 16))
  /-- ENERGY_INTEGRATE (R423). Every 1 ms the energy counters and EN_PKG integrate the regulator telemetry. -/
  | energyIntegrate (parts : List Nat)
  /-- CHECKPOINT_BEGIN (R430). At the later of the start mark and taking, a checkpoint reads its plan and runs INVALIDATE on every destination. -/
  | checkpointBegin
  /-- FORM_PIECE_ENTER (R431). The harbourmaster enters a FORM piece chain into pump 1 of a CORES core once that pump's previous piece has written its completion word. -/
  | formPieceEnter (core : Fin 256)
  /-- FORM_POLL (R431). Every 100 µs the harbourmaster reads Q_STATUS of pumps holding pieces, re-entering aborted pieces and skipping halted descriptors. -/
  | formPoll
  /-- FORM_END (R431). The last FORM piece completes, BELL is rung and SHIP begins. -/
  | formEnd
  /-- FORM_LATE (R432). FORM_LIMIT passes before FORM ends; no further chains are entered and the checkpoint ends FAILED. -/
  | formLate
  /-- SHIP_DONE (R430). A destination's body copy and the digest complete and its shard header is written. -/
  | shipDone (dest : Fin 4)
  /-- COMMIT (R430). A destination's commit record is written once its header and body have completed. -/
  | commit (dest : Fin 4)
  /-- POR_RISE (R487). POR_N rises; straps are sampled and start-up runs from stage 2. -/
  | porRise (straps : BitVec 5)
  /-- POR_FALL (R488). POR_N falls and every die except the always-on island stops at once. -/
  | porFall
  /-- RESET_N (R489). RESET_N low for 10 µs while POR_N is high restarts the node from stage 2. -/
  | resetN (straps : BitVec 5)
  /-- BOOT_ROM (R446). The boot ROM self-checks, reads fuses, derives the device key and checks instance 0's banks, entering recovery mode if both fail. -/
  | bootRom
  /-- FIRMWARE_STAGE (R446). Firmware checks instances 1–8, evaluates the image set and loads the quay, PHY and DSP firmware and provisional tray routes. -/
  | firmwareStage
  /-- HBM_STAGE (R447). Every channel is trained, write-checked and zero-filled, and wells, cisterns and accumulators are zeroed. -/
  | hbmStage (failed : List Nat)
  /-- ACTIVATION_MARK (R457). An accepted activation's mark arrives and the instance switches to its inactive bank under its kind's hold. -/
  | activationMark (image : Fin 9)
  /-- ACTIVATION_CONFIRM_TIMEOUT (R458). New instance 0 firmware does not take a command within 500 ms; the ROM restarts the old bank and sets ACT_FAIL. -/
  | activationConfirmTimeout
  /-- SLEEP_ENTRY (R485). At a sleep mark the node checks R37 again and enters IDLE, DOZE or DEEP, or abandons DOZE after 10 ms. -/
  | sleepEntry
  /-- WAKE (R31). A wake event listed for the depth in force returns the node to awake. -/
  | wake (source : WakeSource)
  /-- DEEP_WAKE (R449). A DEEP wake source drives SLP_DEEP_N high after the 30 ms hold and start-up runs with the retained settings restored. -/
  | deepWake
  /-- POWER_CONTROL_TICK (R477). Every 100 µs the power controller averages package power and adjusts the duty D. -/
  | powerControlTick
  /-- FAST_CUT (R479). The 1 µs power estimate exceeds E, or S for 800 µs, and D is set to 16 for 200 µs. -/
  | fastCut (estimate : Nat)
  /-- FAST_CUT_HOLD_END (R479). The 200 µs fast-cut hold ends and the power controller resumes from D = 16. -/
  | fastCutHoldEnd
  /-- CLOCK_STRETCH (R480). VDD_CDn falls more than 4 % below its setpoint and the CD lengthens its arithmetic cycles until the rail recovers. -/
  | clockStretch (die : Fin 4) (ns : Nat) (depth : Nat)
  /-- PWR_BRAKE (R481). PWR_BRAKE_N is low for 100 ns and the node makes a forced change to EFF with D at most 16. -/
  | pwrBrake
  /-- VR_ALERT (R482). VR_ALERT_N is low for 1 µs and the node makes a forced change to EFF. -/
  | vrAlert
  /-- POWER_MODE_MARK (R484). An accepted power-mode change reaches its mark and starts its transition, or is dropped with MODE_DROPPED. -/
  | powerModeMark
  /-- READBACK_ROUND (R484). A round of four VDD_CD read-backs ends; if every rail is within 1 % the transition switches the clock or completes. -/
  | readbackRound
  /-- AVS_TELEMETRY_READ (R474). Every 100 µs the node reads each selectable rail's telemetry over AVSBus. -/
  | avsTelemetryRead (rails : List RailReading)
  /-- CONTROL_SLOT_SEND (R280). At each control slot that carries no TIDE, an UP port sends CREDIT or AUDIT in turn, carrying NAK, ACK_FSEQ and cumulative FREED or SENT counts, or HELLO or FENCE where the rules demand it. -/
  | controlSlotSend (port : Fin 16)
  /-- VAON_POWER_UP (R40). VAON rises, the always-on island starts, TIDE_NOW is cleared and POWER_CYCLES counts one power-up. -/
  | vaonPowerUp
  /-- CONDITION_CLEAR (R414). A FAT condition clears (VDD_CD back within 10 % for 1 µs, VR_FAULT_N high for 100 ns, REFCLK present for 1 µs, or every mesh link locked) and the domain's quiet period starts from that moment. -/
  | conditionClear (source : Fin 64)
  /-- INSTANCE_CONFIRM (R458). An activated instance 1–8 reports its new firmware running, or fails to within 1 ms and is reloaded from the old bank, and the kind's hold ends, releasing held quay work and trigger adds. -/
  | instanceConfirm (image : Fin 9) (running : Bool)
  /-- PWR_BRAKE_RELEASE (R481). PWR_BRAKE_N rises; PWR_STATUS.BRAKE clears and power-mode requests to a higher clock are no longer refused, while the mode stays as it is. -/
  | pwrBrakeRelease
  deriving DecidableEq, Repr

end Sys2Proof
end

