-- ==== Sys2Proof/Decode.lean ====
section
/-! DEFINITION. The table's words: no row of the opcode table gives bits, so no word spells a command; and the layout
of the Xkmlv instruction words (07 R186). -/

namespace Sys2Proof

/-- The command that a word spells by the table's bits: none, since the table gives no row any bits. -/
def decodeTableWord (_nbits _w : Nat) : Option Instr := none

/-- The operation code and the registers rd, rs1, rs2 and rs3 of an Xkmlv instruction word; none where the opcode is another
(07 Table 7-5). -/
def decodeLong (w : BitVec 32) : Option (Nat × Nat × Nat × Nat × Nat) :=
  let f := fun (lo n : Nat) => w.toNat / 2 ^ lo % 2 ^ n
  if f 0 7 = 0x2B then some (f 25 2 * 8 + f 12 3, f 7 5, f 15 5, f 20 5, f 27 5) else none

end Sys2Proof
end

