-- ==== Sys2Proof/Config.lean ====
section
/-! DEFINITION. What the spec leaves open: constants and free values without a body, so that no proof can see them. -/

namespace Sys2Proof.Config

/-- The seed that on-die entropy gives a seed register, by the register's address (04 Table 4-10, 05 Table 5-9,
06 Table 6-14, 13 Table 13-14), or by hart number for lvseed (07 Table 7-8). -/
opaque entropy : Nat → Word

/-- A fresh random 16-bit draw of a stochastic rounding (03 R85, R92), by the draw counter. -/
opaque draw16 : Nat → BitVec 16

/-- The rank in which a unit takes the parts of a sum whose order it chooses (05 R125, 06 R161), by the draw counter
and the part's index. -/
opaque order : Nat → Nat → Nat

/-- The hash of SRC and DST that deterministic routing and the gateway draw use (11 R300, R301). -/
opaque routeHash : Nat → Nat → Nat

/-- A value the spec leaves undefined, by the draw counter. -/
opaque freeWord : Nat → Word

/-- An undefined byte of memory (10 R251), by the draw counter and the address. -/
opaque freeByte : Nat → Nat → Nat

/-- The device's fused seed UDS (17 R461), 32 bytes, by byte index. -/
opaque uds : Nat → Byte

/-- The four fused key digests (17 R452), 32 bytes each, by slot and byte index. -/
opaque keyDigest : Nat → Nat → Byte

/-- SLH-DSA-SHAKE-256s signature verification of FIPS 205 (17 R451, R452): public key, message, signature. -/
opaque slhVerify256s : List Byte → List Byte → List Byte → Bool

/-- SLH-DSA-SHAKE-256f signing of FIPS 205 with the device key derived from its seed (17 R461, R463): the seed, the
message, and the byte index of the signature. -/
opaque slhSign256f : List Byte → List Byte → Nat → Byte

/-- The public key of that device key pair (17 R461), 64 bytes, by the seed and the byte index. -/
opaque slhPublic256f : List Byte → Nat → Byte

/-- The certificate of the identity area (17 R462), by byte index, and its length. -/
opaque certByte : Nat → Byte
opaque certLength : Nat

/-- The fused trims of CD0–CD3 (0–3) and the PD (4), in steps of 5 mV above −30 mV (18 R473), taken modulo 17. -/
opaque trimStep : Nat → Nat

/-- The entry of a full rank cache that makes room for another, by the other's key (12 R335), taken modulo 256. -/
opaque cacheVictim : Nat → Nat

/-- The final ranges, as first element and elements, that the root of a BROADCAST takes for a member (13 Table 13-7), by
group, rank and COUNT: the spec does not say how it learns the rings that it is no member of. -/
opaque finalRange : Nat → Nat → Nat → List (Nat × Nat)

/-- The result that a TRANSC stage would give, by function, result format, operand and draw counter: it stands where it meets the
bound of 03 Table 3-10, which is all that the spec promises (06 R156). -/
opaque transc : Nat → Nat → Nat → Nat → Nat

/-- The LFSR stream of a traffic generator (10 Table 10-8), by TG_SEED and the index of an 8-byte word of the channel. -/
opaque lfsr : Word → Nat → Word

/-- The victim rows of the generator's HAMMER pattern (10 Table 10-8), by TG_SEED and the row. -/
opaque victimRow : Word → Nat → Bool

/-- The random address order of a traffic generator (10 Table 10-8), by run: the place that it gives a sector. -/
opaque randomOrder : Nat → Nat → Nat

end Sys2Proof.Config
end

