-- ==== Sys2Proof/Machine/Bits.lean ====
section
/-! DEFINITION. Bit fields of words, little-endian bytes (00 R9) and sparse tables in canonical form. -/

namespace Sys2Proof.Machine

/-- Bits [lo+len-1 : lo] of a natural number. -/
def bits (n lo len : Nat) : Nat := (n >>> lo) % 2 ^ len

/-- Bits [lo+len-1 : lo] of a register (00 R9). -/
def fld (w : Word) (lo len : Nat) : Nat := bits w.toNat lo len

/-- Bit `i` of a register. -/
def bit (w : Word) (i : Nat) : Bool := w.toNat.testBit i

/-- The mask of bits [lo+len-1 : lo]. -/
def maskOf (lo len : Nat) : Nat := (2 ^ len - 1) <<< lo

/-- A register with bits [lo+len-1 : lo] replaced by `v`, the other bits kept. -/
def setFld (w : Word) (lo len v : Nat) : Word :=
  (w &&& ~~~(BitVec.ofNat 64 (maskOf lo len))) ||| BitVec.ofNat 64 ((v % 2 ^ len) <<< lo)

/-- A register with bit `i` set or cleared. -/
def setBit (w : Word) (i : Nat) (b : Bool) : Word := setFld w i 1 (if b then 1 else 0)

/-- A count that stays at its largest 32-bit value (00 Table 0-3 users; 03 R87). -/
def sat32 (n : Nat) : Nat := min n 0xFFFF_FFFF

/-- The signed reading of the low `w` bits. -/
def toSigned (w n : Nat) : Int :=
  let m := n % 2 ^ w
  if m < 2 ^ (w - 1) then (m : Int) else (m : Int) - (2 ^ w : Nat)

/-- The low `w` bits of a two's-complement integer. -/
def ofSigned (w : Nat) (i : Int) : Nat := (i % (2 ^ w : Nat)).toNat

/-- (int32)(a − b) ≥ 0: the comparison of event and trigger counters (04 R100, 13 R345). -/
def reached32 (a b : Nat) : Bool := ((a + 2 ^ 32 - b % 2 ^ 32) % 2 ^ 32) < 2 ^ 31

/-- The number read little-endian from a list of bytes (00 R9). -/
def leNat : List Byte → Nat
  | [] => 0
  | b :: bs => b.toNat + 256 * leNat bs

/-- `n` bytes of a number, little-endian (00 R9). -/
def leBytes : Nat → Nat → List Byte
  | 0, _ => []
  | n + 1, v => BitVec.ofNat 8 v :: leBytes n (v / 256)

/-- The little-endian field of `n` bytes at byte offset `off` of a structure. -/
def byteFld (bs : List Byte) (off n : Nat) : Nat := leNat ((bs.drop off).take n)

/-- A structure with the `n` bytes at `off` replaced. -/
def setByteFld (bs : List Byte) (off n v : Nat) : List Byte :=
  bs.take off ++ leBytes n v ++ bs.drop (off + n)

/-- All `n` bytes at `off` are zero: the check of a reserved field (00 R17). -/
def zeroAt (bs : List Byte) (off n : Nat) : Bool := byteFld bs off n == 0

/-- A sparse table: keys strictly rising, no entry equal to the default of its key. -/
abbrev Tab (α : Type) := List (Nat × α)

/-- The entry of a key, or the default. -/
def Tab.get {α : Type} (d : α) : Tab α → Nat → α
  | [], _ => d
  | (k, v) :: t, i => if k == i then v else Tab.get d t i

/-- Drop every entry whose key satisfies the test. -/
def Tab.dropKeys {α : Type} (t : Tab α) (p : Nat → Bool) : Tab α := t.filter (fun e => !p e.1)

/-- Insert an entry before the first larger key. -/
def Tab.insert {α : Type} : Tab α → Nat → α → Tab α
  | [], i, v => [(i, v)]
  | (k, w) :: t, i, v => if i < k then (i, v) :: (k, w) :: t else (k, w) :: Tab.insert t i v

/-- Put a value at a key, keeping the keys rising; the value that an unlisted key reads as removes the entry. -/
def Tab.set {α : Type} [DecidableEq α] (d : α) (t : Tab α) (i : Nat) (v : α) : Tab α :=
  let rest := Tab.dropKeys t (· == i)
  if v = d then rest else Tab.insert rest i v

/-- The keys of a table. -/
def Tab.keys {α : Type} (t : Tab α) : List Nat := t.map (·.1)

/-- Apply a function to the entry of every listed key. -/
def Tab.mapVals {α : Type} [DecidableEq α] (d : α) (t : Tab α) (f : α → α) : Tab α :=
  (Tab.keys t).foldl (fun r k => Tab.set d r k (f (Tab.get d t k))) t

/-- Every key of the table is at least `lo` and the keys rise. -/
def Tab.sortedFrom {α : Type} : Nat → Tab α → Bool
  | _, [] => true
  | lo, (k, _) :: t => decide (lo ≤ k) && Tab.sortedFrom (k + 1) t

/-- The canonical form: keys strictly rising, and no entry equal to what an unlisted key reads as. -/
def Tab.wf {α : Type} [DecidableEq α] (d : Nat → α) (t : Tab α) : Bool :=
  Tab.sortedFrom 0 t && t.all (fun e => decide (e.2 ≠ d e.1))

/-- Stable insertion of a value into a list ordered by a key. -/
def insertBy {α : Type} (key : α → Nat) (x : α) : List α → List α
  | [] => [x]
  | y :: ys => if key x < key y then x :: y :: ys else y :: insertBy key x ys

/-- A stable sort by a key, ascending. -/
def sortBy {α : Type} (key : α → Nat) : List α → List α
  | [] => []
  | x :: xs => insertBy key x (sortBy key xs)

/-- The element with the least key; of equal keys, the first. -/
def leastBy {α : Type} (key : α → Nat) : List α → Option α
  | [] => none
  | x :: xs => match leastBy key xs with
    | none => some x
    | some y => if key y < key x then some y else some x

/-- Replace the element at a position. -/
def setAt {α : Type} : List α → Nat → α → List α
  | [], _, _ => []
  | _ :: xs, 0, v => v :: xs
  | x :: xs, n + 1, v => x :: setAt xs n v

/-- The sum of a list of numbers. -/
def sumNat : List Nat → Nat
  | [] => 0
  | x :: xs => x + sumNat xs

/-- ⌈a ÷ b⌉. -/
def ceilDiv (a b : Nat) : Nat := (a + b - 1) / b

end Sys2Proof.Machine
end

