-- ==== Sys2Proof/Machine/Regs.lean ====
section
/-! DEFINITION. The register map of the node: every block table of the spec, with each register's offset, access code,
writable bits and reset value (00 R11–R17). -/

namespace Sys2Proof.Machine

/-- The register blocks of the node, one per block table. -/
inductive Block where
  | tide                     -- 02 Table 2-9
  | core (c : Nat)           -- 04 Table 4-10
  | mxe (c e : Nat)          -- 05 Table 5-9
  | fle (c : Nat)            -- 06 Table 6-14
  | sv (c : Nat)             -- 08 Table 8-14
  | svd (d : Nat)            -- 08 Table 8-15
  | regionTable              -- 10 Table 10-9
  | stack (s : Nat)          -- 10 Table 10-10
  | port (p : Nat)           -- 11 Table 11-13
  | router                   -- 11 Table 11-14
  | routeTable               -- 11 R298 and the replication table
  | quay (q : Nat)           -- 12 Table 12-10
  | calendar (q : Nat)       -- 12 Table 12-11
  | collective (q : Nat)     -- 13 Table 13-14
  | harbour                  -- 14 Table 14-10
  | hub                      -- 15 Table 15-7
  | boot                     -- 17 Table 17-9
  | power                    -- 18 Table 18-9
  deriving DecidableEq, Repr

/-- The window of a die (00 R11): CD0–CD3 0–3, PD 4, FD0 5, FD1 6. -/
def dieWindow (d : Nat) : Nat := 0x0E00_0000_0000 + d * 0x400_0000

/-- The address of the block of a core (04 Registers): local core c of its CD. -/
def coreBase (c : Nat) : Nat := dieWindow (c / 64) + 0x80_0000 + (c % 64) * 0x1_0000

/-- The address of a block. -/
def blockBase : Block → Nat
  | .tide => dieWindow 5 + 0x20_0000
  | .core c => coreBase c
  | .mxe c e => coreBase c + 0x1000 + e * 0x100
  | .fle c => coreBase c + 0x1200
  | .sv c => coreBase c + 0x1300
  | .svd d => dieWindow d + 0xC0_0000
  | .regionTable => dieWindow 4 + 0x10_0000
  | .stack s => dieWindow (s / 3) + 0x100_0000 + (s % 3) * 0x1_0000
  | .port p => dieWindow (5 + p / 8) + 0x40_0000 + (p % 8) * 0x1000
  | .router => dieWindow 5 + 0x80_0000
  | .routeTable => dieWindow 5 + 0x100_0000
  | .quay q => dieWindow (5 + q) + 0xC0_0000
  | .calendar q => dieWindow (5 + q) + 0xC2_0000
  | .collective q => dieWindow (5 + q) + 0xC8_0000
  | .harbour => dieWindow 4 + 0x30_0000
  | .hub => dieWindow 4 + 0x20_0000
  | .boot => dieWindow 4 + 0x40_0000
  | .power => dieWindow 4 + 0x50_0000

/-- One row of a block table: `n` registers at `off`, `off + stride`, …; the bits a write changes (RW or RWS), the
bits a 1 clears, the bits a read clears, whether the row is RWS, its reset value, and whether a write to it has a row
of its own in the opcode table or is write-only. -/
structure RegRow where
  off    : Nat
  stride : Nat := 8
  n      : Nat := 1
  wm     : Nat := 0
  w1c    : Nat := 0
  rc     : Nat := 0
  rws    : Bool := false
  reset  : Nat := 0
  own    : Bool := false
  deriving DecidableEq, Repr

/-- CFG_REJECT and CFG_COMMIT stand at one pair of offsets in every block but the core, MXE, FLE and SV blocks. -/
def commitRows (reject commit : Nat) : List RegRow :=
  [{ off := reject, w1c := 1 }, { off := commit, own := true }]

/-- All ones in the low `n` bits. -/
def ones (n : Nat) : Nat := 2 ^ n - 1

/-- The rows of each block's table. -/
def blockRows : Block → List RegRow
  | .tide =>
    [{ off := 0x000 }, { off := 0x008 }, { off := 0x010, wm := 0xF3_FFF3, rws := true },
     { off := 0x018, w1c := 0x3F }, { off := 0x020, wm := ones 32, own := true }, { off := 0x028 },
     { off := 0x030, wm := ones 32, rws := true }, { off := 0x038, wm := ones 64, rws := true },
     { off := 0x040, wm := ones 32, rws := true }, { off := 0x048, wm := ones 16, rws := true, reset := 0x64 },
     { off := 0x050 }, { off := 0x058, w1c := 2 ^ 63 },
     { off := 0x100, n := 16, wm := ones 16, rws := true },
     { off := 0x200, n := 16, wm := ones 64 }, { off := 0x280, wm := ones 32 }, { off := 0x288, w1c := ones 16 },
     { off := 0x300, n := 4, wm := 0xFFFF_007F }, { off := 0x320, w1c := 0xF },
     { off := 0x1_0000, n := 16384, own := true }] ++ commitRows 0x0F0 0x0F8
  | .core _ =>
    [{ off := 0x000, wm := 3, own := true }, { off := 0x008, reset := 2 },
     { off := 0x010, wm := 0x3F_3F3F, rws := true, reset := 0x14_0C0C }, { off := 0x018, wm := ones 22, reset := 0x2C_0000 },
     { off := 0x020, wm := 0xFFFF_FFFF_0000_001F }, { off := 0x028, wm := 0x3F0F }, { off := 0x030, w1c := 0x3F0F },
     { off := 0x040, n := 16, wm := ones 32 },
     { off := 0x100, stride := 0x40, n := 6, wm := ones 22, rws := true },
     { off := 0x108, stride := 0x40, n := 6, wm := 0xF, rws := true },
     { off := 0x110, stride := 0x40, n := 6, wm := ones 16, own := true }, { off := 0x118, stride := 0x40, n := 6 },
     { off := 0x120, stride := 0x40, n := 6, w1c := 0xC0 }, { off := 0x128, stride := 0x40, n := 6 },
     { off := 0x130, stride := 0x40, n := 6, own := true }, { off := 0x138, stride := 0x40, n := 6, own := true },
     { off := 0x280, n := 2, rc := ones 64 }, { off := 0x290, n := 2, wm := ones 64 }] ++ commitRows 0x2F0 0x2F8
  | .mxe _ _ =>
    [{ off := 0x00, wm := 7, rws := true, reset := 4 }, { off := 0x08 }, { off := 0x10, wm := ones 64 },
     { off := 0x18, rc := ones 64 }, { off := 0x20, n := 5 }] ++ commitRows 0xF0 0xF8
  | .fle _ =>
    [{ off := 0x00, wm := 5, rws := true, reset := 5 }, { off := 0x08, reset := 0xF_0000 }, { off := 0x10, wm := ones 64 },
     { off := 0x18, rc := ones 64 }, { off := 0x20, n := 4 }] ++ commitRows 0xF0 0xF8
  | .sv _ =>
    [{ off := 0x00, wm := 0x1F01, rws := true, reset := 0xC01 }, { off := 0x08 },
     { off := 0x10, wm := 0x3FFF_07FF_001F, own := true }, { off := 0x18, n := 6 }] ++ commitRows 0xF0 0xF8
  | .svd _ =>
    [{ off := 0x000 }, { off := 0x100, stride := 0x40, n := 8, wm := ones 48, rws := true },
     { off := 0x108, stride := 0x40, n := 8, wm := 0xF, rws := true },
     { off := 0x110, stride := 0x40, n := 8, wm := ones 16, own := true },
     { off := 0x118, stride := 0x40, n := 8 }, { off := 0x120, stride := 0x40, n := 8 },
     { off := 0x128, stride := 0x40, n := 8, w1c := 0xC }] ++ commitRows 0x0F0 0x0F8
  | .regionTable =>
    [{ off := 0x000 }, { off := 0x008, n := 5 }, { off := 0x1000, n := 288, wm := 0x1_FF0D, rws := true }]
      ++ commitRows 0x0F0 0x0F8
  | .stack _ =>
    [{ off := 0x000, wm := 0x1_FF07, rws := true, reset := 0x1_1804 }, { off := 0x008 }, { off := 0x010 },
     { off := 0x100, stride := 0x40, n := 16 }, { off := 0x108, stride := 0x40, n := 16, rc := ones 32 },
     { off := 0x110, stride := 0x40, n := 16, rc := ones 32 }, { off := 0x118, stride := 0x40, n := 16, w1c := 2 ^ 63 },
     { off := 0x120, stride := 0x40, n := 16 }, { off := 0x128, stride := 0x40, n := 16 },
     { off := 0x130, stride := 0x40, n := 16 }, { off := 0x138, stride := 0x40, n := 16 },
     { off := 0x1000, stride := 0x80, n := 16, wm := 0xFF7E, reset := 0x100, own := true },
     { off := 0x1008, stride := 0x80, n := 16, wm := 0x7FFF_FF00 }, { off := 0x1010, stride := 0x80, n := 16, wm := 0x7FFF_FF00 },
     { off := 0x1018, stride := 0x80, n := 16, wm := ones 64 },
     { off := 0x1020, stride := 0x80, n := 16, wm := ones 17, reset := 0x1000 },
     { off := 0x1028, stride := 0x80, n := 16 }, { off := 0x1030, stride := 0x80, n := 16 },
     { off := 0x1038, stride := 0x80, n := 16 }] ++ commitRows 0x0F0 0x0F8
  | .port p =>
    [{ off := 0x000, wm := if p = 15 then 0xFF_0F3F else 0xFF_0F1F, rws := true, reset := 0xFF_0101 }, { off := 0x008 }, { off := 0x010, own := true },
     { off := 0x018, wm := 0xFFFF_FFFF_FFFF_00FF, reset := 0x1020_2060_4040_000A },
     { off := 0x020, wm := ones 64, rws := true, reset := 0x0808_080C_0C0C_0004 },
     { off := 0x028, wm := 0xFFFF_FFF0_0000, rws := true }, { off := 0x030, wm := ones 60, rws := true },
     { off := 0x038 }, { off := 0x040 }, { off := 0x048, w1c := 0x7F }, { off := 0x050, n := 4 },
     { off := 0x100, n := 24 }, { off := 0x1C0, n := 8, rc := 0xFFFF_FFFF_0000_0000 }] ++ commitRows 0x0F0 0x0F8
  | .router =>
    [{ off := 0x000, wm := 1, own := true }, { off := 0x008, wm := ones 16, rws := true, reset := 0x7D0 },
     { off := 0x010, wm := ones 18, rws := true }, { off := 0x018, wm := ones 11, rws := true },
     { off := 0x020, wm := 0x7F7F_7F7F_7F7F_7F7F, rws := true }, { off := 0x028, w1c := 2 ^ 63 },
     { off := 0x040, n := 5, rc := ones 32 }, { off := 0x1000, n := 512, wm := 0x3_FFFF_0003_FFFF, rws := true },
     { off := 0x2000, n := 256, wm := 0x3_FFFF_0003_FFFF, rws := true },
     { off := 0x1_0000, n := 1024, wm := ones 64, own := true }] ++ commitRows 0x0F0 0x0F8
  | .routeTable =>
    [{ off := 0x0, n := 262144, wm := 0x0FFF_FFFF_0FFF_FFFF, own := true }, { off := 0x80_0000, n := 65536, wm := ones 64 }]
  | .quay _ =>
    [{ off := 0x000, wm := 0xFFFF_0007_FFFF, rws := true, reset := 0x4E20 }, { off := 0x008 },
     { off := 0x010, wm := 0xFFFF_FF00_0000, rws := true }, { off := 0x018, wm := 0xFFFF_FFFF_F000, rws := true },
     { off := 0x020, wm := ones 19, rws := true }, { off := 0x028, own := true }, { off := 0x030 },
     { off := 0x038, w1c := 0xFF }, { off := 0x040, w1c := 2 ^ 63 }, { off := 0x048, own := true },
     { off := 0x100, n := 12 }, { off := 0x1_0000, stride := 0x20, n := 1024, wm := ones 48 },
     { off := 0x1_0008, stride := 0x20, n := 1024, wm := ones 41 },
     { off := 0x1_0010, stride := 0x20, n := 1024, wm := 0x87_FFFF }, { off := 0x1_0018, stride := 0x20, n := 1024 }]
      ++ commitRows 0x0F0 0x0F8
  | .calendar _ =>
    [{ off := 0x000, n := 8, wm := 0x7F, rws := true },
     { off := 0x8000, n := 16384, wm := 0x8003_FFFF_8003_FFFF, rws := true }] ++ commitRows 0x0F0 0x0F8
  | .collective _ =>
    [{ off := 0x000, wm := 0xFFFF_FFFF_0000, rws := true }, { off := 0x008 }, { off := 0x010, own := true }, { off := 0x018 },
     { off := 0x020, wm := 0xFFF }, { off := 0x028, n := 4 }, { off := 0x048, wm := ones 64 },
     { off := 0x050, rc := ones 32 }, { off := 0x058, w1c := 2 ^ 63 }, { off := 0x060, rc := ones 32 },
     { off := 0x1_0000, n := 1024, wm := 0x8000_FFFF }, { off := 0x10_0000, n := 65536, wm := ones 32 }]
      ++ commitRows 0x0F0 0x0F8
  | .harbour => [{ off := 0x00 }, { off := 0x08 }, { off := 0x10 }]
  | .hub =>
    [{ off := 0x000, w1c := 2 }, { off := 0x008, wm := 0x7F }, { off := 0x010 }, { off := 0x1000, n := 64, wm := 3, rws := true },
     { off := 0x1400, n := 64 }, { off := 0x2000, stride := 0x20, n := 468 },
     { off := 0x2008, stride := 0x20, n := 468, wm := 0xFFFF_00FF_3FFF, rws := true, reset := 0x0E10_0008_0032 },
     { off := 0x2010, stride := 0x20, n := 468 }, { off := 0x2018, stride := 0x20, n := 468 },
     { off := 0x8000, n := 1024 }] ++ commitRows 0x0F0 0x0F8
  | .boot => [{ off := 0x000 }, { off := 0x008 }, { off := 0x040, n := 9 }, { off := 0x100, n := 36 }]
  | .power =>
    [{ off := 0x000, reset := 0x4001 }, { off := 0x008, w1c := 0x3F }, { off := 0x010, n := 3 }, { off := 0x028 },
     { off := 0x030, wm := ones 32, rws := true }, { off := 0x040, n := 4 }, { off := 0x080, n := 11 }]
      ++ commitRows 0x0F0 0x0F8

/-- The row that holds an offset, and the register's index in it. -/
def rowAt : List RegRow → Nat → Option (RegRow × Nat)
  | [], _ => none
  | r :: rs, off =>
    if r.off ≤ off ∧ (off - r.off) % r.stride = 0 ∧ (off - r.off) / r.stride < r.n
    then some (r, (off - r.off) / r.stride) else rowAt rs off

/-- The offset of a block's CFG_COMMIT, where it has one. -/
def commitOff : Block → Option Nat
  | .core _ => some 0x2F8
  | .mxe _ _ | .fle _ | .sv _ => some 0xF8
  | .routeTable | .harbour | .boot => none
  | _ => some 0x0F8

/-- The address of a block's CFG_COMMIT; the block's base where it has none. -/
def commitAddr (b : Block) : Nat := blockBase b + (commitOff b).getD 0

/-- The address of a block's CFG_REJECT. -/
def rejectAddr (b : Block) : Nat := commitAddr b - 8

/-- The block that an offset of a core's 64 KiB area falls in. -/
def coreBlockAt (c off : Nat) : Option (Block × Nat) :=
  if off < 0x1000 then some (.core c, off)
  else if off < 0x1100 then some (.mxe c 0, off - 0x1000)
  else if off < 0x1200 then some (.mxe c 1, off - 0x1100)
  else if off < 0x1300 then some (.fle c, off - 0x1200)
  else if off < 0x1400 then some (.sv c, off - 0x1300)
  else none

/-- The block and offset of an offset in a CD's window. -/
def cdBlockAt (d off : Nat) : Option (Block × Nat) :=
  if off < 0x80_0000 then none
  else if off < 0xC0_0000 then coreBlockAt (d * 64 + (off - 0x80_0000) / 0x1_0000) ((off - 0x80_0000) % 0x1_0000)
  else if off < 0xC1_0000 then some (.svd d, off - 0xC0_0000)
  else if off < 0x100_0000 then none
  else if off < 0x103_0000 then some (.stack (3 * d + (off - 0x100_0000) / 0x1_0000), (off - 0x100_0000) % 0x1_0000)
  else none

/-- The block and offset of an offset in the PD's window. -/
def pdBlockAt (off : Nat) : Option (Block × Nat) :=
  if off < 0x10_0000 then none
  else if off < 0x20_0000 then some (.regionTable, off - 0x10_0000)
  else if off < 0x30_0000 then some (.hub, off - 0x20_0000)
  else if off < 0x40_0000 then some (.harbour, off - 0x30_0000)
  else if off < 0x50_0000 then some (.boot, off - 0x40_0000)
  else if off < 0x60_0000 then some (.power, off - 0x50_0000)
  else none

/-- The block and offset of an offset in the window of FD `f`; the router block is reached at the same offset of both
(11 Registers), the tide block and the route table on FD0 only. -/
def fdBlockAt (f off : Nat) : Option (Block × Nat) :=
  if off < 0x20_0000 then none
  else if off < 0x40_0000 then (if f = 0 then some (.tide, off - 0x20_0000) else none)
  else if off < 0x40_8000 then some (.port (8 * f + (off - 0x40_0000) / 0x1000), (off - 0x40_0000) % 0x1000)
  else if off < 0x80_0000 then none
  else if off < 0xC0_0000 then some (.router, off - 0x80_0000)
  else if off < 0xC2_0000 then some (.quay f, off - 0xC0_0000)
  else if off < 0xC8_0000 then some (.calendar f, off - 0xC2_0000)
  else if off < 0x100_0000 then some (.collective f, off - 0xC8_0000)
  else if off < 0x200_0000 then (if f = 0 then some (.routeTable, off - 0x100_0000) else none)
  else none

/-- The block and offset of an address of the control windows (00 R11). -/
def blockAt (addr : Nat) : Option (Block × Nat) :=
  let d := (addr - 0x0E00_0000_0000) / 0x400_0000
  let off := (addr - 0x0E00_0000_0000) % 0x400_0000
  if addr < 0x0E00_0000_0000 then none
  else if d < 4 then cdBlockAt d off
  else if d = 4 then pdBlockAt off
  else if d < 7 then fdBlockAt (d - 5) off
  else none

/-- An address lies in the control windows of the seven dies. -/
def inControl (addr : Nat) : Bool := decide (0x0E00_0000_0000 ≤ addr) && decide (addr ≤ 0x0E00_1BFF_FFFF)

/-- A register found by its 8-byte-aligned address: its block, its offset, its row and its index in the row. -/
structure RegAt where
  block : Block
  off   : Nat
  row   : RegRow
  idx   : Nat
  deriving DecidableEq, Repr

/-- The register listed at an 8-byte-aligned address, if any (00 R12). -/
def regAt (addr : Nat) : Option RegAt :=
  match blockAt addr with
  | none => none
  | some (b, off) => match rowAt (blockRows b) off with
    | none => none
    | some (r, i) => some { block := b, off := off, row := r, idx := i }

/-- The one home of a register: its address by its block, so that the router's two windows name one register. -/
def RegAt.key (r : RegAt) : Nat := blockBase r.block + r.off

/-- The fault class of a source code (15 Table 15-2): 1 CE, 2 UCC, 3 FAT, 0 for a reserved code. -/
def sourceClass (s : Nat) : Nat :=
  if [0x01, 0x04, 0x08, 0x10, 0x18, 0x21, 0x30, 0x31].contains s then 1
  else if [0x02, 0x03, 0x06, 0x09, 0x0A, 0x0B, 0x11, 0x19, 0x1A, 0x1B, 0x1C, 0x1D, 0x20, 0x28, 0x29].contains s then 2
  else if [0x05, 0x2A, 0x32, 0x33, 0x34, 0x35, 0x36, 0x37].contains s then 3
  else 0

/-- The reset value of FS_CFG_s (15 Table 15-7): LOG and NOTIFY 1 for UCC and FAT, LOG alone for TIDE_ADRIFT and VTC. -/
def fsCfgReset (s : Nat) : Nat :=
  let c := sourceClass s
  4 * c + (if c ≥ 2 then 3 else if s = 0x21 ∨ s = 0x30 then 1 else 0)

/-- The reset value of a register: its row's, but for the region table (10 R250), FS_CFG (15 Table 15-7) and the seeds
that on-die entropy draws. -/
def RegAt.resetValue (r : RegAt) : Word :=
  match r.block, r.off with
  | .regionTable, off => if 0x1000 ≤ off then BitVec.ofNat 64 ((r.idx / 72) * 4 + (r.idx % 72) * 256) else 0
  | .hub, off => if 0x1000 ≤ off ∧ off < 0x1400 then BitVec.ofNat 64 (fsCfgReset r.idx) else BitVec.ofNat 64 r.row.reset
  | .core _, off => if off = 0x290 ∨ off = 0x298 then Config.entropy r.key else BitVec.ofNat 64 r.row.reset
  | .mxe _ _, off => if off = 0x10 then Config.entropy r.key else BitVec.ofNat 64 r.row.reset
  | .fle _, off => if off = 0x10 then Config.entropy r.key else BitVec.ofNat 64 r.row.reset
  | .collective _, off => if off = 0x48 then Config.entropy r.key else BitVec.ofNat 64 r.row.reset
  | _, _ => BitVec.ofNat 64 r.row.reset

/-- What a register reads as while nothing is listed for it: its reset value; 0 at an address with no register. -/
def regDefault (addr : Nat) : Word := ((regAt addr).map RegAt.resetValue).getD 0

end Sys2Proof.Machine
end

