-- ==== Sys2Proof/Machine/Num.lean ====
section
/-! DEFINITION. Number formats, rounding, saturation, conversions and events (03). -/

namespace Sys2Proof.Machine

/-- A format word (03 Table 3-2). -/
structure Fmt where
  code : Nat
  frac : Nat
  rnd  : Nat
  sat  : Bool
  deriving DecidableEq, Repr

/-- The fields of a format word (03 R69). -/
def fmtOf (w : Nat) : Fmt :=
  { code := bits w 0 4, frac := bits w 4 6, rnd := bits w 10 3, sat := w.testBit 13 }

/-- A value with FMT `code`, FRAC 0, RNE and SAT 0. -/
def plainFmt (code : Nat) : Fmt := { code := code, frac := 0, rnd := 0, sat := false }

def FP32 : Fmt := plainFmt 0
def FP16 : Fmt := plainFmt 1

/-- Width in bits of a format (03 Table 3-1). -/
def fmtWidth : Nat → Nat
  | 0 => 32 | 1 => 16 | 2 => 16 | 3 => 8 | 4 => 8 | 5 => 64 | 6 => 32 | 7 => 16 | 8 => 32 | 9 => 16 | _ => 8

def Fmt.width (f : Fmt) : Nat := fmtWidth f.code
/-- Width in bytes. -/
def Fmt.size (f : Fmt) : Nat := f.width / 8
def Fmt.isFp (f : Fmt) : Bool := decide (f.code ≤ 4)
def Fmt.isFx (f : Fmt) : Bool := decide (5 ≤ f.code) && decide (f.code ≤ 7)
def Fmt.isInt (f : Fmt) : Bool := decide (8 ≤ f.code)
/-- The format is 8-bit floating-point: E4M3 or E5M2. -/
def Fmt.isFp8 (f : Fmt) : Bool := f.code == 3 || f.code == 4
/-- The two formats name one representation: same FMT and FRAC (03 R75). -/
def Fmt.same (f g : Fmt) : Bool := f.code == g.code && f.frac == g.frac

/-- Rounding modes that a result format allows (03 Table 3-6). -/
def rndAllowed (code rnd : Nat) : Bool :=
  rnd == 0 || rnd == 2 || (rnd == 1 && decide (5 ≤ code)) || (rnd == 3 && decide (1 ≤ code) && decide (code ≤ 4))

/-- A format word is no reserved encoding (03 R70). DEDUCED (log 61): RND 4–7 is reserved in a source's word too, whose RND is otherwise
ignored. -/
def fmtOk (w : Nat) (result : Bool) : Bool :=
  let f := fmtOf w
  decide (f.code ≤ 10) && (if f.isFx then decide (f.frac < f.width) else f.frac == 0) && decide (f.rnd ≤ 3) &&
    (!result || rndAllowed f.code f.rnd) && bits w 14 50 == 0

/-- Mantissa bits, exponent bias and largest finite code of a floating-point format (03 Tables 3-3, 3-4). -/
def fpMant : Nat → Nat
  | 0 => 23 | 1 => 10 | 2 => 7 | 3 => 3 | _ => 2
def fpBias : Nat → Nat
  | 0 => 127 | 1 => 15 | 2 => 127 | 3 => 7 | _ => 15
def fpMax : Nat → Nat
  | 0 => 0x7F7F_FFFF | 1 => 0x7BFF | 2 => 0x7F7F | 3 => 0x7E | _ => 0x7B
def fpNan : Nat → Nat
  | 0 => 0x7FC0_0000 | 1 => 0x7E00 | 2 => 0x7FC0 | 3 => 0x7F | _ => 0x7E
/-- Every floating-point format but E4M3 has infinities (03 R71). -/
def fpHasInf (code : Nat) : Bool := code != 3

/-- A value: NaN or FX-NaN, an infinity, or a sign and the magnitude n ÷ d (d > 0), zeros keeping their sign. -/
inductive Num where
  | nan
  | inf (neg : Bool)
  | fin (neg : Bool) (n d : Nat)
  deriving DecidableEq, Repr

def Num.isNan : Num → Bool
  | .nan => true
  | _ => false
def Num.isInf : Num → Bool
  | .inf _ => true
  | _ => false
def Num.isFin : Num → Bool
  | .fin _ _ _ => true
  | _ => false
def Num.negative : Num → Bool
  | .nan => false
  | .inf s => s
  | .fin s n _ => s && n != 0
def Num.isZero : Num → Bool
  | .fin _ n _ => n == 0
  | _ => false

/-- m × 2^e as a magnitude. -/
def scaled (neg : Bool) (m : Nat) (e : Int) : Num :=
  if 0 ≤ e then .fin neg (m * 2 ^ e.toNat) 1 else .fin neg m (2 ^ (-e).toNat)

/-- An integer as a value. -/
def ofInt (i : Int) : Num := .fin (decide (i < 0)) i.natAbs 1

/-- The value of a code (03 R71, R80). -/
def decodeNum (f : Fmt) (c : Nat) : Num :=
  if f.isFp then
    let mb := fpMant f.code
    let s := c.testBit (f.width - 1)
    let m := c % 2 ^ mb
    let e := bits c mb (f.width - 1 - mb)
    let top := 2 ^ (f.width - 1 - mb) - 1
    if e = top ∧ fpHasInf f.code then (if m = 0 then .inf s else .nan)
    else if f.code = 3 ∧ e = top ∧ m = 7 then .nan
    else if e = 0 then scaled s m (1 - (fpBias f.code : Int) - mb)
    else scaled s (2 ^ mb + m) ((e : Int) - fpBias f.code - mb)
  else if f.isFx then
    let i := toSigned f.width c
    if i = -(2 ^ (f.width - 1) : Nat) then .nan else .fin (decide (i < 0)) i.natAbs (2 ^ f.frac)
  else ofInt (toSigned f.width c)

/-- The NaN that a format gives as a result: canonical NaN, FX-NaN, or 0 for an integer (03 R75, R82, R510). -/
def nanCode (f : Fmt) : Nat := if f.isFp then fpNan f.code else if f.isFx then 2 ^ (f.width - 1) else 0

/-- An infinity of a floating-point format that has one. -/
def infCode (f : Fmt) (neg : Bool) : Nat :=
  (2 ^ (f.width - 1 - fpMant f.code) - 1) * 2 ^ fpMant f.code + (if neg then 2 ^ (f.width - 1) else 0)

/-- The largest finite code with a sign: ± largest finite, ±(2^(w−1) − 1) for FX, the ends of the range for INT. -/
def limitCode (f : Fmt) (neg : Bool) : Nat :=
  if f.isFp then fpMax f.code + (if neg then 2 ^ (f.width - 1) else 0)
  else if f.isFx then (if neg then 2 ^ (f.width - 1) + 1 else 2 ^ (f.width - 1) - 1)
  else (if neg then 2 ^ (f.width - 1) else 2 ^ (f.width - 1) - 1)

/-- Round the magnitude n ÷ d to an integer under a rounding mode; `r` is the 16-bit draw of SR (03 R84, R85). -/
def roundNat (rnd r n d : Nat) : Nat :=
  let q := n / d
  let m := n % d
  match rnd with
  | 0 => if d < 2 * m ∨ (2 * m = d ∧ q % 2 = 1) then q + 1 else q
  | 1 => if d ≤ 2 * m then q + 1 else q
  | 3 => if 65536 ≤ m * 65536 / d + r then q + 1 else q
  | _ => q

/-- ⌊log2 (n ÷ d)⌋ for n, d > 0. -/
def log2Quot (n d : Nat) : Int :=
  let e : Int := (n.log2 : Int) - d.log2
  if 0 ≤ e then (if n < d * 2 ^ e.toNat then e - 1 else e) else (if n * 2 ^ (-e).toNat < d then e - 1 else e)

/-- n ÷ (d × 2^e) as a numerator and a denominator. -/
def overPow (n d : Nat) (e : Int) : Nat × Nat :=
  if 0 ≤ e then (n, d * 2 ^ e.toNat) else (n * 2 ^ (-e).toNat, d)

/-- The exponent of the last place of a floating-point result of magnitude n ÷ d > 0 (03 R85). -/
def lastPlace (code n d : Nat) : Int :=
  max (log2Quot n d) (1 - (fpBias code : Int)) - fpMant code

/-- A result code with the events it counts (03 R509, R87). -/
structure Coded where
  code : Nat
  nans : Nat := 0
  sats : Nat := 0
  deriving DecidableEq, Repr

/-- Round a finite magnitude into a floating-point format (03 R86, R87). -/
def roundFp (f : Fmt) (r : Nat) (neg : Bool) (n d : Nat) : Coded :=
  let sign := if neg then 2 ^ (f.width - 1) else 0
  if n = 0 then { code := sign }
  else
    let lp := lastPlace f.code n d
    let nd := overPow n d lp
    let m := roundNat f.rnd r nd.1 nd.2
    let c := (lp + fpMant f.code + fpBias f.code - 1).toNat * 2 ^ fpMant f.code + m
    if fpMax f.code < c then
      { code := if fpHasInf f.code && !f.sat && f.rnd != 2 then infCode f neg else limitCode f neg, sats := 1 }
    else { code := sign + c }

/-- Round a finite value into a fixed-point format (03 R81). -/
def roundFx (f : Fmt) (r : Nat) (neg : Bool) (n d : Nat) : Coded :=
  let m := roundNat f.rnd r (n * 2 ^ f.frac) d
  if 2 ^ (f.width - 1) - 1 < m then { code := limitCode f neg, sats := 1 }
  else { code := ofSigned f.width (if neg then -(m : Int) else m) }

/-- Round a finite value into an integer format: clamped where `clamp`, else modular (03 R83, R86). -/
def roundInt (f : Fmt) (clamp : Bool) (r : Nat) (neg : Bool) (n d : Nat) : Coded :=
  let m := roundNat f.rnd r n d
  let i : Int := if neg then -(m : Int) else m
  if clamp && (decide (i < -(2 ^ (f.width - 1) : Nat)) || decide (((2 ^ (f.width - 1) - 1 : Nat) : Int) < i)) then
    { code := limitCode f neg, sats := 1 }
  else { code := ofSigned f.width i }

/-- Put a value that is no NaN into a format: the second half of every conversion (03 R86). -/
def place (f : Fmt) (clampInt : Bool) (r : Nat) : Num → Coded
  | .nan => { code := nanCode f, nans := 1 }
  | .inf neg => if f.isFp && fpHasInf f.code then { code := infCode f neg } else { code := limitCode f neg, sats := 1 }
  | .fin neg n d =>
    if f.isFp then roundFp f r neg n d else if f.isFx then roundFx f r neg n d else roundInt f clampInt r neg n d

/-- Conversion (03 R86). -/
def convert (src dst : Fmt) (r x : Nat) : Coded :=
  if src.same dst then { code := x % 2 ^ dst.width } else place dst true r (decodeNum src x)

/-- The result of an arithmetic operation in a format: `given` says that an operand or a contributing element is a NaN,
which is no event but where the result is an integer (03 R509, R510). -/
def arith (f : Fmt) (r : Nat) (given : Bool) (v : Num) : Coded :=
  if given then { code := nanCode f, nans := if f.isInt then 1 else 0 } else place f f.sat r v

/-! ## Exact arithmetic -/

/-- The sign of a sum that is exactly zero is negative only where both operands are (03 R73). -/
def Num.add : Num → Num → Num
  | .nan, _ => .nan
  | _, .nan => .nan
  | .inf a, .inf b => if a = b then .inf a else .nan
  | .inf a, _ => .inf a
  | _, .inf b => .inf b
  | .fin a n d, .fin b m e =>
    let c := if d % e = 0 then d else if e % d = 0 then e else d * e
    let x : Int := n * (c / d)
    let y : Int := m * (c / e)
    let z := (if a then -x else x) + (if b then -y else y)
    if z = 0 then .fin (a && b) 0 1 else .fin (decide (z < 0)) z.natAbs c

def Num.neg : Num → Num
  | .nan => .nan
  | .inf a => .inf (!a)
  | .fin a n d => .fin (!a) n d

def Num.abs : Num → Num
  | .nan => .nan
  | .inf _ => .inf false
  | .fin _ n d => .fin false n d

def Num.sub (x y : Num) : Num := x.add y.neg

def Num.mul : Num → Num → Num
  | .nan, _ => .nan
  | _, .nan => .nan
  | .inf a, .inf b => .inf (a != b)
  | .inf a, .fin b n _ => if n = 0 then .nan else .inf (a != b)
  | .fin a n _, .inf b => if n = 0 then .nan else .inf (a != b)
  | .fin a n d, .fin b m e => .fin (a != b) (n * m) (d * e)

def Num.div : Num → Num → Num
  | .nan, _ => .nan
  | _, .nan => .nan
  | .inf _, .inf _ => .nan
  | .inf a, .fin b _ _ => .inf (a != b)
  | .fin a _ _, .inf b => .fin (a != b) 0 1
  | .fin a n d, .fin b m e => if m = 0 then (if n = 0 then .nan else .inf (a != b)) else .fin (a != b) (n * e) (d * m)

/-- x < y as numbers, the zeros equal; false with a NaN (03 R77). -/
def Num.lt : Num → Num → Bool
  | .nan, _ => false
  | _, .nan => false
  | .inf a, .inf b => a && !b
  | .inf a, _ => a
  | _, .inf b => !b
  | .fin a n d, .fin b m e =>
    let x : Int := if a then -(n * e : Nat) else (n * e : Nat)
    let y : Int := if b then -(m * d : Nat) else (m * d : Nat)
    decide (x < y)

def Num.eq : Num → Num → Bool
  | .nan, _ => false
  | _, .nan => false
  | x, y => !x.lt y && !y.lt x

def Num.le (x y : Num) : Bool := x.lt y || x.eq y

/-- Maximum of two values that are no NaN: −0 is less than +0 (03 R76). -/
def Num.max (x y : Num) : Num :=
  match x, y with
  | .nan, _ => .nan
  | _, .nan => .nan
  | .fin a n _, .fin b m _ => if n = 0 ∧ m = 0 then (if a then y else x) else if x.lt y then y else x
  | _, _ => if x.lt y then y else x

/-- Minimum of two values that are no NaN: −0 is less than +0 (03 R76). -/
def Num.min (x y : Num) : Num := (x.neg.max y.neg).neg

/-- A sum of values, left to right. -/
def sumNum : List Num → Num := fun xs => xs.foldl Num.add (Num.fin false 0 1)

/-! ## Block scales (03 R89, R90) -/

/-- The largest finite value of an 8-bit format. -/
def fp8Max (code : Nat) : Nat := if code = 3 then 448 else 57344

/-- Round a positive magnitude toward +∞ to FP32. -/
def roundUp32 (n d : Nat) : Nat :=
  let lp := lastPlace 0 n d
  let nd := overPow n d lp
  let m := ceilDiv nd.1 nd.2
  let c := (lp + 149).toNat * 2 ^ 23 + m
  if 0x7F7F_FFFF < c then 0x7F80_0000 else c

/-- The FP32 scale of a block (03 R90). -/
def blockScale (code : Nat) (xs : List Num) : Nat :=
  let amax := (xs.filter Num.isFin).foldl (fun a x => a.max x.abs) (Num.fin false 0 1)
  match amax with
  | .fin _ n d => if n = 0 then 0x3F80_0000 else roundUp32 n (d * fp8Max code)
  | _ => 0x3F80_0000

/-- Narrow one value with a scale: v ÷ s under R86. -/
def narrowScaled (dst : Fmt) (scale : Nat) (r : Nat) (v : Num) : Coded :=
  place dst true r (v.div (decodeNum FP32 scale))

/-- Read one 8-bit code with its scale: q × s, rounded once (03 R90). DEDUCED (log 68): a scale of memory that is NaN, infinite or zero is a
factor like any other. -/
def widenScaled (src dst : Fmt) (scale : Nat) (r c : Nat) : Coded :=
  place dst true r ((decodeNum src c).mul (decodeNum FP32 scale))

end Sys2Proof.Machine
end

