-- ==== Sys2Proof/Machine/State.lean ====
section
/-! DEFINITION. The state of the node, as plain data: the registers by their addresses, the memories, and every queue,
buffer, counter and mode that the spec gives a unit behind its registers. A table of type `Tab` lists only the entries
that differ from their default. -/

namespace Sys2Proof.Machine

/-- No fault stops the model: every error of the spec is an effect of a command on the state. -/
inductive Fault where
  deriving DecidableEq, Repr

/-- Why the model has no answer. -/
inductive Refusal where
  /-- Raised by `exec` for a command that has no meaning yet; safe. -/
  | notModelled (mnemonic : String)
  deriving DecidableEq, Repr

/-! ## Core queues (04) -/

/-- An entry of a chain FIFO (04 R99): the chain's first address, and whether the solver dispatcher entered it, which
makes it a chain of one. -/
structure ChainEntry where
  addr       : Nat
  dispatcher : Bool := false
  deriving DecidableEq, Repr

/-- A write that a unit makes when its descriptor completes. -/
structure LateWrite where
  addr   : Nat
  data   : List Byte
  poison : Bool := false
  deriving DecidableEq, Repr

/-- The answer to a pump's tray-remote access (04 R113, 12 R339, R340): which access of the descriptor, the data of a read
with its poison, and whether it ended as dead or with ERROR. -/
structure PumpReply where
  key    : Nat
  write  : Bool := false
  data   : List Byte := []
  poison : Bool := false
  dead   : Bool := false
  error  : Bool := false
  deriving DecidableEq, Repr

/-- A descriptor in progress (04 R100): its address and bytes, the source it came from, the status its unit has ended
with, once it has, and the writes left for its completion. -/
structure Running where
  addr   : Nat
  desc   : List Byte
  ring   : Bool
  alone  : Bool := false
  done   : Option Nat := none
  writes : List LateWrite := []
  /-- Pump: answers to tray-remote accesses; whether its reads are done and `writes` holds what is left to write; the status
  it will end with (04 R113). -/
  remote : List PumpReply := []
  moved  : Bool := false
  code   : Nat := 0
  deriving DecidableEq, Repr

/-- A halted descriptor (04 R104): whether its bytes were fetched, and where it came from. -/
structure Halted where
  addr    : Nat
  fetched : Bool
  ring    : Bool
  last    : Bool
  alone   : Bool := false
  deriving DecidableEq, Repr

/-- A core queue behind its registers (04 R98–R104). -/
structure QueueRun where
  /-- The chain FIFO, at most four entries, oldest first (04 R99). -/
  chains   : List ChainEntry := []
  /-- The harbourmaster's reserved slot (04 R99). -/
  reserved : Option Nat := none
  /-- The next descriptor of the chain being run (04 R99). -/
  next     : Option ChainEntry := none
  /-- Descriptors in progress, in queue order (04 R100). -/
  running  : List Running := []
  halted   : Option Halted := none
  /-- A descriptor that RESUME runs again and that has not started yet: it comes before every other (04 R100, R104). -/
  again    : Option Halted := none
  deriving DecidableEq, Repr

/-! ## Harts and PD caches (07) -/

/-- A hart: the integer registers and the registers that Xkmlv and the traps of chapter 07 touch (07 R174–R201). -/
structure Hart where
  x        : Tab Word := []
  pc       : Word := 0
  priv     : Nat := 3
  mstatus  : Word := 0
  mtvec    : Word := 0
  mepc     : Word := 0
  mcause   : Word := 0
  mtval    : Word := 0
  medeleg  : Word := 0
  mideleg  : Word := 0
  stvec    : Word := 0
  sepc     : Word := 0
  scause   : Word := 0
  stval    : Word := 0
  satp     : Word := 0
  menvcfg  : Word := 0
  senvcfg  : Word := 0
  /-- pmpaddr0–15 at 0–15, pmpcfg0 and pmpcfg2 at 16 and 17 (07 R175). -/
  pmp      : Tab Word := []
  lvl      : Word := 0
  lvstart  : Word := 0
  lvfmt    : Word := 0
  lvstr0   : Word := 0
  lvstr1   : Word := 0
  lvacc0   : Word := 0
  lvacc1   : Word := 0
  lvev     : Word := 0
  lvstat   : Word := 0
  /-- The floating-point registers, narrower values boxed, and fcsr: fflags in bits 4–0, frm in 7–5 (07 Table 7-1). -/
  f        : Tab Word := []
  fcsr     : Word := 0
  /-- The short-vector registers of VLEN bits, vl, vtype, vstart, and vcsr: vxsat in bit 0, vxrm in 2–1 (07 R179–R182). -/
  v        : Tab Nat := []
  vl       : Word := 0
  vtype    : Word := BitVec.ofNat 64 (2 ^ 63)
  vstart   : Word := 0
  vcsr     : Word := 0
  /-- LR's reservation: the block, and its bytes as LR found them (07 R178). -/
  reserved : Option (Nat × List Byte) := none
  /-- Instructions retired, and what a write of mcycle has added to the clock's count (07 R176). -/
  instret  : Word := 0
  cycleOff : Word := 0
  mie      : Word := 0
  mscratch : Word := 0
  sscratch : Word := 0
  /-- mcounteren, scounteren, mcountinhibit at 0–2 and mhpmevent3–10 at 3–10 (07 Table 7-1). -/
  counters : Tab Word := []
  /-- The machine external interrupt is pending: BERTH (14 R384) and a rung bell (14 R386). -/
  berthIrq : Bool := false
  bellIrq  : Bool := false
  /-- A machine-check interrupt is pending (15 PD_UE); no row of the table reports that error. -/
  checkIrq : Bool := false
  deriving DecidableEq, Repr

/-- Thousandths of a cycle that the arithmetic clock and the PD clock have counted (07 R176, 00 R8). -/
structure Cycles where
  arith : Nat := 0
  pd    : Nat := 0
  deriving DecidableEq, Repr

/-- A 64-byte block held in the PD caches (07 R183). -/
structure CacheBlock where
  data   : List Byte := List.replicate 64 0
  dirty  : Bool := false
  poison : Bool := false
  /-- The caches hold the block. -/
  valid  : Bool := false
  deriving DecidableEq, Repr

/-! ## Matrix engine (05) -/

/-- A tile of B in a weight register (05 R119): for each row of K the elements of its columns, code and poison. -/
abbrev MxTile := List (List (Nat × Bool))

/-- The weight register and the weight shadow register of an MXE (05 R119, R120). -/
structure MxWeights where
  weight : MxTile := []
  shadow : MxTile := []
  deriving DecidableEq, Repr

/-! ## Solver engine (08) -/

/-- An iterate of an iterative method: its residual, the saturation events up to it, and its codes (08 R220). -/
structure Iterate where
  resid : Nat
  sats  : Nat
  x     : List Nat
  deriving DecidableEq, Repr

/-- The register file of a lane: V0 the column being updated, V1 the right-hand side and solution, V2 the pivot reciprocals in their
internal form, V3 the original right-hand side, and the pivot index list, each of 64 entries (08 R205, R215). -/
structure LaneRegs where
  v0     : List Nat := List.replicate 64 0
  v1     : List Nat := List.replicate 64 0
  v2     : List Num := List.replicate 64 (.fin false 0 1)
  v3     : List Nat := List.replicate 64 0
  pivots : List Nat := List.replicate 64 0
  deriving DecidableEq, Repr

/-- A problem that an SV lane holds, with what the lane has computed for it: the fields of its result record and its
solution (08 Table 8-7). -/
structure Solved where
  status : Nat
  flags  : Nat := 0
  iters  : Nat := 0
  resid  : Nat := 0
  sats   : Nat := 0
  pivot  : Nat := 0
  x      : List Nat
  poison : Bool := false
  /-- Iterative methods: the iterates in order, the initial guess first (08 R220). -/
  trail  : List Iterate := []
  /-- Direct methods: the saturation events and the smallest pivot after each step of the solve (08 Table 8-7). -/
  steps  : List (Nat × Nat) := []
  /-- The words that the lane image is left with, and what the lane registers are left with (08 R204, R205). -/
  image  : List Nat := []
  regs   : LaneRegs := {}
  /-- The input check of R217 stopped the problem. -/
  unsolved : Bool := false
  deriving DecidableEq, Repr

/-- A segment loaded into the other half of the lane image while the lanes work (08 R206). -/
structure Ahead where
  first    : Nat
  segment  : List Solved
  stopped  : Bool := false
  deriving DecidableEq, Repr

/-- An SV descriptor in progress on a core (08 R202–R235); no lanes where none has started. -/
structure SvRun where
  /-- The lanes L fixed for the batch, and whether overlap is in use (08 R206). -/
  lanes    : Nat := 0
  overlap  : Bool := false
  /-- The core waits for FLAGS.ADMITTED (08 R213). -/
  waiting  : Bool := false
  /-- The segment held: its first problem, and what each lane computed. -/
  first    : Nat := 0
  segment  : List Solved := []
  holding  : Bool := false
  stopped  : Bool := false
  /-- The segment held lies in the upper half of the lane image; the segment loaded ahead of it into the other half; a claim has
  found no problem left (08 R206, R213). -/
  upper    : Bool := false
  ahead    : Option Ahead := none
  noMore   : Bool := false
  /-- The lane registers, one file to a lane (08 R205). -/
  files    : List LaneRegs := []
  poison   : Bool := false
  /-- This core's update set COMPLETE, so that its completion sends the trigger add (08 R235). -/
  addDue   : Bool := false
  deriving DecidableEq, Repr

/-- Admitted engine work of the node (08 R227, 01 R34–R36): a batch with a deadline, until COMPLETE. -/
structure EngineWork where
  /-- The batch, by the address of its status word. -/
  status   : Nat
  deadline : Nat
  /-- The clock that admission took, in MHz. -/
  clock    : Nat
  tAdmit   : Nat
  /-- K, L, P, A0 and E of R227, with which R230 judges a move. -/
  crew     : Nat
  lanes    : Nat
  period   : Nat
  lead     : Nat
  tail     : Nat
  /-- Every promise has been voided (08 R231), but that of the problems kept, which a draining core held. -/
  allVoid  : Bool := false
  keeps    : List Nat := []
  /-- The promise of every problem from this index on has been voided by a move (08 R230). -/
  voidFrom : Nat := 65536
  deriving DecidableEq, Repr

/-- A solver ring slot between RING_RETIRED and RING_HEAD (08 R212, R233). -/
structure SolverSlot where
  addr     : Nat
  desc     : List Byte
  /-- Crew cores that the slot was entered for, those whose chain FIFO was full, and those that refused it. -/
  entered  : List Nat
  waiting  : List Nat
  refused  : List Nat := []
  /-- The batch's COMPLETE flag is set (08 R226), or every crew core refused it (08 R233). -/
  complete : Bool := false
  deriving DecidableEq, Repr

/-- A CD's solver dispatcher behind its registers (08 R212, R233). -/
structure Dispatcher where
  /-- The slots of ring r that are taken and not retired, oldest first, by ring. -/
  slots  : Tab (List SolverSlot) := []
  /-- Batches handed over for closing, by their descriptors. -/
  closes : List (List Byte) := []
  deriving DecidableEq, Repr

/-! ## Memory channels (10) -/

/-- An HBM access waiting at a channel (10 R263). -/
structure HeldAccess where
  write  : Bool
  addr   : Nat
  bytes  : Nat
  data   : List Byte := []
  poison : Bool := false
  /-- The access is of the high-priority class (10 R255). -/
  high   : Bool := false
  errors : List SectorErrors := []
  deriving DecidableEq, Repr

/-- A channel behind its registers (10 R253–R267). -/
structure Channel where
  held      : List HeldAccess := []
  /-- Each bank's open row plus 1, by 48 × pseudo-channel + bank; whether a pseudo-channel's last transfer was a write; and the channel-local
  addresses of the sectors in its write buffer, whose data the memory already holds (10 R254, R256, R257). -/
  rows      : Tab Nat := []
  writing   : Tab Bool := []
  wbuf      : Tab (List Nat) := []
  /-- The MC_CFG that the channel keeps since a commit's boundary found it not ACTIVE (10 R259). -/
  cfg       : Option Word := none
  /-- Per-bank refreshes issued (10 R258), and the next sector of the patrol scrubber (10 R262). -/
  refreshes : Nat := 0
  scrub     : Nat := 0
  /-- The tide at which the channel entered HELD (10 R266). -/
  heldFrom  : Nat := 0
  /-- CH_RECOVER has started the retraining of the FENCED channel (15 R416). -/
  recover   : Bool := false
  /-- Corrected errors of the hour that runs, and that hour (15 Table 15-6). -/
  ceHour    : Nat := 0
  hour      : Nat := 0
  deriving DecidableEq, Repr

/-! ## Links and routing (11) -/

/-- A packet (11 Table 11-9, 12 Table 12-6, 13 Table 13-8): the route header, the transport header and the payload. -/
structure Packet where
  htype   : Nat := 1
  vc      : Nat
  ovc     : Nat
  escDown : Bool := false
  phase   : Nat := 1
  rmode   : Nat := 1
  dst     : Nat
  src     : Nat
  via     : Nat := 0
  tag     : Nat
  ttl     : Nat := 63
  block   : Nat := 0
  mask    : Nat := 0
  tkind   : Nat
  last    : Bool := false
  guar    : Bool := false
  poison  : Bool := false
  retx    : Bool := false
  code    : Nat := 0
  step    : Nat := 0
  dq      : Nat := 0
  sq      : Nat := 0
  psn     : Nat := 0
  addr    : Nat := 0
  data    : Nat := 0
  payload : List Byte := []
  deriving DecidableEq, Repr

/-- A packet waiting at a router input or egress (11 R288, R303): the port it arrived on (16: the node's own quay), and since when it
stands at the front of its VC without credit. -/
structure Waiting where
  pkt      : Packet
  port     : Nat
  since    : Nat
  /-- The VC of the input buffer that its flits hold until it, or its last copy, has started (11 R289, R305); how many of them stand in
  the port's basin (11 R293); and whether an entry of that port into DOWN has voided their credits (11 R290). -/
  inVc     : Nat := 0
  inBasin  : Nat := 0
  void     : Bool := false
  /-- When its header arrived: the route-table bank then active (11 R299), and the cause of a drop at the boundary filter (11 R306). -/
  bank     : Nat := 0
  bad      : Option Nat := none
  /-- A copy of a multicast packet: the number that the copies of one packet share (11 R305). -/
  copy     : Option Nat := none
  /-- It takes no guaranteed share because it was rerouted (19 R504). -/
  weighted : Bool := false
  deriving DecidableEq, Repr

/-- A frame of a transmitter (11 R276): FSEQ, FIRST_HDR, its slots, how many packets start in it, and whether it begins inside one. -/
structure TxFrame where
  fseq     : Nat := 0
  firstHdr : Nat := 63
  slots    : List (List Byte) := []
  starts   : Nat := 0
  midway   : Bool := false
  deriving DecidableEq, Repr

/-- A port behind its registers (11 R274–R303). -/
structure PortRun where
  /-- Frames sent since training, whose low 12 bits are the next FSEQ; last FSEQ acknowledged by the peer; frames received, of which the low
  12 bits are the next FSEQ expected; a bad frame awaits its replay. -/
  txFrames : Nat := 0
  ackFseq  : Nat := 0
  rxFrames : Nat := 0
  nak      : Bool := false
  badRun   : Nat := 0
  /-- The frame that fills, the replay buffer (the frames sent and not acknowledged, oldest first, at most 512), and the frames to be sent
  again after a NAK (11 R274). -/
  filling  : TxFrame := {}
  replay   : List TxFrame := []
  resend   : List TxFrame := []
  /-- The last frame that left, and the symbols that it put on each lane (11 R276, R278). -/
  wire     : Option FrameBody := none
  symbols  : Tab (List Nat) := []
  /-- A packet partly received (11 R274, R285): its bytes, what its header met (bank and filter), its flits in the basin, and whether one of
  them read poisoned; and flits are skipped until the next header. -/
  partial_ : List Byte := []
  header   : Nat × Option Nat := (0, none)
  partDeep : Nat := 0
  partBad  : Bool := false
  resync   : Bool := false
  /-- Packets at the input, per VC in arrival order, packets queued for egress, and the number of the next multicast packet. -/
  input    : List Waiting := []
  egress   : List Waiting := []
  copies   : Nat := 0
  /-- Per VC: credits CR_v, flits sent, flits received, flits freed, FREED last seen. -/
  credits  : Tab Nat := []
  sent     : Tab Nat := []
  received : Tab Nat := []
  freed    : Tab Nat := []
  seen     : Tab Nat := []
  /-- Flits of each VC in the basin and on die (11 R293). -/
  basin    : Tab Nat := []
  onDie    : Tab Nat := []
  /-- Flits spilled to each VC's basin part, and flits filled from it, since training (11 R293); and the spill writes that wait for a channel,
  as address and data (11 R294). -/
  spilled  : Tab Nat := []
  filled   : Tab Nat := []
  spills   : List (Nat × List Byte) := []
  /-- Deficit counters of VC2–VC7 and the VC whose turn it is, the same of VC2 and VC3 in the guaranteed share, packet starts since the last
  of VC7, the VC0 token bucket, and the guaranteed flits of a calendar period (11 R288). -/
  deficit  : Tab Nat := []
  turn     : Nat := 2
  guarDef  : Tab Nat := []
  guarTurn : Nat := 2
  sinceEsc : Nat := 0
  bucket   : Nat := 4096
  bucketAt : Nat := 0
  guarUsed : Nat := 0
  period   : Nat := 0
  /-- The deficit counters of the groups that share VC4, in bytes by group, and by quay the group whose turn it is (13 R363). -/
  shares   : Tab Nat := []
  shareOf  : Tab Nat := []
  /-- TIDE: next SEQ, send stamps by SEQ in units of 2^-16 ns, last received SEQ and stamp, measured delay (11 R281, R282). -/
  txSeq    : Nat := 0
  stamps   : List (Nat × Nat) := []
  rxSeq    : Nat := 0
  rxStamp  : Nat := 0
  delay    : Int := 0
  rxTide   : Option (Nat × Nat × Nat) := none
  /-- The local time of the last valid tide ordered set (02 R52). -/
  validAt  : Nat := 0
  nextSlot : Nat := 0
  /-- The control slots: what the next one carries (CREDIT and AUDIT in turn), a HELLO that is due, SYNC exchanged. -/
  auditDue : Bool := false
  helloDue : Bool := false
  syncSent : Bool := false
  syncSeen : Bool := false
  /-- The last control slot sent, as its 32 bytes, and the last packet that started. -/
  control  : List Byte := []
  onWire   : Option Packet := none
  /-- Interface level the neighbour runs at is below MIN_OP, or it advertised zero capacity (17 R399, R464). -/
  limited  : Bool := false
  zeroCap  : Bool := false
  light    : Bool := false
  /-- Lanes being retuned (11 R286). -/
  retuning : List Nat := []
  /-- When the last training attempt began that has not led to UP (11 R284). -/
  tried    : Option Nat := none
  deriving DecidableEq, Repr

/-! ## Quays (12) -/

/-- An operation that a queue has started (12 R318–R334). -/
structure QuayOp where
  index    : Nat
  request  : List Byte
  /-- Submission instant t (12 R318). -/
  start    : Nat
  firstPsn : Nat
  endPsn   : Nat
  admitted : Bool := false
  void     : Nat := 0
  /-- Calendar slots booked: port, absolute slot, bytes (12 R329). -/
  slots    : List (Nat × Nat × Nat) := []
  port     : Nat := 0
  /-- Final status, stamp, result and poison, once the operation has ended. -/
  status   : Option Nat := none
  stamp    : Nat := 0
  tideQ    : Bool := false
  result   : Nat := 0
  poison   : Bool := false
  /-- Packets of the response received (GET), by PSN. -/
  got      : List Nat := []
  late     : Bool := false
  deriving DecidableEq, Repr

/-- A queue's transport state behind its context (12 R311–R326). -/
structure QuayQueue where
  /-- The context that the quay owns while the queue is not DISABLED: 128 bytes; none otherwise (12 R311). -/
  context  : List Byte := []
  /-- Operations started whose record is not written, in submission order. -/
  ops      : List QuayOp := []
  /-- Packets received ahead of RX_PSN, and since when a gap persists (12 R324). -/
  held     : List Packet := []
  gapFrom  : Option Nat := none
  /-- Fetched ATOMIC results kept for duplicates, by PSN (12 R324). -/
  kept     : List (Nat × Nat) := []
  /-- Packets not acknowledged yet, and the tide of the first. -/
  unacked  : Nat := 0
  ackFrom  : Option Nat := none
  /-- The stamp of the last request performed, for its ACK (12 R321). -/
  stamp    : Nat := 0
  /-- Retransmissions without progress, and the tide of the last progress. -/
  retries  : Nat := 0
  progress : Nat := 0
  /-- The tide of the first ungranted byte, and of the last GRANT (12 R325). -/
  freeFrom : Option Nat := none
  granted  : Nat := 0
  deriving DecidableEq, Repr

/-- Who waits for a tray response (12 R336). -/
inductive TrayOwner where
  | requester (s : Sender)
  | pump (core queue element : Nat)
  | hostBridge (pkt : Packet)
  /-- A reply of the harbourmaster, for the berth of another node, and since when it is due (14 R390). -/
  | reply (node berth : Nat) (msg : List Byte) (since : Nat)
  | node
  deriving DecidableEq, Repr

/-- An outstanding tray request (12 R336–R340). -/
structure TrayReq where
  id     : Nat
  owner  : TrayOwner
  target : Nat
  addr   : Nat
  kind   : Nat
  since  : Nat
  vc     : Nat
  quay   : Nat := 0
  size   : Nat := 8
  /-- DEAD_NS of the quay when the request started (12 R340, R341). -/
  deadNs : Nat := 0
  deriving DecidableEq, Repr

/-- What a requester's last access returned: a status (the model's own: 0 OK, 1 bus error, 2 ACCESS or
ERROR, 3 dead, 4 still waiting, 5 not taken for now) and data. -/
structure Answer where
  status : Nat := 0
  data   : List Byte := []
  poison : Bool := false
  deriving DecidableEq, Repr

/-! ## Collectives (13) -/

/-- A packet in staging, and the address of its payload in the staging area of its level (13 R362). -/
structure Staged where
  source  : Nat
  pkt     : Packet
  poison  : Bool
  addr    : Nat := 0
  deriving DecidableEq, Repr

/-- One step of a collective operation on this member (13 R356): level, phase, ring step, the slots that the ring refines,
peers as flat ranks, the element ranges sent and received. -/
structure CollStep where
  level  : Nat
  phase  : Nat
  step   : Nat
  path   : Nat
  toRank : Option Nat
  frRank : Option Nat
  send   : List (Nat × Nat)
  recv   : List (Nat × Nat)
  /-- First step of the all-gather of a ring: the owner replaces its part by its coded value (13 R357). -/
  first  : Bool := false
  deriving DecidableEq, Repr

/-- The request that a group runs (13 R355). -/
structure CollOp where
  index    : Nat
  request  : List Byte
  start    : Nat
  seq      : Nat
  /-- The steps left, the current one first; how many are done; the element ranges of the current one still to arrive. -/
  steps    : List CollStep := []
  done     : Nat := 0
  awaiting : List (Nat × Nat) := []
  /-- Class 1: admitted, the finish mark, the void cause and the booked slots (13 R366, R367). -/
  admitted : Bool := false
  finish   : Nat := 0
  void     : Nat := 0
  slots    : List (Nat × Nat × Nat) := []
  status   : Option Nat := none
  stamp    : Nat := 0
  tideQ    : Bool := false
  poison   : Bool := false
  /-- -v operations: ranks whose counts have not arrived; the received data does not fit (13 R353). -/
  counts   : List Nat := []
  counting : Bool := false
  mismatch : Bool := false
  /-- REDUCE_SCATTER: partial sums by element, with poison (13 R356, Table 13-7). -/
  sums     : Tab (Option (Nat × Bool)) := []
  deriving DecidableEq, Repr

/-- The time-driven part of a group's connection to one peer (13 R361, 12 R324, R325): retransmissions without progress; packets accepted and not
acknowledged; and the tides of the last progress, of the first packet not acknowledged, of the first byte freed and not granted, and of the last
C_GRANT. -/
structure GroupConn where
  retries  : Nat := 0
  progress : Nat := 0
  unacked  : Nat := 0
  ackFrom  : Option Nat := none
  freeFrom : Option Nat := none
  granted  : Option Nat := none
  deriving DecidableEq, Repr

/-- A group behind its context (13 R348–R370). -/
structure GroupRun where
  /-- The context that the quay owns while the group is not DISABLED: 256 bytes; none otherwise. -/
  context  : List Byte := []
  op       : Option CollOp := none
  staging  : List Staged := []
  /-- Chunks ready and waiting for a window: level, destination rank and packets (13 R361). -/
  ready    : List (Nat × Nat × List Packet) := []
  /-- Packets sent and not acknowledged, with their destination ranks, oldest first. -/
  inFlight : List (Nat × Packet) := []
  /-- Packets received ahead of RX_PSN (12 R324). -/
  held     : List Packet := []
  /-- Its connections, by the peer's rank. -/
  conns    : Tab GroupConn := []
  written  : Nat := 0
  deriving DecidableEq, Repr

/-- A trigger add on its way to its counter (13 R344). -/
structure TriggerAdd where
  counter : Nat
  inc     : Nat
  source  : Nat
  tag     : Nat := 0
  deriving DecidableEq, Repr

/-! ## Berths and the harbourmaster (14) -/

/-- A berth (14 R376–R384). -/
structure Berth where
  msgs       : List (List Byte) := []
  head       : Nat := 0
  owner      : Nat
  enable     : Bool
  aborted    : Bool := false
  noticeLost : Bool := false
  clearing   : Bool := false
  posted     : Nat := 0
  rejected   : Nat := 0
  discarded  : Nat := 0
  deriving DecidableEq, Repr

/-- A discarded message whose notice is due (14 R383): the berth, the owner, the cause, the tide and the message. -/
structure Discard where
  berth : Nat
  owner : Nat
  cause : Nat
  tide  : Nat
  msg   : List Byte
  deriving DecidableEq, Repr

/-- A reply that met a full berth (14 R390). -/
structure Reply where
  node  : Nat
  berth : Nat
  msg   : List Byte
  since : Nat
  last  : Nat
  deriving DecidableEq, Repr

/-- A long operation (14 R393–R395): the command message, its status word, and the units done and in all. -/
structure LongOp where
  msg    : List Byte
  opcode : Nat
  status : Nat
  done   : Nat
  total  : Nat
  start  : Nat
  detail : Nat := 0
  abort  : Bool := false
  /-- FW_STAGE: the image that passed its check; ATTEST: the report and the certificate. -/
  data   : List Byte := []
  deriving DecidableEq, Repr

/-- An accepted change whose mark has not come (01 R34, 18 R484): the mode or depth, FORCED, and the mark. -/
structure Marked where
  value  : Nat
  forced : Bool
  mark   : Nat
  msg    : List Byte := []
  deriving DecidableEq, Repr

/-- The harbourmaster behind its registers (14 R373–R395). -/
structure Harbour where
  /-- The command berth whose turn it is (14 R389). -/
  turn      : Nat := 0
  replies   : List Reply := []
  longOps   : List LongOp := []
  /-- Operations running when the harbourmaster was reset (14 R395). -/
  orphans   : List LongOp := []
  modes     : List Marked := []
  sleeps    : List Marked := []
  retrains  : List Marked := []
  /-- Accepted activations: value = image index (17 R457). -/
  activations : List Marked := []
  /-- CHECKPOINT requests of the schedule: plan address and dispatch tide (16 R425). -/
  requests  : List (Nat × Nat × Nat) := []
  inReset   : Bool := false
  /-- Tide-mark comparators that have signalled it (02 R65). -/
  signals   : BitVec 16 := 0
  /-- The kind-0 hold in force: commands wait until the mark (17 Table 17-4). -/
  hold      : Bool := false
  deriving DecidableEq, Repr

/-! ## Faults (15) -/

/-- A fault report on its way to the hub (15 R405). -/
structure Report where
  source : Nat
  domain : Option Nat
  detail : Nat
  tide   : Nat
  deriving DecidableEq, Repr

/-- A fault domain behind its registers (15 R413, R414): the start of its quiet period and the FAT and thermal sources
that named it and have not cleared. -/
structure Domain where
  quietFrom : Nat := 0
  /-- QUIET_MS as it was in force when the quiet period started. -/
  quietMs   : Nat := 50
  open_     : List (Nat × Nat) := []
  deriving DecidableEq, Repr

/-- Live counts of the lifetime record in PD SRAM (15 R420–R423), by offset of Table 15-6. -/
structure Lifetime where
  live    : List Host.Cell := []
  nvm     : List Host.Cell := []
  written : Nat := 0
  archive : Nat := 0
  deriving DecidableEq, Repr

/-! ## Checkpoint and restore (16) -/

/-- One FORM piece (16 R431): segment, first element, elements, the core that carries it. -/
structure Piece where
  segment : Nat
  first   : Nat
  count   : Nat
  chain   : Nat
  core    : Option Nat := none
  /-- The core on which its chain ended ABORTED. -/
  tried   : Option Nat := none
  done    : Bool := false
  deriving DecidableEq, Repr

/-- One destination's progress (16 R430, R435). -/
structure Destination where
  gen       : Nat := 0
  seq       : Nat := 1
  shipped   : Bool := false
  committed : Bool := false
  failed    : Bool := false
  header    : List Byte := []
  deriving DecidableEq, Repr

/-- The checkpoint that runs (16 R426, R430): its plan, status word, start mark and phase, 0 until it begins; the step at the start
mark; the FORM pieces; the bytes formed; the first cause met; whether no further piece is entered. -/
structure Checkpoint where
  plan     : List Byte := []
  planAt   : Nat
  status   : Nat
  mark     : Nat
  phase    : Nat := 0
  step     : Nat
  pieces   : List Piece := []
  formFrom : Nat := 0
  formedAt : Nat := 0
  formed   : Nat := 0
  cause    : Nat := 0
  noMore   : Bool := false
  dests    : List Destination := []
  events   : Nat := 0
  deriving DecidableEq, Repr

/-! ## Start-up and power (17, 18) -/

/-- One image instance (17 R454): its two banks' images, whether each holds a checked image. -/
structure ImageBank where
  bankA  : List Byte := []
  bankB  : List Byte := []
  checkA : Bool := false
  checkB : Bool := false
  /-- The non-volatile pointer to the active bank, 0 A or 1 B (17 R454). -/
  active : Nat := 0
  /-- 0 A, 1 B, 2 ROM default: the bank chosen at the start or confirmed since, and the bank that runs unconfirmed. -/
  boot   : Nat := 2
  trial  : Option Nat := none
  trialMark : Nat := 0
  deriving DecidableEq, Repr

/-- The boot and power parts behind their registers (17, 18). -/
structure Power where
  /-- Pins: POR_N, RESET_N, PWR_BRAKE_N, VR_ALERT_N, VR_FAULT_N, FAULT_SAFE_N, SLP_DEEP_N, MGMT_WAKE_N. -/
  porN       : Bool := false
  brakeN     : Bool := true
  alertN     : Bool := true
  vrFaultN   : Bool := true
  faultSafeN : Bool := true
  slpDeepN   : Bool := true
  vaon       : Bool := false
  /-- Sleep depth: 0 awake, 1 IDLE, 2 DOZE, 3 DEEP (01 Table 1-9), and the tide SLP_DEEP_N went low. -/
  depth      : Nat := 0
  deepFrom   : Nat := 0
  /-- A wake source held until the 30 ms of SLP_DEEP_N end (18 R486). -/
  wakeHeld   : Bool := false
  /-- The arithmetic clock in force, in MHz, and the PD ceiling in MHz (01 Table 1-4). -/
  clock      : Nat := 1000
  ceiling    : Nat := 2200
  /-- The setpoint written for each VDD_CD and for VDD_PD, in mV, and whether a transition waits for read-backs. -/
  setpoints  : Tab Nat := []
  waiting    : Bool := false
  /-- The samples of the last 100 periods in mW, newest first, and the samples in a row over the limit at D = 4 (18 R477). -/
  samples    : List Nat := []
  overRun    : Nat := 0
  /-- D stays at most 16 until every VDD_CD reads back at its EFF setpoint (18 R481). -/
  capped     : Bool := false
  cutUntil   : Option Nat := none
  overSince  : Option Nat := none
  retention  : List Byte := []
  straps     : BitVec 5 := 0
  deriving DecidableEq, Repr

/-- The PTP slave on the management port (02 R43): the two-step Sync whose Follow_Up is awaited, with its arrival; the
offset of the master's time from the local one on the way down, in ns; the Delay_Req that awaits its answer, with its
departure; and its next sequence number. -/
structure PtpSlave where
  sync     : Option (Nat × Nat) := none
  down     : Option Int := none
  asked    : Option (Nat × Nat) := none
  nextSeq  : Nat := 0
  deriving DecidableEq, Repr

/-- The tide unit behind its registers (02 R42–R55, 17 R466). -/
structure TideUnit where
  /-- The sum of the corrections made to the tide since VAON power-up, in ns: the local oscillator's count is the tide
  without them. -/
  adjusted   : Int := 0
  /-- The local times of the last slewed nanosecond and of the last used edge (02 R42, R52). -/
  lastSet    : Nat := 0
  lastPps    : Nat := 0
  estBase    : Nat := 0
  /-- EST_ERR grows from this local time on (02 R52). -/
  growFrom   : Option Nat := none
  /-- The offset that is left to correct, in units of 2^-16 ns, from the last measurement of a valid source (02 R42, R54). -/
  slew       : Option Int := none
  /-- The second that the last edge began, and the PTP slave that sets it (02 R43). -/
  second     : Nat := 0
  ptp        : PtpSlave := {}
  /-- TIDE_CTRL has been committed since reset: the automatic choice has ended (17 R466). -/
  committed  : Bool := false
  parent     : Nat := 0
  /-- Comparators whose mark the tide has reached since they were enabled (02 R65). -/
  reached    : BitVec 16 := 0
  deriving DecidableEq, Repr

/-- A schedule entry (02 R59): its four words, the STEP at which an EVERY_STEP entry last fired, and the tide from
which it can be seen due. -/
structure SchedEntry where
  w0    : Word := 0
  w1    : Word := 0
  w2    : Word := 0
  w3    : Word := 0
  fired : Option Nat := none
  seen  : Nat := 0
  deriving DecidableEq, Repr

/-- The state of the node. -/
structure State where
  /-- The commands that wait, first in, first out. -/
  pending  : List Instr := []
  /-- Registers: the value in force of each, by address; an unlisted register holds its reset value. -/
  regs     : Tab Word := []
  /-- The shadows of RWS registers: the last value written (00 R13, R14). -/
  shadow   : Tab Word := []
  /-- Captured values of each block whose commit has not reached its boundary (00 R14): by CFG_COMMIT address, the
  captured (register, value) pairs and the tide of the commit. -/
  commits  : Tab (Nat × List (Nat × Word)) := []
  /-- RWS registers written since the block's last CFG_COMMIT (02 R512). -/
  dirty    : Tab Bool := []
  /-- HBM, wells and cisterns by node physical address (10 R245); an unlisted byte reads 0 (17 R447). -/
  mem      : List Host.Cell := []
  /-- Poison marks: HBM sectors of 32 bytes (10 R261), well and cistern lines of 64 bytes (04 R511). -/
  poison   : Tab Bool := []
  /-- Channels that a poison refill has filled, by 192 × region + channel: their sectors read as poisoned but where marked
  otherwise (10 R267). -/
  refill   : Tab Bool := []
  /-- HBM regions whose contents a region-table commit left undefined (10 R251): one more than the draw of their free
  bytes. -/
  undef    : Tab Nat := []
  /-- Writes that take effect 100 ns later (11 R306, 12 R323): by register, the tides from which its values hold. -/
  lagged   : Tab (List (Nat × Word)) := []
  /-- Accumulator banks (05 R126): element 64 × row + column of engine (2 × core + e), 65536 to an engine,
  and poison marks of rows, 1024 to an engine. -/
  acc      : Tab (BitVec 32) := []
  accPoison : Tab Bool := []
  /-- The weight registers of engine 2 × core + e (05 R119). -/
  weights   : Tab MxWeights := []
  queues   : Tab QueueRun := []
  harts    : Tab Hart := []
  /-- lvseed of each hart (07 Table 7-8); an unlisted one holds the value that entropy drew. -/
  lvseed   : Tab Word := []
  cycles   : Cycles := {}
  caches   : Tab CacheBlock := []
  solvers  : Tab SvRun := []
  work     : List EngineWork := []
  dispatch : Tab Dispatcher := []
  channels : Tab Channel := []
  /-- HBM accesses held at the decoders until a region table is in force (10 R251). -/
  atDecoder : List HeldAccess := []
  ports    : Tab PortRun := []
  /-- Packets delivered to each quay by the router, in arrival order: quay and packet (11 R300). -/
  arrived  : List (Nat × Packet) := []
  /-- Packets that arrived on port 15 with HOST = 1 for the bridge (14 R387). -/
  hostIn   : List Packet := []
  quays    : Tab QuayQueue := []
  /-- Calendar bytes booked, by 16 × absolute slot + port (12 R327). -/
  booked   : Tab Nat := []
  tray     : List TrayReq := []
  trayNext : Nat := 0
  /-- Cached rank entries, by 2^19 × quay + rank (12 R335). -/
  ranks    : Tab Nat := []
  groups   : Tab GroupRun := []
  adds     : List TriggerAdd := []
  berths   : Tab Berth := []
  /-- Compose buffers, by sender code (14 R378). -/
  compose  : Tab (List Byte) := []
  /-- Bell words: cores 0–255, PD harts 256–319, harbourmaster 320 (14 R386). -/
  bells    : Tab Word := []
  discards : List Discard := []
  harbour  : Harbour := {}
  reports  : List Report := []
  domains  : Tab Domain := []
  life     : Lifetime := {}
  ckpt     : Option Checkpoint := none
  images   : Tab ImageBank := []
  /-- Fuses: revoked key slots and SVN_MIN of kinds 0–3 (17 R452, R453). -/
  revoked  : BitVec 4 := 0
  svnMin   : Tab Nat := []
  power    : Power := {}
  tide     : TideUnit := {}
  sched    : Tab SchedEntry := []
  /-- Actions dispatched in DOZE, held until the node is awake (02 R64). -/
  heldActs : List SchedEntry := []
  /-- The model's own: the answer to the last access, and the counter of free values drawn. -/
  answer   : Answer := {}
  draws    : Nat := 0
  deriving DecidableEq, Repr

/-- The node right after reset: every register at its reset value, memory zero, every queue empty, nothing waiting. -/
def State.reset : State := {}

end Sys2Proof.Machine
end

