-- ==== Sys2Proof/Machine/Ops.lean ====
section
/-! DEFINITION. The named operations over registers, memory, poison, answers, free values and fault reports. -/

namespace Sys2Proof.Machine

/-! ## Registers -/

/-- The value in force of the register at an address. -/
def State.getReg (s : State) (a : Nat) : Word := Tab.get (regDefault a) s.regs a

/-- Write the value in force of the register at an address. -/
def State.setReg (s : State) (a : Nat) (v : Word) : State :=
  { s with regs := Tab.set (regDefault a) s.regs a v }

/-- The last value written to an RWS register (00 R13). -/
def State.getShadow (s : State) (a : Nat) : Word := Tab.get (regDefault a) s.shadow a

/-- Write the shadow of an RWS register. -/
def State.setShadow (s : State) (a : Nat) (v : Word) : State :=
  { s with shadow := Tab.set (regDefault a) s.shadow a v }

/-- The register of a block at an offset. -/
def State.reg (s : State) (b : Block) (off : Nat) : Word := s.getReg (blockBase b + off)

/-- The register of a block at an offset, as a number. -/
def State.regN (s : State) (b : Block) (off : Nat) : Nat := (s.reg b off).toNat

/-- Write the register of a block at an offset. -/
def State.putReg (s : State) (b : Block) (off : Nat) (v : Word) : State := s.setReg (blockBase b + off) v

/-- Write the register of a block at an offset with a number, modulo 2^64. -/
def State.putN (s : State) (b : Block) (off n : Nat) : State := s.putReg b off (BitVec.ofNat 64 n)

/-- A field of a register. -/
def State.fldAt (s : State) (b : Block) (off lo len : Nat) : Nat := fld (s.reg b off) lo len

/-- A bit of a register. -/
def State.bitAt (s : State) (b : Block) (off i : Nat) : Bool := bit (s.reg b off) i

/-- Write a field of a register, keeping its other bits. -/
def State.putFld (s : State) (b : Block) (off lo len v : Nat) : State := s.putReg b off (setFld (s.reg b off) lo len v)

/-- Set or clear a bit of a register. -/
def State.putBit (s : State) (b : Block) (off i : Nat) (v : Bool) : State := s.putReg b off (setBit (s.reg b off) i v)

/-- Add to a field that wraps at its width. -/
def State.addWrap (s : State) (b : Block) (off lo len n : Nat) : State := s.putFld b off lo len (s.fldAt b off lo len + n)

/-- Add to a field that saturates at its width. -/
def State.addSat (s : State) (b : Block) (off lo len n : Nat) : State :=
  s.putFld b off lo len (min (s.fldAt b off lo len + n) (2 ^ len - 1))

/-- Set the block's sticky CFG_REJECT bit (00 R15, R17). -/
def State.reject (s : State) (b : Block) : State := s.setReg (rejectAddr b) (setBit (s.getReg (rejectAddr b)) 0 true)

/-- Write an in-force register and its shadow together. -/
def State.putBoth (s : State) (b : Block) (off : Nat) (v : Word) : State :=
  (s.putReg b off v).setShadow (blockBase b + off) v

/-- A commit of the block waits for its boundary (00 R14). -/
def State.commitPending (s : State) (b : Block) : Bool := (Tab.get (0, []) s.commits (commitAddr b)).1 != 0

/-! ## The tide, free values, answers and fault reports -/

/-- The tide (02 R39); every die's replica reads the same count (02 R41). -/
def State.now (s : State) : Nat := s.regN .tide 0x000

/-- The count of the local oscillator since VAON power-up: the tide without the corrections made to it. Intervals are
measured by it, so no correction of the tide cuts one short. -/
def State.clock (s : State) : Nat := ((s.now : Int) - s.tide.adjusted).toNat

/-- The lock state (02 Table 2-3). -/
def State.lockState (s : State) : Nat := s.fldAt .tide 0x008 0 3

/-- The lock states in which units admit deadlined work (02 R50). -/
def State.admits (s : State) : Bool := s.lockState == 2 || s.lockState == 3

/-- The tide-quality flag of a completion stamped in HOLDOVER or ADRIFT (02 R51). -/
def State.tideQ (s : State) : Bool := s.lockState == 3 || s.lockState == 4

/-- The node is in the safe state (15 R409). -/
def State.safe (s : State) : Bool := s.bitAt .hub 0x000 0

/-- Draw one free value. -/
def State.drawn (s : State) : State := { s with draws := s.draws + 1 }

/-- Draw `n` free values. -/
def State.drawnN (s : State) (n : Nat) : State := { s with draws := s.draws + n }

/-- Give the requester its answer: 0 OK, 1 bus error, 2 ACCESS or ERROR, 3 dead, 4 still waiting,
5 not taken for now. -/
def State.answers (s : State) (status : Nat) (data : List Byte := []) (poison : Bool := false) : State :=
  { s with answer := { status := status, data := data, poison := poison } }

/-- Send a fault report to the hub (15 R405). -/
def State.report (s : State) (source : Nat) (domain : Option Nat) (detail : Nat) : State :=
  { s with reports := s.reports ++ [{ source := source, domain := domain, detail := detail, tide := s.now }] }

/-- DETAIL of an HBM source (15 Table 15-3). -/
def hbmDetail (channel loc : Nat) : Nat := loc % 2 ^ 31 + channel * 2 ^ 32

/-- DETAIL of a port source (15 Table 15-3). -/
def portDetail (port lane : Nat) : Nat := lane % 8 + port * 2 ^ 8

/-- DETAIL of a tray source (15 Table 15-3). -/
def trayDetail (node quay kind : Nat) : Nat := node % 8 + quay * 2 ^ 8 + kind * 2 ^ 16

/-- DETAIL of a thermal source or VTC (15 Table 15-3). -/
def sensorDetail (sensor reading : Nat) : Nat := sensor % 2 ^ 8 + reading % 2 ^ 16 * 2 ^ 16

/-- The value in force of a register whose writes take effect 100 ns later (11 R306, 12 R323). -/
def State.laggedReg (s : State) (a : Nat) : Word :=
  match ((Tab.get [] s.lagged a).filter fun e => decide (e.1 ≤ s.clock)).getLast? with
  | some e => e.2
  | none => s.getReg a

/-- Write a register whose new value is read at once and takes effect 100 ns later. -/
def State.setLagged (s : State) (a : Nat) (v : Word) : State :=
  let old := (Tab.get [] s.lagged a).filter fun e => decide (s.clock < e.1)
  let all := (0, s.laggedReg a) :: old ++ [(s.clock + 100, v)]
  State.setReg { s with lagged := Tab.set [] s.lagged a all } a v

/-- Add to a counter of the live lifetime record, saturating at its width (15 R421). -/
def State.lifeAdd (s : State) (off bytes n : Nat) : State :=
  let old := leNat ((List.range bytes).map fun i => Tab.get (0 : Byte) s.life.live (off + i))
  let new := leBytes bytes (min (old + n) (2 ^ (8 * bytes) - 1))
  let live := (List.range bytes).foldl (fun t i => Tab.set 0 t (off + i) (new.getD i 0)) s.life.live
  { s with life := { s.life with live := live } }

/-! ## Tables of units -/

def State.queue (s : State) (core q : Nat) : QueueRun := Tab.get {} s.queues (6 * core + q)
def State.setQueue (s : State) (core q : Nat) (v : QueueRun) : State :=
  { s with queues := Tab.set {} s.queues (6 * core + q) v }
def State.hart (s : State) (h : Nat) : Hart := Tab.get {} s.harts h
def State.setHart (s : State) (h : Nat) (v : Hart) : State := { s with harts := Tab.set {} s.harts h v }
def State.channel (s : State) (c : Nat) : Channel := Tab.get {} s.channels c
def State.setChannel (s : State) (c : Nat) (v : Channel) : State := { s with channels := Tab.set {} s.channels c v }
def State.port (s : State) (p : Nat) : PortRun := Tab.get {} s.ports p
def State.setPort (s : State) (p : Nat) (v : PortRun) : State := { s with ports := Tab.set {} s.ports p v }
def State.quayQueue (s : State) (q : Nat) : QuayQueue := Tab.get {} s.quays q
def State.setQuayQueue (s : State) (q : Nat) (v : QuayQueue) : State := { s with quays := Tab.set {} s.quays q v }
def State.group (s : State) (g : Nat) : GroupRun := Tab.get {} s.groups g
def State.setGroup (s : State) (g : Nat) (v : GroupRun) : State := { s with groups := Tab.set {} s.groups g v }
def State.domain (s : State) (d : Nat) : Domain := Tab.get {} s.domains d
def State.setDomain (s : State) (d : Nat) (v : Domain) : State := { s with domains := Tab.set {} s.domains d v }
def State.dispatcher (s : State) (d : Nat) : Dispatcher := Tab.get {} s.dispatch d
def State.setDispatcher (s : State) (d : Nat) (v : Dispatcher) : State :=
  { s with dispatch := Tab.set {} s.dispatch d v }
def State.image (s : State) (i : Nat) : ImageBank := Tab.get {} s.images i
def State.setImage (s : State) (i : Nat) (v : ImageBank) : State := { s with images := Tab.set {} s.images i v }
def State.bell (s : State) (i : Nat) : Word := Tab.get 0 s.bells i
def State.entry (s : State) (i : Nat) : SchedEntry := Tab.get {} s.sched i
def State.setEntry (s : State) (i : Nat) (v : SchedEntry) : State := { s with sched := Tab.set {} s.sched i v }

/-! ## The fault domains as other units see them (15 Table 15-4) -/

/-- The state of a domain: 0 NORMAL, 1 FAULT, 2 SELFTEST, 3 FENCED (15 R413). -/
def State.domainState (s : State) (d : Nat) : Nat := s.fldAt .hub (0x2000 + 0x20 * d) 0 2

/-- CORE_STATUS.STATE: 0 ONLINE, 1 DRAINING, 2 OFFLINE, 3 FENCED (04 Table 4-10). -/
def State.coreState (s : State) (c : Nat) : Nat := s.fldAt (.core c) 0x008 0 2

/-! ## Memory (10) -/

/-- What an address of the node physical map reaches (10 Table 10-1). -/
inductive Place where
  | hbm | well (core : Nat) | cistern (cluster : Nat) | staging | control | berth | bell | none
  deriving DecidableEq, Repr

/-- The end of HBM. -/
def hbmEnd : Nat := 0x48_0000_0000

/-- What an address reaches (10 R245); the unpopulated parts of the well and cistern windows reach nothing (10 R246). -/
def placeOf (a : Nat) : Place :=
  if a < hbmEnd then .hbm
  else if 0x0C00_0000_0000 ≤ a ∧ a < 0x0C00_4000_0000 then
    (if a % 0x40_0000 < 0x30_0000 then .well ((a - 0x0C00_0000_0000) / 0x40_0000) else .none)
  else if 0x0C10_0000_0000 ≤ a ∧ a < 0x0C10_4000_0000 then
    (if a % 0x200_0000 < 0x180_0000 then .cistern ((a - 0x0C10_0000_0000) / 0x200_0000) else .none)
  else if 0x0D00_0000_0000 ≤ a ∧ a < 0x0D02_0000_0000 then .staging
  else if inControl a then .control
  else if 0x0E80_0000_0000 ≤ a ∧ a < 0x0E80_0100_0000 then .berth
  else if 0x0E90_0000_0000 ≤ a ∧ a < 0x0E90_0100_0000 then .bell
  else .none

/-- The address of a well (00 R10). -/
def wellBase (core : Nat) : Nat := 0x0C00_0000_0000 + core * 0x40_0000

/-- The address is in HBM, a well or a cistern. -/
def isMem (a : Nat) : Bool :=
  match placeOf a with
  | .hbm | .well _ | .cistern _ => true
  | _ => false

/-- What an unlisted byte reads as: 0 (17 R447), but a free value in an HBM region whose contents a commit of the region
table left undefined (10 R251). -/
def State.memDefault (s : State) (a : Nat) : Byte :=
  if a < hbmEnd then
    match Tab.get 0 s.undef (a / 0x4000_0000) with
    | 0 => 0
    | d + 1 => BitVec.ofNat 8 (Config.freeByte d a)
  else 0

/-- The byte of memory at an address. -/
def State.byteAt (s : State) (a : Nat) : Byte := Tab.get (s.memDefault a) s.mem a

/-- Write the byte of memory at an address. -/
def State.putByte (s : State) (a : Nat) (b : Byte) : State := { s with mem := Tab.set (s.memDefault a) s.mem a b }

/-- `n` bytes of memory from an address. -/
def State.bytesAt (s : State) (a : Nat) : Nat → List Byte
  | 0 => []
  | n + 1 => s.byteAt a :: State.bytesAt s (a + 1) n

/-- Write bytes of memory from an address. -/
def State.putBytes (s : State) (a : Nat) : List Byte → State
  | [] => s
  | b :: bs => State.putBytes (s.putByte a b) (a + 1) bs

/-- The size of the unit in which poison is kept: an HBM sector (10 R261), or a well or cistern line (04 R511). -/
def poisonSize (a : Nat) : Nat := if a < hbmEnd then 32 else 64

/-- The unit of poison that an address lies in. -/
def poisonUnit (a : Nat) : Nat := a / poisonSize a * poisonSize a

/-! ## The channel function (10 R252) -/

/-- XOR of the `b`-bit digits of a number. -/
def xorFold (b : Nat) : Nat → Nat → Nat
  | 0, _ => 0
  | fuel + 1, t => if t = 0 then 0 else (t % 2 ^ b) ^^^ xorFold b fuel (t >>> b)

/-- SPREAD_COUNT of the table in force (10 R248). -/
def State.spreadCount (s : State) : Nat := s.fldAt .regionTable 0x000 0 9

/-- Channel and channel-local address of an HBM address (10 R252). -/
def State.decodeHbm (s : State) (addr : Nat) : Nat × Nat :=
  let e := s.reg .regionTable (0x1000 + 8 * (addr / 0x4000_0000))
  let spread := bit e 0
  let p := fld e 8 9 * 2 ^ 30 + addr % 2 ^ 30
  let g := p / 256
  let b := if spread then 6 else 4
  let t := g >>> b
  let x := (g % 2 ^ b) ^^^ xorFold b 20 t
  let w := t / 3
  let k := (t + w) % 3
  let cd := if spread then x / 16 else fld e 2 2
  let base := if spread then 0 else s.spreadCount / 12 * 0x400_0000
  ((3 * cd + k) * 16 + x % 16, base + w * 256 + addr % 256)

/-- The group block of a channel. -/
def groupOf (ch : Nat) : Block := .stack (ch / 16)

/-- The offset of the per-channel registers at 0x100 + 0x40 × c. -/
def chOff (ch off : Nat) : Nat := off + 0x40 * (ch % 16)

/-- The offset of the generator registers at 0x1000 + 0x80 × c. -/
def tgOff (ch off : Nat) : Nat := off + 0x80 * (ch % 16)

/-! ## The transfers of a channel (10 R253–R257) -/

/-- Where a channel-local address lies in its channel (10 R253). -/
structure SectorPlace where
  pseudo : Nat
  bank   : Nat
  row    : Nat
  column : Nat
  deriving DecidableEq, Repr

def sectorPlace (loc : Nat) : SectorPlace :=
  let u := loc / 2048
  { pseudo := loc / 32 % 2, bank := (u % 48 + u / 48) % 48, row := u / 48, column := loc / 64 % 32 }

/-- A channel after transfers, and the CK that they lost to turnarounds and to row conflicts. -/
structure Moved where
  chan : Channel
  turn : Nat := 0
  conf : Nat := 0

/-- One burst: a switch of direction costs 8 or 24 CK, and a row conflict 11 CK where another bank of the pseudo-channel has a buffered write
waiting, else 73 (10 R257). SCATTER closes the row after it (10 R256). -/
def Moved.burst (m : Moved) (scatter write : Bool) (loc : Nat) : Moved :=
  let p := sectorPlace loc
  let bank := 48 * p.pseudo + p.bank
  let row := Tab.get 0 m.chan.rows bank
  let others := (Tab.get [] m.chan.wbuf p.pseudo).any fun l => (sectorPlace l).bank != p.bank
  let turn := if Tab.get false m.chan.writing p.pseudo = write then 0 else if write then 8 else 24
  let conf := if row = 0 ∨ row = p.row + 1 then 0 else if others then 11 else 73
  { chan := { m.chan with
      rows := Tab.set 0 m.chan.rows bank (if scatter then 0 else p.row + 1), writing := Tab.set false m.chan.writing p.pseudo write }
    turn := m.turn + turn, conf := m.conf + conf }

/-- The writes that a pseudo-channel has buffered are made until the buffer is empty. -/
def Moved.drain (m : Moved) (pseudo : Nat) : Moved :=
  let m := (Tab.get [] m.chan.wbuf pseudo).foldl (fun m l => m.burst false true l) m
  { m with chan := { m.chan with wbuf := Tab.set [] m.chan.wbuf pseudo [] } }

/-- The controller moves a sector under the policy of MC_CFG. STREAM keeps rows open and buffers writes until WBATCH of them wait, or until a
read needs the bank and row of one; a read of a buffered line takes it from the buffer (10 R254, R256). -/
def Channel.access (c : Channel) (cfg : Word) (write : Bool) (loc : Nat) : Moved :=
  let p := sectorPlace loc
  let buf := Tab.get [] c.wbuf p.pseudo
  if bit cfg 0 then ({ chan := c } : Moved).burst true write loc
  else if write then
    let m : Moved := { chan := { c with wbuf := Tab.set [] c.wbuf p.pseudo (buf ++ [loc]) } }
    if 32 * 2 ^ fld cfg 1 2 ≤ buf.length + 1 then m.drain p.pseudo else m
  else if buf.any fun l => l / 64 == loc / 64 then { chan := c }
  else if buf.any fun l => (sectorPlace l).bank == p.bank && (sectorPlace l).row == p.row then
    (({ chan := c } : Moved).drain p.pseudo).burst false false loc
  else ({ chan := c } : Moved).burst false false loc

/-- The buffered writes are made, and every row is closed (10 R259, R266). -/
def Channel.closeRows (c : Channel) : Moved :=
  let m := (({ chan := c } : Moved).drain 0).drain 1
  { m with chan := { m.chan with rows := [] } }

/-- MC_CFG as it is in force at a channel (10 R259). -/
def State.mcCfg (s : State) (ch : Nat) : Word := (s.channel ch).cfg.getD (s.reg (groupOf ch) 0x000)

/-- Count the CK that transfers lost, while CNT_EN is 1 (10 Table 10-10). -/
def State.countLoss (s : State) (ch : Nat) (cfg : Word) (m : Moved) : State :=
  if bit cfg 16 then
    let s := if m.turn = 0 then s else s.addWrap (groupOf ch) (chOff ch 0x130) 0 64 m.turn
    if m.conf = 0 then s else s.addWrap (groupOf ch) (chOff ch 0x138) 0 64 m.conf
  else s

/-- An ACTIVE channel makes its buffered writes and closes its rows. -/
def State.quietChannel (s : State) (ch : Nat) : State :=
  let m := (s.channel ch).closeRows
  (s.setChannel ch m.chan).countLoss ch (s.mcCfg ch) m

/-- CH_STATE: 0 ACTIVE, 1 HELD, 2 ISOLATED, 3 FENCED (10 Table 10-6). -/
def State.chState (s : State) (ch : Nat) : Nat := s.fldAt (groupOf ch) (chOff ch 0x100) 0 2

/-- A channel takes no access now: it is HELD, or it is ACTIVE and its group goes to the boundary of a commit (10 R259, R263). -/
def State.chWaits (s : State) (ch : Nat) : Bool := s.chState ch == 1 || (s.chState ch == 0 && s.commitPending (groupOf ch))

/-- TG_STATUS.STATE: 0 IDLE, 1 RUNNING, 2 DONE, 3 ABORTED (10 R268). -/
def State.tgState (s : State) (ch : Nat) : Nat := s.fldAt (groupOf ch) (tgOff ch 0x1028) 0 2

/-- An access to the byte is answered as FENCED (10 Table 10-6). -/
def State.lostAt (s : State) (a : Nat) : Bool := decide (a < hbmEnd) && decide (2 ≤ s.chState (s.decodeHbm a).1)

/-- What an unlisted unit of poison reads as: poisoned where a refill has filled its channel (10 R267). -/
def State.poisonBase (s : State) (u : Nat) : Bool :=
  if s.refill.isEmpty || decide (hbmEnd ≤ u) then false
  else Tab.get false s.refill (192 * (u / 0x4000_0000) + (s.decodeHbm u).1)

/-- The byte at an address reads as poisoned. -/
def State.poisonAt (s : State) (a : Nat) : Bool := Tab.get (s.poisonBase (poisonUnit a)) s.poison (poisonUnit a)

/-- Mark or clear the poison of the unit at an address. -/
def State.putPoison (s : State) (a : Nat) (p : Bool) : State :=
  { s with poison := Tab.set (s.poisonBase (poisonUnit a)) s.poison (poisonUnit a) p }

/-- Split a range at the 256-byte granules of HBM, which are whole lines of every memory. -/
def granules : Nat → Nat → Nat → List (Nat × Nat)
  | 0, _, _ => []
  | fuel + 1, a, n =>
    if n = 0 then [] else
      let k := min n (256 - a % 256)
      (a, k) :: granules fuel (a + k) (n - k)

/-- The granules of a range. -/
def piecesOf (a n : Nat) : List (Nat × Nat) := granules (n / 256 + 2) a n

/-- Split a piece at its units of poison. -/
def poisonUnits : Nat → Nat → Nat → List (Nat × Nat)
  | 0, _, _ => []
  | fuel + 1, a, n =>
    if n = 0 then [] else
      let u := poisonSize a
      let k := min n (u - a % u)
      (a, k) :: poisonUnits fuel (a + k) (n - k)

/-- The units of poison of a range, with the part of each that the range covers. -/
def unitsOf (a n : Nat) : List (Nat × Nat) := poisonUnits (n / 32 + 2) a n

/-- Some byte of the range reads as poisoned. -/
def State.poisonIn (s : State) (a n : Nat) : Bool := (unitsOf a n).any fun u => s.poisonAt u.1

/-- Capture the first uncorrectable sector of a channel (10 CH_ERR_ADDR): cause 0 read, 1 SCRUB, 2 RMW. -/
def State.captureUe (s : State) (ch loc cause : Nat) : State :=
  if s.bitAt (groupOf ch) (chOff ch 0x118) 63 then s
  else s.putN (groupOf ch) (chOff ch 0x118) (loc % 2 ^ 31 + cause * 2 ^ 32 + 2 ^ 63)

/-- Raise HBM_UE at an HBM address, capturing it (10 R261). -/
def State.hbmUe (s : State) (addr cause : Nat) : State :=
  let cl := s.decodeHbm (addr / 32 * 32)
  (s.captureUe cl.1 cl.2 cause).report 0x02 none (hbmDetail cl.1 cl.2)

/-- Store the poison of one unit that a write covers in part or whole (10 R261, 04 R511). -/
def State.writePoison (s : State) (poison : Bool) (u : Nat × Nat) : State :=
  if poison then s.putPoison u.1 true
  else if u.2 = poisonSize u.1 then s.putPoison u.1 false
  else if s.poisonAt u.1 && decide (u.1 < hbmEnd) then s.hbmUe u.1 2
  else s

/-- The whole range lies in HBM, wells and cisterns; a well under its core's self-test is refused (15 Table 15-4). -/
def State.reachable (s : State) (a n : Nat) : Bool :=
  (piecesOf a n).all fun p =>
    match placeOf p.1 with
    | .hbm => decide (p.1 + p.2 ≤ hbmEnd)
    | .well c => s.domainState c != 2
    | .cistern _ => true
    | _ => false

/-- An access of a unit must wait: a region table waits to come into force, or a channel of the access takes none now (10 R251, R259,
R263). The command of the unit that makes it then does nothing yet. -/
def State.hbmWaits (s : State) (a n : Nat) : Bool :=
  decide (a < hbmEnd) && (s.commitPending .regionTable || (piecesOf a n).any fun p => s.chWaits (s.decodeHbm p.1).1)

/-- Raise HBM_LOST for an access that meets a FENCED or ISOLATED channel (10 R263). -/
def State.reportLost (s : State) (a n : Nat) : State :=
  match (piecesOf a n).find? fun p => s.lostAt p.1 with
  | none => s
  | some p => let cl := s.decodeHbm p.1; s.report 0x03 none (hbmDetail cl.1 cl.2)

/-- What a unit's read of memory returns. -/
structure ReadResult where
  ok     : Bool
  data   : List Byte
  poison : Bool
  deriving DecidableEq, Repr

/-- Some line of 64 bytes of the range reads as poisoned: a unit receives a line with a poisoned sector as poisoned (10 R261). -/
def State.linePoison (s : State) (a n : Nat) : Bool := s.poisonIn (a / 64 * 64) ((a + n + 63) / 64 * 64 - a / 64 * 64)

/-- Read memory: all ones and poisoned from a lost channel, else the bytes and the poison of their lines (10 R261, R263, 04 R511). -/
def State.memRead (s : State) (a n : Nat) : ReadResult :=
  if s.reachable a n then
    { ok := true
      data := (piecesOf a n).flatMap fun p => if s.lostAt p.1 then List.replicate p.2 0xFF else s.bytesAt p.1 p.2
      poison := (piecesOf a n).any fun p => s.lostAt p.1 || s.linePoison p.1 p.2 }
  else { ok := false, data := [], poison := false }

/-- A channel moves the sector at a channel-local address: the sector and what the transfer lost in CK are counted while CNT_EN is 1
(10 R257, Table 10-10). -/
def State.touchSector (s : State) (write : Bool) (ch loc : Nat) : State :=
  let g := groupOf ch
  let cfg := s.mcCfg ch
  let x := (s.channel ch).access cfg write loc
  (s.setChannel ch x.chan).countLoss ch cfg x
    |> fun t => if bit cfg 16 then t.addWrap g (chOff ch (if write then 0x128 else 0x120)) 0 64 1 else t

/-- The sectors of a range that its channels serve. -/
def State.touchSectors (s : State) (write : Bool) (a n : Nat) : State :=
  (unitsOf a n).foldl (fun s u =>
    if u.1 < hbmEnd && !s.lostAt u.1 then s.touchSector write (s.decodeHbm u.1).1 (s.decodeHbm u.1).2 else s) s

/-- The state after a read: the sectors moved, HBM_LOST raised where a channel was lost. -/
def State.afterRead (s : State) (a n : Nat) : State := (s.touchSectors false a n).reportLost a n

/-- Write one piece of memory, which lies in one granule. -/
def State.writePiece (s : State) (poison : Bool) (a : Nat) (bytes : List Byte) : State :=
  if s.lostAt a then s
  else (unitsOf a bytes.length).foldl (fun s u => s.writePoison poison u) (s.putBytes a bytes)

/-- Write the pieces of a range. -/
def State.writePieces (poison : Bool) (bytes : List Byte) : State → Nat → List (Nat × Nat) → State
  | s, _, [] => s
  | s, done, p :: ps =>
    State.writePieces poison bytes (s.writePiece poison p.1 ((bytes.drop done).take p.2)) (done + p.2) ps

/-- Write memory: discarded at a lost channel (10 R263), else the bytes and their poison; nothing where some byte of the
range is unreachable (10 R246). -/
def State.memWrite (s : State) (a : Nat) (bytes : List Byte) (poison : Bool := false) : State :=
  if s.reachable a bytes.length then
    (State.writePieces poison bytes s 0 (piecesOf a bytes.length)).touchSectors true a bytes.length
      |>.reportLost a bytes.length
  else s

/-- Write a number of `n` bytes to memory. -/
def State.memWriteN (s : State) (a n v : Nat) : State := s.memWrite a (leBytes n v)

/-- Read a number of `n` bytes from memory; 0 where unreachable. -/
def State.memReadN (s : State) (a n : Nat) : Nat := leNat (s.memRead a n).data

/-- Drop the bytes and poison marks of every address that satisfies a test: they read as never written. -/
def State.dropMem (s : State) (p : Nat → Bool) : State :=
  { s with mem := Tab.dropKeys s.mem p, poison := Tab.dropKeys s.poison p }

/-- A pilot core waits for the answer to a tray access of its own: its accesses outside its well are blocking (04 R95, 12 R337). -/
def State.pilotWaits (s : State) (h : Nat) : Bool :=
  decide (h < 256) && s.tray.any fun r => match r.owner with
    | .requester w => w.endpoint.val == h && !w.host
    | _ => false

/-! ## Event counters and the wake of a pilot core (04 R100–R105) -/

/-- The counter wait of WAIT_SEL is met (04 R105). -/
def State.waitMet (s : State) (core : Nat) : Bool :=
  s.bitAt (.core core) 0x020 4 &&
    reached32 (s.fldAt (.core core) (0x040 + 8 * s.fldAt (.core core) 0x020 0 4) 0 32) (s.fldAt (.core core) 0x020 32 32)

/-- Set a source of WAKE_CAUSE (04 Table 4-10). -/
def State.wakeCause (s : State) (core i : Nat) : State := s.putBit (.core core) 0x030 i true

/-- Set WAKE_CAUSE.COUNTER where the wait of WAIT_SEL is met: at an increment and at a write of EVT or WAIT_SEL; after a W1C it stays clear
until the next of these (DESIGN CHOICE, log 71). -/
def State.checkWait (s : State) (core : Nat) : State := if s.waitMet core then s.wakeCause core 0 else s

/-- Increment an event counter (04 R101). -/
def State.evtAdd (s : State) (core ctr : Nat) : State :=
  (s.addWrap (.core core) (0x040 + 8 * ctr) 0 32 1).checkWait core

end Sys2Proof.Machine
end

