-- ==== Sys2Proof/Machine/CoreOps.lean ====
section
/-! DEFINITION. The core queues: rings, chains, starting, completing and halting of descriptors (04 R96–R105, R116). -/

namespace Sys2Proof.Machine

/-- Descriptor size of a queue (04 Table 4-2). -/
def descSize (q : Nat) : Nat := if q = 2 then 256 else if q < 4 then 128 else 64

/-- KIND of a queue's descriptors (04 Table 4-2). -/
def descKind (q : Nat) : Nat := if q ≤ 1 then 1 else if q = 2 then 2 else if q = 3 then 3 else 4

/-- Offset of a register of queue q in the core block (04 Table 4-10). -/
def qOff (q off : Nat) : Nat := off + 0x40 * q

/-- The pilot core and the engines of a core run: ONLINE or DRAINING (04 R117), not in the safe state (15 R409), and the
node not in DOZE or DEEP (01 Table 1-9). -/
def State.coreRuns (s : State) (c : Nat) : Bool :=
  decide (s.coreState c ≤ 1) && !s.safe && decide (s.power.depth < 2)

/-- Ring slots of a queue; 0 while the ring is disabled (04 Q_CFG). -/
def State.ringSize (s : State) (c q : Nat) : Nat :=
  let l := s.fldAt (.core c) (qOff q 0x108) 0 4
  if l = 0 then 0 else 2 ^ l

def State.qHead (s : State) (c q : Nat) : Nat := s.fldAt (.core c) (qOff q 0x118) 0 16
def State.qTail (s : State) (c q : Nat) : Nat := s.fldAt (.core c) (qOff q 0x110) 0 16

/-- Ring slots that descriptors in progress or halted hold. -/
def QueueRun.ringHeld (r : QueueRun) : Nat :=
  (r.running.filter Running.ring).length + (match r.halted with | some h => if h.ring then 1 else 0 | none => 0)
    + (match r.again with | some h => if h.ring then 1 else 0 | none => 0)

/-- The next ring slot to start. -/
def State.ringNext (s : State) (c q : Nat) : Nat := (s.qHead c q + (s.queue c q).ringHeld) % 65536

/-- Some ring slot waits to be started. -/
def State.ringPending (s : State) (c q : Nat) : Bool := s.ringSize c q != 0 && s.ringNext c q != s.qTail c q

/-- Node address of a ring slot (04 R98); a base that is not aligned to the ring is taken as it is (log 69). -/
def State.slotAddr (s : State) (c q idx : Nat) : Nat :=
  wellBase c + s.fldAt (.core c) (qOff q 0x100) 0 22 + idx % s.ringSize c q * descSize q

/-- The head of a queue's source: the chain being run, else a pending chain, else the ring (04 R99); `true` for the
ring. -/
def State.headOf (s : State) (c q : Nat) : Option (ChainEntry × Bool) :=
  let r := s.queue c q
  match r.next with
  | some e => some (e, false)
  | none => match r.chains with
    | e :: _ => some (e, false)
    | [] => if s.ringPending c q then some ({ addr := s.slotAddr c q (s.ringNext c q) }, true) else none

/-- Take the head of the source. -/
def QueueRun.take (r : QueueRun) : QueueRun :=
  match r.next with
  | some _ => { r with next := none }
  | none => { r with chains := r.chains.drop 1 }

/-- The areas that a descriptor is fetched from: the core's own well, or HBM (04 R99). -/
def fetchArea (c a n : Nat) : Bool :=
  decide (a + n ≤ hbmEnd) || (decide (wellBase c ≤ a) && decide (a + n ≤ wellBase c + 0x30_0000))

/-- Fetch a descriptor: its bytes, or the status that halts the queue before it starts (04 R104). -/
def State.fetchDesc (s : State) (c q a : Nat) : Except Nat (List Byte) :=
  if fetchArea c a (descSize q) then
    let r := s.memRead a (descSize q)
    if !r.ok then .error 0x02 else if r.poison then .error 0x03 else .ok r.data
  else .error 0x02

/-- The common header of a descriptor (04 Table 4-3). -/
def hdr (d : List Byte) : Nat := byteFld d 0 8
def hdrLast (d : List Byte) : Bool := (hdr d).testBit 8
def hdrFence (d : List Byte) : Bool := (hdr d).testBit 9
def hdrNotify (d : List Byte) : Bool := (hdr d).testBit 10

/-- KIND is the queue's and the reserved bits are zero (04 R97, 00 R17). -/
def headerOk (q : Nat) (d : List Byte) : Bool :=
  bits (hdr d) 0 8 == descKind q && bits (hdr d) 11 5 == 0 && bits (hdr d) 21 3 == 0 && bits (hdr d) 29 3 == 0

/-- The counter wait of a descriptor is met (04 R100). -/
def State.waitOk (s : State) (c : Nat) (d : List Byte) : Bool :=
  !(hdr d).testBit 20 || reached32 (s.fldAt (.core c) (0x040 + 8 * bits (hdr d) 16 4) 0 32) (bits (hdr d) 32 32)

/-- Q_STATUS.STATE: 0 IDLE, 1 RUNNING, 2 WAITING, 3 HALTED (04 Table 4-10). -/
def State.queueState (s : State) (c q : Nat) : Nat :=
  if (s.queue c q).halted.isSome then 3
  else if !(s.queue c q).running.isEmpty then 1
  else if (s.queue c q).again.isSome || (s.headOf c q).isSome then 2
  else 0

/-- The queue is empty and has no descriptor in progress (04 R109). -/
def State.queueEmpty (s : State) (c q : Nat) : Bool := s.queueState c q == 0 && (s.queue c q).reserved.isNone

/-- All six queues are empty and no descriptor is in progress (04 R109). -/
def State.coreEmpty (s : State) (c : Nat) : Bool := [0, 1, 2, 3, 4, 5].all fun q => s.queueEmpty c q

/-- Record the status and address of a descriptor that ended with an error (04 R104). -/
def State.queueError (s : State) (c q code addr : Nat) : State :=
  s.putFld (.core c) (qOff q 0x120) 8 56 (code + addr * 2 ^ 8)

/-- The queue enters HALTED (04 R104, R105). -/
def State.haltQueue (s : State) (c q code : Nat) (h : Halted) : State :=
  ((s.queueError c q code h.addr).setQueue c q { s.queue c q with halted := some h }).wakeCause c 1

/-- The halted form of a descriptor in progress. -/
def Running.toHalted (r : Running) : Halted :=
  { addr := r.addr, fetched := true, ring := r.ring, last := hdrLast r.desc, alone := r.alone }

/-- Retire the ring slot of a descriptor that came from the ring (04 R98, R104). -/
def State.retireSlot (s : State) (c q : Nat) (ring : Bool) : State :=
  if ring then s.addWrap (.core c) (qOff q 0x118) 0 16 1 else s

/-- An entry freed in the chain FIFO lets the harbourmaster's reserved slot in, ahead of later entries (04 R99). -/
def State.enterReserved (s : State) (c q : Nat) : State :=
  let r := s.queue c q
  match r.reserved with
  | some a => if r.chains.length < 4 then
      s.setQueue c q { r with chains := r.chains ++ [{ addr := a }], reserved := none } else s
  | none => s

/-- Make the writes that a descriptor left for its completion. -/
def State.lateWrites (s : State) (ws : List LateWrite) : State :=
  ws.foldl (fun s w => s.memWrite w.addr w.data w.poison) s

/-- The writes of a summary record that fills in SEQ, its last four bytes (06 Table 6-10). -/
def withSeq (seq : Nat) (ws : List LateWrite) : List LateWrite :=
  ws.map fun w => { w with data := w.data.take (w.data.length - 4) ++ leBytes 4 seq }

/-- Q_DONE of a queue. -/
def State.qDone (s : State) (c q : Nat) : Nat := s.regN (.core c) (qOff q 0x128)

/-- The summary records of an FLE descriptor that ends without completing (06 R168): SEQ is Q_DONE as it stands. -/
def State.endSummaries (s : State) (c q : Nat) (r : Running) : State :=
  if q = 2 then s.lateWrites (withSeq (s.qDone c q) r.writes) else s

/-- If the oldest descriptor in progress has ended with a non-zero status, it halts the queue. -/
def State.settleQueue (s : State) (c q : Nat) : State :=
  let r := s.queue c q
  match r.halted, r.running with
  | none, h :: t =>
    if r.again.isSome then s else match h.done with
    | some 0 => s
    | some code => ((s.endSummaries c q h).setQueue c q { r with running := t }).haltQueue c q code h.toHalted
    | none => s
  | _, _ => s

/-- What a descriptor taken from a source becomes: in progress, ended MALFORMED where its header is reserved. The FLE and the
SV refuse such a one themselves, with their own reports (06 R167, 08 R233). -/
def startRunning (q a : Nat) (ring alone : Bool) (d : List Byte) : Running :=
  { addr := a, desc := d, ring := ring, alone := alone, done := if headerOk q d || q == 2 || q == 3 then none else some 0x01 }

/-- The rest of the chain after a descriptor: the next address, unless LAST or a chain of one (04 R99). -/
def chainRest (q : Nat) (e : ChainEntry) (ring : Bool) (d : List Byte) : Option ChainEntry :=
  if ring || e.dispatcher || hdrLast d then none else some { e with addr := e.addr + descSize q }

/-- Start the descriptor that RESUME runs again, fetched again, once its wait is met; where it cannot be fetched the queue halts
again (04 R100, R104). -/
def State.startAgain (s : State) (c q : Nat) : State :=
  let r := s.queue c q
  match r.again with
  | none => s
  | some h =>
    if s.hbmWaits h.addr (descSize q) then s
    else match s.fetchDesc c q h.addr with
    | .error code =>
      ((s.afterRead h.addr (descSize q)).setQueue c q { r with again := none }).haltQueue c q code { h with fetched := false }
    | .ok d =>
      if headerOk q d && !s.waitOk c d then s
      else
        let run := startRunning q h.addr h.ring h.alone d
        let e : ChainEntry := { addr := h.addr, dispatcher := h.alone }
        let next := if r.running.isEmpty && !h.ring then chainRest q e h.ring d else r.next
        ((s.afterRead h.addr (descSize q)).setQueue c q { r with again := none, running := run :: r.running, next := next }).settleQueue c q

/-- Start the descriptor at the head of the queue's source (04 R100, R104). A descriptor that cannot be fetched halts the
queue once the earlier ones have ended. -/
def State.startDesc (s : State) (c q : Nat) : State :=
  let r := s.queue c q
  if !s.coreRuns c || r.halted.isSome then s
  else if r.again.isSome then s.startAgain c q
  else match s.headOf c q with
    | none => s
    | some (e, ring) =>
      let r' := if ring then r else r.take
      if s.hbmWaits e.addr (descSize q) then s
      else match s.fetchDesc c q e.addr with
      | .error code =>
        if r.running.isEmpty then
          ((s.afterRead e.addr (descSize q)).setQueue c q r').haltQueue c q code
            { addr := e.addr, fetched := false, ring := ring, last := false, alone := e.dispatcher } |>.enterReserved c q
        else s
      | .ok d =>
        if headerOk q d && ((hdrFence d && !r.running.isEmpty) || !s.waitOk c d) then s
        else
          let run := startRunning q e.addr ring e.dispatcher d
          ((s.afterRead e.addr (descSize q)).setQueue c q
            { r' with running := r.running ++ [run], next := chainRest q e ring d }).settleQueue c q |>.enterReserved c q

/-- RESUME: fetch the halted descriptor again and run it (04 R104). -/
def State.resumeQueue (s : State) (c q : Nat) : State :=
  let r := s.queue c q
  match r.halted with
  | none => s
  | some h =>
    let s := s.setQueue c q { r with halted := none, again := some h }
    if s.coreRuns c then s.startAgain c q else s

/-- SKIP: retire the halted descriptor without an increment; one that was never fetched ends its chain (04 R104). -/
def State.skipQueue (s : State) (c q : Nat) : State :=
  let r := s.queue c q
  match r.halted with
  | none => s
  | some h =>
    ((s.setQueue c q { r with halted := none, next := if h.fetched || h.ring then r.next else none }).retireSlot c q
      h.ring).settleQueue c q

/-- Discard every pending slot and chain (04 R104). -/
def State.dropPending (s : State) (c q : Nat) : State :=
  (s.setQueue c q {}).putFld (.core c) (qOff q 0x118) 0 16 (s.qTail c q)

/-- A running descriptor ends with ABORTED without an increment (04 R104); of several, the oldest is recorded (log 70). -/
def State.abortError (s : State) (c q : Nat) : State :=
  match (s.queue c q).running with
  | r :: _ => s.queueError c q 0x04 r.addr
  | [] => s

/-- The oldest descriptor in progress that has not ended yet. -/
def QueueRun.current (r : QueueRun) : Option Running := r.running.find? fun x => x.done.isNone

/-- Replace the oldest descriptor in progress that has not ended yet. -/
def replaceCurrent (f : Running → Running) : List Running → List Running
  | [] => []
  | r :: rs => if r.done.isNone then f r :: rs else r :: replaceCurrent f rs

/-- Change the oldest descriptor in progress that has not ended yet. -/
def State.updateCurrent (s : State) (c q : Nat) (f : Running → Running) : State :=
  (s.setQueue c q { s.queue c q with running := replaceCurrent f (s.queue c q).running }).settleQueue c q

/-- The unit of a queue has ended the current descriptor with a status and the writes left for its completion. -/
def State.endCurrent (s : State) (c q status : Nat) (writes : List LateWrite := []) : State :=
  s.updateCurrent c q fun r => { r with done := some status, writes := writes }

/-- The oldest descriptor in progress, once it has ended with status 0 and the queue is not halted. -/
def State.completing (s : State) (c q : Nat) : Option Running :=
  let r := s.queue c q
  match r.halted, r.again, r.running with
  | none, none, h :: _ => if h.done = some 0 then some h else none
  | _, _, _ => none

/-- Retire the oldest descriptor: Q_DONE, the event counter and the NOTIFY source (04 R100, R101). -/
def State.retireDesc (s : State) (c q : Nat) (r : Running) : State :=
  let s := s.setQueue c q { s.queue c q with running := (s.queue c q).running.drop 1 }
  let s := (s.retireSlot c q r.ring).addWrap (.core c) (qOff q 0x128) 0 64 1
  let s := if (hdr r.desc).testBit 28 then s.evtAdd c (bits (hdr r.desc) 24 4) else s
  let s := if hdrNotify r.desc then s.wakeCause c (8 + q) else s
  s.settleQueue c q

/-- Complete the oldest descriptor: its writes are visible before its increment (04 R102). -/
def State.completeDesc (s : State) (c q : Nat) : State :=
  match s.completing c q with
  | none => s
  | some r => (s.lateWrites (if q = 2 then withSeq (s.qDone c q + 1) r.writes else r.writes)).retireDesc c q r

/-- A write to Q_TAIL (04 R98, R117). -/
def State.writeQTail (s : State) (c q v : Nat) : State :=
  if s.coreState c ≠ 0 then s.putBit (.core c) (qOff q 0x120) 6 true
  else if s.ringSize c q < (v % 65536 + 65536 - s.qHead c q) % 65536 then s.putBit (.core c) (qOff q 0x120) 6 true
  else s.putN (.core c) (qOff q 0x110) (v % 65536)

/-- Enter a chain from a write to Q_CHAIN or a START_CHAIN action: dropped off line, a fifth entry sets CHAIN_OVF
(04 R99, R117). -/
def State.enterChain (s : State) (c q a : Nat) : State :=
  let r := s.queue c q
  if s.coreState c ≠ 0 then s
  else if r.chains.length < 4 then s.setQueue c q { r with chains := r.chains ++ [{ addr := a % 2 ^ 48 }] }
  else s.putBit (.core c) (qOff q 0x120) 7 true

/-- An entry by the harbourmaster waits in the reserved slot where the FIFO is full (04 R99); `none` where the slot is
occupied or the core is not ONLINE. -/
def State.enterHarbour (s : State) (c q a : Nat) : Option State :=
  let r := s.queue c q
  if s.coreState c ≠ 0 || r.reserved.isSome then none
  else if r.chains.length < 4 then some (s.setQueue c q { r with chains := r.chains ++ [{ addr := a }] })
  else some (s.setQueue c q { r with reserved := some a })

/-- A pump of the core has a descriptor in progress (04 R118). -/
def State.pumpBusy (s : State) (c p : Nat) : Bool := !(s.queue c (4 + p)).running.isEmpty

/-- What Q_STATUS reads as: the live fields over the kept TAIL_REJECT, CHAIN_OVF and error (04 Table 4-10). -/
def State.readQStatus (s : State) (c q : Nat) : Word :=
  let r := s.queue c q
  let w := s.reg (.core c) (qOff q 0x120)
  let inChain := r.next.isSome || (match r.again with | some h => !h.ring | none => false)
    || (match r.running with | x :: _ => !x.ring | [] => false)
  setFld (setFld (setFld w 0 2 (s.queueState c q)) 2 1 (if inChain then 1 else 0)) 3 3 r.chains.length

end Sys2Proof.Machine
end

