-- ==== Sys2Proof/Machine/Packet.lean ====
section
/-! DEFINITION. Packets and their bytes on a link (11 Table 11-9, 12 Table 12-6, 13 Table 13-8). -/

namespace Sys2Proof.Machine

/-- LEN of a packet in flits: the header's two and the payload's (11 R279, Table 11-9). -/
def Packet.len (p : Packet) : Nat := 2 + ceilDiv p.payload.length 32

/-- The 64 header bytes of a packet. -/
def Packet.header (p : Packet) : List Byte :=
  leBytes 1 (p.htype + p.vc * 2 ^ 4)
    ++ leBytes 1 (p.ovc + (if p.escDown then 2 ^ 3 else 0) + p.phase * 2 ^ 4 + p.rmode * 2 ^ 6)
    ++ leBytes 2 p.len ++ leBytes 4 p.dst ++ leBytes 4 p.src ++ leBytes 4 p.via ++ leBytes 2 p.tag
    ++ leBytes 2 p.ttl ++ leBytes 4 p.block ++ leBytes 8 p.mask
    ++ leBytes 1 p.tkind
    ++ leBytes 1 ((if p.last then 1 else 0) + (if p.guar then 2 else 0) + (if p.poison then 4 else 0)
        + (if p.retx then 8 else 0))
    ++ leBytes 1 p.code ++ leBytes 1 p.step ++ leBytes 4 p.dq ++ leBytes 4 p.sq ++ leBytes 4 p.psn
    ++ leBytes 8 p.addr ++ leBytes 8 p.data

/-- Pad to whole flits of 32 bytes. -/
def padFlits (bs : List Byte) : List Byte := bs ++ List.replicate (ceilDiv bs.length 32 * 32 - bs.length) 0

/-- All bytes of a packet as it stands in flits. -/
def Packet.bytes (p : Packet) : List Byte := p.header ++ padFlits p.payload

/-- How many of the payload's bytes count: the kinds that move data carry the count in DATA (the model's own field, since
the spec names no place for it), CHUNK in bits [47:32] of DATA, tray stores and responses in bits [13:1] of DQ. -/
def payloadCount (tkind dq data flitBytes : Nat) : Nat :=
  if [1, 3, 4].contains tkind then min data flitBytes
  else if [12, 14].contains tkind then min (bits dq 1 13) flitBytes
  else if tkind = 16 then min (bits data 32 16) flitBytes
  else flitBytes

/-- The packet as its endpoint takes it: the bytes of the payload that count. -/
def Packet.cut (p : Packet) : Packet := { p with payload := p.payload.take (payloadCount p.tkind p.dq p.data p.payload.length) }

/-- Read a packet from its bytes; a router keeps the payload's flits whole (11 R296). -/
def packetOf (bs : List Byte) : Packet :=
  let b0 := byteFld bs 0 1
  let b1 := byteFld bs 1 1
  let tf := byteFld bs 33 1
  { htype := bits b0 0 4, vc := bits b0 4 3, ovc := bits b1 0 3, escDown := b1.testBit 3, phase := bits b1 4 2
    rmode := bits b1 6 2, dst := byteFld bs 4 4 % 2 ^ 18, src := byteFld bs 8 4 % 2 ^ 18
    via := byteFld bs 12 4 % 2 ^ 18, tag := byteFld bs 16 2, ttl := byteFld bs 18 1 % 64
    block := byteFld bs 20 2 % 2 ^ 12, mask := byteFld bs 24 8, tkind := byteFld bs 32 1
    last := tf.testBit 0, guar := tf.testBit 1, poison := tf.testBit 2, retx := tf.testBit 3
    code := byteFld bs 34 1, step := byteFld bs 35 1, dq := byteFld bs 36 4, sq := byteFld bs 40 4
    psn := byteFld bs 44 4, addr := byteFld bs 48 8, data := byteFld bs 56 8
    payload := bs.drop 64 }

/-- Cut bytes into flits of 32. -/
def flitsOf : Nat → List Byte → List (List Byte)
  | 0, _ => []
  | n + 1, bs => bs.take 32 :: flitsOf n (bs.drop 32)

/-- The flits of a packet (11 R279). -/
def Packet.flits (p : Packet) : List (List Byte) := flitsOf p.len p.bytes

end Sys2Proof.Machine
end

