-- ==== Sys2Proof/Machine/Frames.lean ====
section
/-! DEFINITION. Frames on the line: the frame control word and its CRC, the codewords and the lanes (11 R273, R276–R278). -/

namespace Sys2Proof.Machine

/-! ## The frame control word (11 Table 11-2) -/

/-- One bit enters the register of the CRC-16 with polynomial 0x8BB7. -/
def crcBit (c : Nat) (b : Bool) : Nat :=
  let shifted := c * 2 % 65536
  if c.testBit 15 != b then shifted ^^^ 0x8BB7 else shifted

/-- One byte enters, bit 0 first (11 R278). -/
def crcByte (c : Nat) (b : Byte) : Nat := (List.range 8).foldl (fun c i => crcBit c (b.getLsbD i)) c

/-- Bytes enter the register in order; each value is taken before the next byte enters. -/
def crcFrom (c : Nat) : List Byte → Nat
  | [] => c
  | b :: bs => match crcByte c b with
    | 0 => crcFrom 0 bs
    | n + 1 => crcFrom (n + 1) bs

/-- The CRC-16 of bytes in the order in which they enter the encoder (11 R276, R278). DESIGN CHOICE (log 79): the register starts at 0
and its final value is sent as it is. -/
def crc16 (bs : List Byte) : Nat := crcFrom 0 bs

/-- The CRC over the slot bytes and FCW [23:0]. -/
def frameCrc (slots : List (List Byte)) (low : Nat) : Nat := crc16 (slots.flatten ++ leBytes 3 low)

def frameSeq (f : FrameBody) : Nat := bits f.fcw.toNat 0 12
def frameFirst (f : FrameBody) : Nat := bits f.fcw.toNat 12 6

/-- The CRC-16 of a received frame holds (11 R273). -/
def frameCrcOk (f : FrameBody) : Bool := frameCrc f.slots (f.fcw.toNat % 2 ^ 24) == bits f.fcw.toNat 24 16

/-- A full frame of the transmitter with its control word; `again`: the frame is a replay (11 Table 11-2). -/
def TxFrame.body (f : TxFrame) (again : Bool) : FrameBody :=
  let low := f.fseq % 4096 + f.firstHdr * 2 ^ 12 + (if again then 2 ^ 18 else 0)
  { fcw := BitVec.ofNat 40 (low + frameCrc f.slots low * 2 ^ 24), slots := f.slots }

/-- The 1 285 message bytes of a frame (11 R276). -/
def frameBytes (f : FrameBody) : List Byte := f.slots.flatten ++ leBytes 5 f.fcw.toNat

/-! ## Codewords and lanes (11 R273, R278). PRESUMED (log 84): the field and the generator of IEEE 802.3 clause 91. -/

/-- Multiply by x in GF(2^10) with x^10 + x^3 + 1. -/
def gfStep (a : Nat) : Nat := if a.testBit 9 then (a * 2) % 1024 ^^^ 9 else a * 2

/-- The product of two symbols. -/
def gfMul : Nat → Nat → Nat → Nat
  | 0, _, _ => 0
  | n + 1, a, b => (if b.testBit 0 then a else 0) ^^^ gfMul n (gfStep a) (b / 2)

/-- The coefficients of (x − α^0)…(x − α^29) below the leading one, highest first. -/
def rsGenerator : List Nat :=
  ((List.range 30).foldl (fun (e : List Nat × Nat) _ =>
    (List.zipWith (fun a b => a ^^^ gfMul 10 b e.2) (e.1 ++ [0]) (0 :: e.1), gfStep e.2)) ([1], 1)).1.drop 1

/-- The 30 parity symbols of RS(544,514). -/
def rsParity (message : List Nat) : List Nat :=
  message.foldl (fun reg m =>
    let f := m ^^^ reg.headD 0
    List.zipWith (fun r g => r ^^^ gfMul 10 f g) (reg.drop 1 ++ [0]) rsGenerator) (List.replicate 30 0)

/-- The 544 symbols of a frame's codeword 0 or 1: 10 bits each, the first bit the lowest. -/
def frameCodeword (f : FrameBody) (k : Nat) : List Nat :=
  let n := leNat (frameBytes f)
  let message := (List.range 514).map fun i => n / 2 ^ (10 * (514 * k + i)) % 1024
  message ++ rsParity message

/-- The active lanes of a mask, in ascending order. -/
def laneList (mask : Nat) : List Nat := (List.range 8).filter fun i => mask.testBit i

/-- Deal the symbols of each codeword round-robin to the active lanes in ascending order (11 R278). -/
def dealFrame (f : FrameBody) (lanes : Nat) : Tab (List Nat) :=
  let ls := laneList lanes
  ls.zipIdx.map fun e =>
    (e.1, [0, 1].flatMap fun k => ((frameCodeword f k).zipIdx.filter fun x => x.2 % ls.length == e.2).map (·.1))

/-! ## Slots (11 R277, R279) -/

/-- The slot at a position counted from slot 0 of the first frame after training is a control slot (11 R277). -/
def controlAt (width n : Nat) : Bool := width != 0 && n % (10 * width) == 0

/-- The data slots of frame `n`, with their numbers. -/
def dataSlots (width n : Nat) (slots : List (List Byte)) : List (List Byte × Nat) :=
  slots.zipIdx.filter fun e => !controlAt width (40 * n + e.2)

/-- How many packets begin in data slots, of which the first `left` end a packet that began before (11 R279). -/
def countStarts : Nat → List (List Byte) → Nat
  | _, [] => 0
  | 0, x :: xs => if byteFld x 0 1 % 16 = 0 then countStarts 0 xs else 1 + countStarts (max 2 (byteFld x 2 2) - 1) xs
  | k + 1, _ :: xs => countStarts k xs

/-- A frame with one more slot: `header`, the slot begins a packet (11 Table 11-2). -/
def TxFrame.add (f : TxFrame) (slot : List Byte) (header : Bool) : TxFrame :=
  { f with
    slots := f.slots ++ [slot]
    firstHdr := if header && f.firstHdr == 63 then f.slots.length else f.firstHdr
    starts := f.starts + (if header then 1 else 0) }

/-- The packets of frames that are given up: those that begin in them, and the one that the first was inside. -/
def packetsIn (fs : List TxFrame) : Nat :=
  sumNat (fs.map (·.starts)) + (match fs with
    | f :: _ => if f.midway then 1 else 0
    | [] => 0)

end Sys2Proof.Machine
end

