-- ==== Sys2Proof/Machine/VoidOps.lean ====
section
/-! DEFINITION. Voiding the promises of admitted work (01 R36, 12 R332, 19 R503). -/

namespace Sys2Proof.Machine

/-- One update of a batch's status word: SEQ_BEGIN, the fields, SEQ_END (08 R226). -/
def State.updateStatus (s : State) (addr : Nat) (f : List Byte → List Byte) : State :=
  let d := (s.memRead addr 64).data
  let d := f (setByteFld d 0 8 (byteFld d 0 8 + 1))
  s.memWrite addr (setByteFld d 56 8 (byteFld d 56 8 + 1))

/-- Set bits of FLAGS in a status word (08 Table 8-8). -/
def orFlags (d : List Byte) (m : Nat) : List Byte := setByteFld d 44 4 (byteFld d 44 4 ||| m)

/-- Void the promise of admitted engine work: VOIDED is set in its status word (01 R36, 08 R231). -/
def State.voidWork (s : State) (p : EngineWork → Bool) : State :=
  let s := (s.work.filter fun w => p w && !w.allVoid).foldl (fun s w => s.updateStatus w.status fun d => orFlags d 2) s
  { s with work := s.work.map fun w => if p w then { w with allVoid := true, keeps := [] } else w }

/-- The quay of a queue (12 R310). -/
def quayOf (q : Nat) : Nat := if q < 131072 then 0 else 1

/-- The quay of a group (13 Groups). -/
def groupQuay (g : Nat) : Nat := if g < 2048 then 0 else 1

/-- Add to a quay counter QY_CNT_k (12 Table 12-10). -/
def State.quayCount (s : State) (quay k n : Nat) : State := s.addWrap (.quay quay) (0x100 + 8 * k) 0 64 n

/-- An admitted operation that has not ended and whose promise stands (19 R503). -/
def QuayOp.promised (o : QuayOp) : Bool := o.admitted && o.void == 0 && o.status.isNone

/-- Void the promises of the operations of one queue that satisfy a test, counting them. -/
def State.voidQueueOps (s : State) (q cause : Nat) (p : QuayOp → Bool) : State :=
  let r := s.quayQueue q
  let n := (r.ops.filter fun o => o.promised && p o).length
  (s.setQuayQueue q { r with ops := r.ops.map fun o => if o.promised && p o then { o with void := cause } else o }).quayCount
    (quayOf q) 5 n

/-- The class 1 operation of a group whose promise stands. -/
def CollOp.promised (o : CollOp) : Bool := o.admitted && o.void == 0 && o.status.isNone

/-- Void the promise of a group's operation that satisfies a test (13 R367). -/
def State.voidGroupOp (s : State) (g cause : Nat) (p : CollOp → Bool) : State :=
  let r := s.group g
  match r.op with
  | some o => if o.promised && p o then
      (s.setGroup g { r with op := some { o with void := cause } }).quayCount (groupQuay g) 5 1 else s
  | none => s

/-- Void every admitted quay operation and class 1 step that satisfies the tests. -/
def State.voidQuays (s : State) (cause : Nat) (p : QuayOp → Bool) (g : CollOp → Bool) : State :=
  let s := (Tab.keys s.quays).foldl (fun s q => s.voidQueueOps q cause p) s
  (Tab.keys s.groups).foldl (fun s i => s.voidGroupOp i cause g) s

/-- Void every promise of the node with one cause (12 R332). -/
def State.voidAllQuays (s : State) (cause : Nat) : State := s.voidQuays cause (fun _ => true) (fun _ => true)

/-- Void the promises booked on a port (12 Table 12-8, cause LINK). -/
def State.voidPort (s : State) (p : Nat) : State :=
  s.voidQuays 1 (fun o => o.port == p) (fun o => o.slots.any fun t => t.1 == p)

/-- Some admitted guaranteed transfer has not ended. -/
def State.guaranteedOpen (s : State) (p : QuayOp → Bool) : Bool :=
  s.quays.any fun e => e.2.ops.any fun o => o.admitted && o.status.isNone && p o

/-- Some deadlined work is admitted on the node (02 R42, R54). -/
def State.deadlined (s : State) : Bool :=
  !s.work.isEmpty || s.guaranteedOpen (fun _ => true)
    || s.groups.any fun e => match e.2.op with
        | some o => o.admitted && o.status.isNone
        | none => false

end Sys2Proof.Machine
end

