-- ==== Sys2Proof/Machine/LinkOps.lean ====
section
/-! DEFINITION. Ports, hop credits and routing (11 R284–R307). -/

namespace Sys2Proof.Machine

/-- PORT_STATUS.STATE: 0 DOWN, 1 TRAINING, 2 UP, 3 HOLD, 4 FENCING, 5 PEER_FENCED (11 Table 11-6). -/
def State.portState (s : State) (p : Nat) : Nat := s.fldAt (.port p) 0x008 0 3
def State.setPortState (s : State) (p v : Nat) : State := s.putFld (.port p) 0x008 0 3 v
def State.portUp (s : State) (p : Nat) : Bool := s.portState p == 2
def State.portCfg (s : State) (p i : Nat) : Bool := s.bitAt (.port p) 0x000 i
/-- Link-level retry is in use (11 R274). -/
def State.portRetry (s : State) (p : Nat) : Bool := s.bitAt (.port p) 0x008 4
def State.portWidth (s : State) (p : Nat) : Nat := s.fldAt (.port p) 0x008 8 4
/-- Port 15 with HOST = 1 (11 R307). -/
def State.hostPort (s : State) (p : Nat) : Bool := p == 15 && s.portCfg 15 5

/-- The node's NGI (11 SELF_NGI). -/
def State.selfNgi (s : State) : Nat := s.fldAt .router 0x010 0 18

/-- The ports of the node. -/
def allPorts : List Nat := List.range 16

/-! ## Dropping and delivering -/

/-- Drop a packet: counted by cause, captured where DROP_CAP is empty (11 R304). -/
def State.dropPkt (s : State) (cause : Nat) (pkt : Packet) (port : Nat) : State :=
  let s := s.addSat .router (0x040 + 8 * cause) 0 32 1
  if s.bitAt .router 0x028 63 then s
  else s.putN .router 0x028
    (pkt.dst + pkt.tag * 2 ^ 18 + port % 16 * 2 ^ 34 + cause * 2 ^ 38 + pkt.vc * 2 ^ 41 + 2 ^ 63)

/-- The quay that a packet's transport header names (11 R300). Tray requests go to the quay of the port's FD; their
answers name the asking quay in DQ. -/
def deliverQuay (pkt : Packet) (port : Nat) : Nat :=
  if 16 ≤ pkt.tkind then groupQuay (pkt.dq % 4096)
  else if [11, 12, 13].contains pkt.tkind then port % 16 / 8
  else if pkt.tkind = 14 ∨ (pkt.tkind = 15 ∧ 11 ≤ pkt.data) then pkt.dq % 2
  else quayOf (pkt.dq % 2 ^ 18)

/-- Deliver a packet to its quay (11 R300); one of a reserved transport kind is discarded there. Of one that came over a link the bytes of
the payload that count are taken. -/
def State.deliverPkt (s : State) (pkt : Packet) (port : Nat) : State :=
  if pkt.tkind = 0 ∨ 19 < pkt.tkind then s
  else { s with arrived := s.arrived ++ [(deliverQuay pkt port, if port < 16 then pkt.cut else pkt)] }

/-- A packet of a host port goes to the bridge (14 R387). -/
def State.toBridge (s : State) (pkt : Packet) : State := { s with hostIn := s.hostIn ++ [pkt.cut] }

/-! ## Routes (11 R298–R302) -/

/-- The active route-table bank (11 RTR_BANK). -/
def State.bank (s : State) : Nat := s.fldAt .router 0x000 0 1

/-- The route-table entry of an NGI in a bank (11 Table 11-10). -/
def State.routeEntry (s : State) (bank ngi : Nat) : Nat :=
  s.fldAt .routeTable (bank * 0x10_0000 + ngi / 2 * 8) (32 * (ngi % 2)) 32

/-- The UP ports of a route entry, in ascending order; never the host port (11 R307). -/
def State.upPorts (s : State) (e : Nat) : List Nat := allPorts.filter fun p => e.testBit p && s.portUp p && !s.hostPort p

/-- Credits of a VC at a port, in flits (11 R289). -/
def State.credits (s : State) (p vc : Nat) : Nat := Tab.get 0 (s.port p).credits vc

/-- The credits of a VC that the packets queued for the port leave, so that a packet keeps its input buffer until it can start (11 R289). -/
def State.spare (s : State) (p vc : Nat) : Nat :=
  s.credits p vc - sumNat (((s.port p).egress.filter fun w => w.pkt.vc == vc).map fun w => w.pkt.len)

/-- The port with most credits; ties go to the lowest (11 R300). -/
def State.mostCredits (s : State) (vc : Nat) (ps : List Nat) : Option Nat :=
  leastBy (fun p => 2 ^ 40 - s.credits p vc) ps

/-- What the router does with a packet (11 R300). -/
inductive Hop where
  | drop (cause : Nat)
  | deliver (pkt : Packet)
  | send (pkt : Packet) (port : Nat)
  deriving DecidableEq, Repr

/-- A packet of this VC may escape to VC7 (11 Table 11-7). -/
def mayEscape (pkt : Packet) : Bool := pkt.htype == 1 && pkt.vc != 1 && pkt.vc != 7

/-- Escape: OVC takes the VC, and the packet stays on VC7 to DST (11 R303). -/
def Packet.escaped (pkt : Packet) : Packet := { pkt with ovc := pkt.vc, vc := 7, phase := 1, escDown := false }

/-- A packet on VC7 (11 R300). -/
def routeEscape (e : Nat) (pkt : Packet) : Hop :=
  if e.testBit 25 then .send pkt (bits e 20 4)
  else if !pkt.escDown && e.testBit 24 then .send pkt (bits e 16 4)
  else .drop 3

/-- Entering the destination phase at VIA (11 R300). -/
def State.phased (s : State) (pkt : Packet) : Packet :=
  if pkt.phase = 0 ∧ pkt.via = s.selfNgi then { pkt with phase := 1 } else pkt

/-- The node a packet heads for. -/
def Packet.target (pkt : Packet) : Nat := if pkt.phase = 0 then pkt.via else pkt.dst

/-- Route a packet that is no multicast packet, by the bank active when its header arrived (11 R299, R300). -/
def State.routePkt (s : State) (pkt0 : Packet) (bank : Nat) : Hop :=
  let pkt := s.phased pkt0
  let e := s.routeEntry bank pkt.target
  if pkt.ttl = 0 then .drop 0
  else if !e.testBit 27 then .drop 1
  else if e.testBit 26 then .deliver pkt
  else if pkt.vc = 7 then routeEscape e pkt
  else
    let cs := s.upPorts e
    if cs.isEmpty then
      (if mayEscape pkt then
        let q := pkt.escaped
        let f := s.routeEntry bank q.dst
        if !f.testBit 27 then .drop 1 else if f.testBit 26 then .deliver q else routeEscape f q
       else .drop 1)
    else
      match (if pkt.rmode = 1 then cs[Config.routeHash pkt.src pkt.dst % cs.length]? else s.mostCredits pkt.vc cs) with
      | some p => .send pkt p
      | none => .drop 1

/-- The packet as it leaves on a port, or none where the crossing is against the up-down order (11 R302). -/
def State.crossing (s : State) (pkt : Packet) (p : Nat) : Option Packet :=
  let ordered := pkt.vc = 7 ∨ pkt.htype = 2
  let up := s.portCfg p 4
  if ordered ∧ up ∧ pkt.escDown then none
  else some { pkt with ttl := pkt.ttl - 1, escDown := if ordered ∧ !up then true else pkt.escDown }

/-- The router may send a packet on a port: in the up-down order, and not through a host port (11 R302, R307). -/
def State.mayCross (s : State) (pkt : Packet) (p : Nat) : Bool := !s.hostPort p && (s.crossing pkt p).isSome

/-- Queue a packet for a port (11 R300). -/
def State.queuePkt (s : State) (p : Nat) (w : Waiting) : State :=
  s.setPort p { s.port p with egress := (s.port p).egress ++ [w] }

/-! ## Input buffers (11 R289, R305) -/

/-- A VC's flits that leave the receiver's on-die buffer are freed (11 R289). -/
def State.freeFlits (s : State) (p v n : Nat) : State :=
  let r := s.port p
  s.setPort p { r with freed := Tab.set 0 r.freed v (Tab.get 0 r.freed v + n), onDie := Tab.set 0 r.onDie v (Tab.get 0 r.onDie v - n) }

/-- Some copy of the same multicast packet still waits (11 R305). -/
def State.copyWaits (s : State) (w : Waiting) : Bool :=
  w.copy.isSome && allPorts.any fun p => (s.port p).egress.any fun x => x.port == w.port && x.copy == w.copy

/-- A packet has left the router: its input flits are freed, those of a multicast packet with the last copy (11 R289, R305). -/
def State.release (s : State) (w : Waiting) : State :=
  if w.port < 16 && !w.void && !s.copyWaits w then s.freeFlits w.port w.inVc w.pkt.len else s

/-- The credits of what arrived on a port are void: its flits are counted freed no more (11 R290). -/
def State.voidCredits (s : State) (p : Nat) : State :=
  let mark := fun w : Waiting => if w.port = p then { w with void := true } else w
  let s := (Tab.keys s.ports).foldl (fun (s : State) q =>
    s.setPort q { s.port q with input := (s.port q).input.map mark, egress := (s.port q).egress.map mark }) s
  s.setPort p { s.port p with credits := [], sent := [], received := [], freed := [], seen := [], onDie := [] }

/-- Drop a packet that waits, and free what it holds. -/
def State.dropWaiting (s : State) (cause : Nat) (w : Waiting) : State := (s.dropPkt cause w.pkt w.port).release w

/-- Send a packet on a port, or drop it with ESC_BAD. -/
def State.sendOn (s : State) (w : Waiting) (p : Nat) : State :=
  if s.mayCross w.pkt p then s.queuePkt p w else s.dropWaiting 3 w

/-- Count an escape at the input port (11 ESC_PKTS). -/
def State.countEscape (s : State) (inPort vc : Nat) : State :=
  if inPort < 16 then s.addWrap (.port inPort) (0x180 + 8 * vc) 0 64 1 else s

/-- Route a packet and queue it where it is sent, without waiting for credit: one of the node's own quays (16), one that escapes, or one that
a port gave up. -/
def State.forward (s : State) (w : Waiting) : State :=
  match s.routePkt w.pkt w.bank with
  | .drop c => s.dropWaiting c w
  | .deliver q => (s.deliverPkt q w.port).release w
  | .send q p => (if q.vc = 7 && w.pkt.vc ≠ 7 then s.countEscape w.port w.pkt.vc else s).sendOn { w with pkt := q } p

/-! ## Injection (11 R301) -/

/-- Entry `i` of a packed set of NGIs. -/
def State.packedNgi (s : State) (base i : Nat) : Nat := s.fldAt .router (base + i / 2 * 8) (32 * (i % 2)) 18

/-- Site of an NGI (11 Table 11-8). -/
def siteOf (ngi : Nat) : Nat := ngi / 2 ^ 15

/-- VIA and PHASE of a packet that a quay injects (11 R301), with the free draw used where the choice is random. -/
def State.viaOf (s : State) (pkt : Packet) : Packet :=
  let site := siteOf pkt.dst
  let gw := s.fldAt .router 0x020 (8 * site) 7
  let ints := s.fldAt .router 0x018 0 11
  let rnd := (Config.freeWord s.draws).toNat
  if site ≠ siteOf s.selfNgi then
    (if gw = 0 then { pkt with phase := 1 }
     else
      let j := (if pkt.rmode = 1 then Config.routeHash s.selfNgi pkt.dst else rnd) % gw
      { pkt with phase := 0, via := s.packedNgi 0x2000 (64 * site + j) })
  else if pkt.rmode = 2 ∧ ints ≠ 0 then
    let v := s.packedNgi 0x1000 (rnd % ints)
    { pkt with via := v, phase := if v = s.selfNgi ∨ v = pkt.dst then 1 else 0 }
  else { pkt with phase := 1 }

/-- A quay injects a packet: SRC, OVC, TTL, VIA and PHASE are set and the packet is routed (11 R296, R301). -/
def State.inject (s : State) (pkt : Packet) (weighted : Bool := false) : State :=
  let p := s.viaOf { pkt with src := s.selfNgi, ovc := pkt.vc, ttl := 63, escDown := false }
  (s.drawn).forward { pkt := p, port := 16, since := s.clock, bank := s.bank, weighted := weighted }

/-! ## The input side of a port -/

/-- On-die share of a VC in flits (11 R289). -/
def State.onDieCap (s : State) (p v : Nat) : Nat := s.fldAt (.port p) 0x020 (8 * v) 8 * 256

/-- MiB of basin of a VC (11 BASIN_SPLIT). -/
def State.basinMib (s : State) (p v : Nat) : Nat :=
  if 2 ≤ v ∧ v ≤ 6 then s.fldAt (.port p) 0x030 (12 * (v - 2)) 12 else 0

/-- CAP_v in units of 8 KiB (11 R289). -/
def State.capUnits (s : State) (p v : Nat) : Nat :=
  s.fldAt (.port p) 0x020 (8 * v) 8 + (if s.portCfg p 2 then s.basinMib p v * 128 else 0)

/-- The first byte of a VC's part of the basin (11 R293). -/
def State.basinBase (s : State) (p v : Nat) : Nat :=
  s.fldAt (.port p) 0x028 0 48 + sumNat ((List.range v).map fun u => s.basinMib p u) * 2 ^ 20

/-- Show the basin occupancy of a VC in KiB and its highest (11 BASIN_OCC_v, 19 R502). -/
def State.showBasin (s : State) (p v : Nat) : State :=
  let occ := Tab.get 0 (s.port p).basin v * 32 / 1024
  let s := s.putFld (.port p) (0x1C0 + 8 * v) 0 32 occ
  if s.fldAt (.port p) (0x1C0 + 8 * v) 32 32 < occ then s.putFld (.port p) (0x1C0 + 8 * v) 32 32 occ else s

/-- The HBM address of the n-th flit that a VC spilled. -/
def State.basinFlit (s : State) (p v n : Nat) : Nat :=
  s.basinBase p v + n * 32 % max 32 (s.basinMib p v * 2 ^ 20)

/-- Write the spilled flits whose channels answer, in order: a write that waits holds those behind it (11 R294). -/
def flushList : List (Nat × List Byte) → State → State × List (Nat × List Byte)
  | [], s => (s, [])
  | e :: rest, s => if s.hbmWaits e.1 e.2.length then (s, e :: rest) else flushList rest (s.memWrite e.1 e.2)

/-- The spill path of a port goes on (11 R294). -/
def State.flushSpills (s : State) (p : Nat) : State :=
  if (s.port p).spills.isEmpty then s
  else
    let r := flushList (s.port p).spills s
    r.1.setPort p { r.1.port p with spills := r.2 }

/-- A flit goes into the basin: one HBM write (11 R293), which waits for a HELD channel (11 R294). -/
def State.spill (s : State) (p v : Nat) (flit : List Byte) : State :=
  let r := s.port p
  let n := Tab.get 0 r.spilled v
  let s := s.setPort p { r with
    spilled := Tab.set 0 r.spilled v (n + 1), basin := Tab.set 0 r.basin v (Tab.get 0 r.basin v + 1), partDeep := r.partDeep + 1
    spills := r.spills ++ [(s.basinFlit p v n, flit)] }
  (s.flushSpills p).showBasin p v

/-- An arriving flit of a VC stays on die, or goes into the basin where the on-die share is full or the basin part is not empty (11 R293). -/
def State.placeFlit (s : State) (p v : Nat) (flit : List Byte) : State :=
  let r := s.port p
  if s.portCfg p 2 && s.basinMib p v != 0 && (decide (s.onDieCap p v ≤ Tab.get 0 r.onDie v) || Tab.get 0 r.basin v != 0) then s.spill p v flit
  else s.setPort p { r with onDie := Tab.set 0 r.onDie v (Tab.get 0 r.onDie v + 1) }

/-- The boundary filter of a port (11 R306, R307): the cause of a drop. -/
def State.filterPkt (s : State) (p : Nat) (pkt : Packet) : Option Nat :=
  let host := s.hostPort p
  if host && !([0, 5, 6].contains pkt.vc) then some 4
  else if s.portCfg p 3 || host then
    (if pkt.tag = 0 then (if pkt.vc = 0 then none else some 2)
     else if bit (s.laggedReg (blockBase .router + 0x1_0000 + 8 * (pkt.tag / 64))) (pkt.tag % 64) then none else some 2)
  else none

/-- Flits of a packet that is discarded at the receiver return their credits (11 R290, R294): `deep` of its `n` flits stand in the basin. -/
def State.discardFlits (s : State) (p v n deep : Nat) (tail : Bool) : State :=
  let r := s.port p
  let s := s.setPort p { r with
    freed := Tab.set 0 r.freed v (Tab.get 0 r.freed v + n), onDie := Tab.set 0 r.onDie v (Tab.get 0 r.onDie v - (n - deep))
    basin := Tab.set 0 r.basin v (Tab.get 0 r.basin v - deep)
    spilled := if tail then Tab.set 0 r.spilled v (Tab.get 0 r.spilled v - deep) else r.spilled
    spills := if tail then r.spills.take (r.spills.length - deep) else r.spills
    filled := if tail then r.filled else Tab.set 0 r.filled v (Tab.get 0 r.filled v + deep) }
  if deep = 0 then s else s.showBasin p v

/-- The VC of the packet that a port partly holds. -/
def PortRun.partVc (r : PortRun) : Nat := bits (byteFld r.partial_ 0 1) 4 3

/-- The receiver gives up a packet partly received (11 R274). -/
def State.dropPartial (s : State) (p : Nat) : State :=
  let r := s.port p
  if r.partial_.isEmpty then s
  else
    let s := s.discardFlits p r.partVc (r.partial_.length / 32) r.partDeep true
    s.setPort p { s.port p with partial_ := [], partDeep := 0, partBad := false }

/-- A whole packet has arrived at a port (11 R279); one of which a flit read poisoned is discarded (11 R294). -/
def State.arrivePkt (s : State) (p : Nat) : State :=
  let r := s.port p
  let v := r.partVc
  let s := s.setPort p { r with
    partial_ := [], partDeep := 0, partBad := false
    input := if r.partBad then r.input else r.input ++ [{ pkt := packetOf r.partial_, port := p, since := s.clock, inVc := v,
                                                          inBasin := r.partDeep, bank := r.header.1, bad := r.header.2 }] }
  if r.partBad then (s.discardFlits p v (r.partial_.length / 32) r.partDeep false).addWrap (.port p) 0x068 0 64 1 else s

/-- A flit of a data slot (11 R279): an IDLE flit between packets, or one more flit of a packet, which is counted as received and placed. What a
header meets is taken as it arrives (11 R299, R306). -/
def State.takeFlit (p : Nat) (s : State) (flit : List Byte) : State :=
  let r := s.port p
  if r.partial_.isEmpty && byteFld flit 0 1 % 16 == 0 then s
  else
    let bs := r.partial_ ++ flit
    let v := bits (byteFld bs 0 1) 4 3
    let s := s.setPort p { r with
      partial_ := bs, header := if r.partial_.isEmpty then (s.bank, s.filterPkt p (packetOf flit)) else r.header
      received := Tab.set 0 r.received v (Tab.get 0 r.received v + 1) }
    let s := s.placeFlit p v flit
    if max 2 (byteFld bs 2 2) * 32 ≤ bs.length then s.arrivePkt p else s

/-- The packet at the head of an input VC, and the others: a multicast packet or one that R300 routes, with every flit on die. -/
def takeHead (vc : Nat) (multi : Bool) : List Waiting → Option (Waiting × List Waiting)
  | [] => none
  | w :: ws =>
    if w.inVc = vc then (if (w.pkt.htype == 2) = multi ∧ w.inBasin = 0 then some (w, ws) else none)
    else match takeHead vc multi ws with
      | some (x, rest) => some (x, w :: rest)
      | none => none

/-- Take a packet out of a port's input; it keeps its buffer. -/
def State.takeInput (s : State) (p : Nat) (rest : List Waiting) : State := s.setPort p { s.port p with input := rest }

/-- Take a packet out of a port's input and free its flits. -/
def State.popInput (s : State) (p : Nat) (rest : List Waiting) (w : Waiting) : State := (s.takeInput p rest).release w

/-! ## Entering DOWN (11 R285) -/

/-- The basin of a port is discarded: occupancy reads 0 from then on (19 R502). -/
def State.emptyBasin (s : State) (p : Nat) : State :=
  let s := s.setPort p { s.port p with basin := [], spilled := [], filled := [], spills := [] }
  (List.range 8).foldl (fun s v => s.showBasin p v) s

/-- The packets that an entry into DOWN discards: those partly sent, the one partly received, and those with a flit in the basin (11 R285, 19 R502). -/
def PortRun.discarded (r : PortRun) : Nat :=
  packetsIn (r.replay ++ [r.filling]) + (if r.partial_.isEmpty then 0 else 1) + (r.input.filter fun w => w.inBasin != 0).length

/-- A port leaves service (11 R285, R290, 19 R502, R504): its replay buffer and packets partly sent or received are lost, credits are void, the basin
is discarded and the packets queued for it are routed again; copies of multicast packets stay queued, since the masks name the port. -/
def State.dropPort (s : State) (p newState : Nat) : State :=
  let r := s.port p
  let s := s.setPort p { r with
    replay := [], resend := [], filling := {}, partial_ := [], partDeep := 0, partBad := false, nak := false, badRun := 0, resync := false
    egress := r.egress.filter fun w => w.copy.isSome, input := r.input.filter fun w => w.inBasin == 0
    syncSent := false, syncSeen := false, control := [], tried := none }
  let s := ((s.voidCredits p).emptyBasin p).addWrap (.port p) 0x068 0 64 r.discarded
  let s := (s.setPortState p newState).voidPort p
  (r.egress.filter fun w => w.copy.isNone).foldl (fun s w =>
    s.forward { w with void := w.void || w.port == p, weighted := w.weighted || (w.port == 16 && w.pkt.guar) }) s

/-- An entry into DOWN that is a fault: LINK_DOWN (11 R285, 15 Table 15-2). -/
def State.linkDown (s : State) (p : Nat) : State :=
  (((s.dropPort p 0).putBit (.port p) 0x048 0 true).lifeAdd (0x5000 + 32 * p + 4) 4 1).report 0x11 (some (448 + p))
    (portDetail p 0)

/-! ## Width (11 R286) -/

/-- Number of ones in the low 8 bits. -/
def popcount8 (n : Nat) : Nat := ((List.range 8).filter fun i => n.testBit i).length

/-- Data-slot bytes of a port in an interval of ns, times 544 (11 Table 11-3). -/
def slotBytes544 (width ns : Nat) : Nat := if width = 0 then 0 else ns * (1280 * (10 * width - 1))

/-- The VC0 token bucket refilled to now (11 R288). -/
def State.bucketNow (s : State) (p : Nat) : Nat :=
  let r := s.port p
  let fill := slotBytes544 (s.portWidth p) (s.clock - r.bucketAt) * s.fldAt (.port p) 0x018 0 8 / 544000
  min 4096 (r.bucket + fill)

/-- Settle the token bucket before its rate changes (11 R288, R309). -/
def State.settleBucket (s : State) (p : Nat) : State := s.setPort p { s.port p with bucket := s.bucketNow p, bucketAt := s.clock }

/-- Set the active lanes of a port. -/
def State.setLanes (s : State) (p lanes : Nat) : State :=
  ((s.settleBucket p).putFld (.port p) 0x008 16 8 lanes).putFld (.port p) 0x008 8 4 (popcount8 lanes)

def State.lanes (s : State) (p : Nat) : Nat := s.fldAt (.port p) 0x008 16 8

/-- Take a lane out of the active set: LINK_LANE, and DOWN below MIN_WIDTH (11 R286). -/
def State.loseLane (s : State) (p lane : Nat) : State :=
  if (s.lanes p).testBit lane then
    let s := ((s.setLanes p (s.lanes p - 2 ^ lane)).putBit (.port p) 0x048 1 true).report 0x10 none (portDetail p lane)
    let s := s.lifeAdd (0x5000 + 32 * p + 8) 4 1
    if s.portWidth p < s.fldAt (.port p) 0x000 8 4 then s.linkDown p else s
  else s

end Sys2Proof.Machine
end

