-- ==== Sys2Proof/Machine/EgressOps.lean ====
section
/-! DEFINITION. What a port sends: control slots, frames and the choice of packets (11 R274–R283, R288), and training (11 R284). -/

namespace Sys2Proof.Machine

/-! ## Levels, names and advertised capacity (14 R398, R399, 17 R464, R465) -/

/-- The operating level (14 HM_STATUS.OP_LEVEL). -/
def State.opLevel (s : State) : Nat := s.fldAt .harbour 0x00 8 16
/-- The largest MIN_LEVEL of the running images (14 R399). -/
def State.minOp (s : State) : Nat := ((List.range 9).map fun i => s.fldAt .boot (0x040 + 8 * i) 32 16).foldl max 0
/-- The node is in LIMITED mode (14 R398). -/
def State.limited (s : State) : Bool := s.bitAt .harbour 0x00 2
/-- The node has been named by SET_NGI since its last cold start (17 R464). -/
def State.named (s : State) : Bool := s.bitAt .boot 0x000 4
/-- The tray ports (17 R465). -/
def trayPort (p : Nat) : Bool := decide (p ≤ 3) || (decide (8 ≤ p) && decide (p ≤ 10))
/-- The port of tray link k (17 R465). -/
def linkPort (k : Nat) : Nat := if k ≤ 3 then k else k + 4

/-- The bank that an instance runs: the one on trial, else the one chosen at the start or confirmed since; 2 the ROM default. -/
def ImageBank.runs (i : ImageBank) : Nat := i.trial.getD i.boot

/-- The image in a bank; none for the ROM default. -/
def ImageBank.image (i : ImageBank) (bank : Nat) : List Byte := if bank = 0 then i.bankA else if bank = 1 then i.bankB else []

/-- The port's FD runs the ROM default of its link DSPs, which carries VC0 and tide only (17 R455, Table 17-3). -/
def State.romDsp (s : State) (p : Nat) : Bool := let i := s.image (7 + p / 8); (i.image i.runs).isEmpty

/-- The port carries VC2–VC7: the node is not in LIMITED mode, and the port's DSPs do not run their ROM default (14 R398, 17 R455). -/
def State.carriesData (s : State) (p : Nat) : Bool := !s.limited && !s.romDsp p

/-- The port is limited by its neighbour's level (14 R399). -/
def State.portLimited (s : State) (p : Nat) : Bool := (s.port p).limited || (s.port p).zeroCap

/-- Show a port's limited status (14 HM_STATUS.PORT_LIMITED). -/
def State.showLimited (s : State) (p : Nat) : State := s.putBit .harbour 0x00 (24 + p) (s.portLimited p)

/-- The capacity that a port advertises at SYNC, in units of 8 KiB (11 R289, 14 R398, R399, 17 R455, R464). -/
def State.advertised (s : State) (p v : Nat) : Nat :=
  if !s.named && !trayPort p && !s.hostPort p then 0
  else if (!s.carriesData p || (s.port p).limited) && decide (2 ≤ v) then 0
  else s.capUnits p v

/-- HELLO of a neighbour: NEIGHBOUR and the limited status (11 Table 11-13, 14 R399). -/
def State.takeHello (s : State) (p : Nat) (h : Hello) : State :=
  let s := s.putN (.port p) 0x038 (h.ngi.toNat + h.port.val * 2 ^ 20 + h.level.toNat * 2 ^ 32 + 2 ^ 63)
  s.setPort p { s.port p with limited := decide (h.level.toNat < s.minOp), light := h.light }

/-- Two NGIs lie in one tray: site, pod, rack and tray agree (01 R33). -/
def sameTray (a b : Nat) : Bool := a / 8 == b / 8

/-- Some byte of a port's basin lies on a lost channel (11 R294). -/
def State.basinLost (s : State) (p : Nat) : Bool :=
  let len := sumNat ((List.range 8).map fun v => s.basinMib p v)
  s.portCfg p 2 && len != 0 &&
    ((List.range (len / 1024 + 2)).any fun j =>
      let r := s.fldAt (.port p) 0x028 0 48 / 2 ^ 30 + j
      decide (r * 1024 < s.fldAt (.port p) 0x028 0 48 / 2 ^ 20 + len) &&
        bit (s.reg .regionTable (0x008 + 8 * (r / 64))) (r % 64))

/-- A port may train: enabled, its domain NORMAL or in SELFTEST, its basin not lost, the node not in the safe state
(11 R284, R294, 15 R409); in recovery mode only the tray ports and the host port (17 R450). -/
def State.mayTrain (s : State) (p : Nat) : Bool :=
  s.portCfg p 0 && (!s.bitAt .boot 0x000 5 || trayPort p || s.hostPort p) && (s.domainState (448 + p) == 0 || s.domainState (448 + p) == 2) && !s.basinLost p && !s.safe

/-! ## Control slots (11 R280, R283, R289, 17 R460) -/

/-- The bytes of a HELLO control slot (11 Table 11-4). -/
def helloBytes (p : Nat) (s : State) : List Byte :=
  leBytes 4 5 ++ leBytes 4 s.selfNgi ++ leBytes 1 p
    ++ leBytes 1 ((if s.portCfg p 1 then 1 else 0) + (if s.portCfg p 2 then 2 else 0)) ++ leBytes 2 s.opLevel
    ++ List.replicate 20 0

/-- The bytes of a CREDIT or AUDIT control slot (11 Table 11-4). -/
def countBytes (kind : Nat) (nak sync : Bool) (ack : Nat) (counts : List Nat) : List Byte :=
  leBytes 1 kind ++ leBytes 1 ((if nak then 1 else 0) + (if sync then 2 else 0)) ++ leBytes 2 (ack % 4096)
    ++ counts.flatMap (leBytes 2) ++ List.replicate 12 0

/-- The port sends frames: it is UP, in HOLD, FENCING or PEER_FENCED (11 Table 11-6). -/
def State.framing (s : State) (p : Nat) : Bool := [2, 3, 4, 5].contains (s.portState p)

/-- What the port's next control slot carries where it is no TIDE: in TRAINING a HELLO and then SYNC; in UP, HOLD and PEER_FENCED, CREDIT and
AUDIT in turn, where a HELLO that is due takes the place of an AUDIT; in FENCING, FENCE. -/
def State.nextControl (s : State) (p : Nat) : State :=
  let r := s.port p
  let ack := (r.rxFrames + 4095) % 4096
  if s.portState p = 1 then
    (if r.helloDue then s.setPort p { r with control := helloBytes p s, helloDue := false }
     else s.setPort p { r with
       control := countBytes 1 false true ack ((List.range 8).map fun v => s.advertised p v), syncSent := true })
  else if s.portState p = 4 then
    s.setPort p { r with control := leBytes 4 4 ++ leBytes 8 s.now ++ leBytes 12 0 ++ leBytes 4 s.selfNgi ++ leBytes 4 0 }
  else if s.framing p then
    (if r.auditDue then
      (if r.helloDue then s.setPort p { r with control := helloBytes p s, helloDue := false, auditDue := false }
       else s.setPort p { r with
         control := countBytes 2 r.nak false ack ((List.range 8).map fun v => Tab.get 0 r.sent v % 65536), auditDue := false })
     else s.setPort p { r with
       control := countBytes 1 r.nak false ack ((List.range 8).map fun v => Tab.get 0 r.freed v % 65536), auditDue := true })
  else s

/-! ## Frames (11 R274, R276–R279) -/

/-- A frame leaves on the active lanes. -/
def State.sendFrame (s : State) (p : Nat) (f : FrameBody) : State :=
  s.setPort p { s.port p with wire := some f, symbols := dealFrame f (s.lanes p) }

/-- The frame that fills is full: it leaves, and is kept for replay where retry is in use; `inside`: the next one begins inside a packet. -/
def State.closeFrame (s : State) (p : Nat) (inside : Bool) : State :=
  let r := s.port p
  let n := r.txFrames + 1
  let s := s.sendFrame p (r.filling.body false)
  s.setPort p { s.port p with
    txFrames := n, filling := { fseq := n % 4096, midway := inside }
    replay := if s.portRetry p then (r.replay ++ [r.filling]).drop (r.replay.length + 1 - 512) else [] }

/-- The number of the slot that is filled next, counted from slot 0 of the first frame after training (11 R277). -/
def State.slotNumber (s : State) (p : Nat) : Nat := 40 * (s.port p).txFrames + (s.port p).filling.slots.length

/-- Fill the next slot; `header`: it begins a packet; `inside`: a packet goes on after it. -/
def State.putSlot (s : State) (p : Nat) (slot : List Byte) (header inside : Bool) : State :=
  let f := (s.port p).filling.add slot header
  let s := s.setPort p { s.port p with filling := f }
  if 40 ≤ f.slots.length then s.closeFrame p inside else s

/-- Fill the data slots before the next control slot with IDLE flits (11 R279). -/
def State.idleFill (s : State) (p : Nat) : State :=
  let period := 10 * s.portWidth p
  (List.range ((period - s.slotNumber p % period) % period)).foldl (fun s _ => s.putSlot p (List.replicate 32 0) false false) s

/-- Fill a control slot with what is due. -/
def State.putControl (s : State) (p : Nat) (inside : Bool) : State :=
  let s := s.nextControl p
  s.putSlot p (s.port p).control false inside

/-- The flits of a packet fill the following data slots, skipping the control slots among them (11 R279); `header`: the first one is a header. -/
def sendFlits (p : Nat) : Bool → List (List Byte) → State → State
  | _, [], s => s
  | header, x :: xs, s =>
    let s := if controlAt (s.portWidth p) (s.slotNumber p) then s.putControl p !header else s
    sendFlits p false xs (s.putSlot p x header !xs.isEmpty)

/-- The first frame of a replay leaves again (11 R274). -/
def State.replayFrame (s : State) (p : Nat) (f : TxFrame) (rest : List TxFrame) : State :=
  (s.setPort p { s.port p with resend := rest }).sendFrame p (f.body true)

/-! ## Egress (11 R288) -/

/-- The guaranteed-class share of a port, in per cent (12 SHARE_p). -/
def State.shareOf (s : State) (p : Nat) : Nat := s.fldAt (.calendar (p / 8)) (8 * (p % 8)) 0 7

/-- Flits of the guaranteed class that a calendar period allows on a port (11 R288 step 3). -/
def State.guarFlits (s : State) (p : Nat) : Nat :=
  slotBytes544 (s.portWidth p) 102400 * s.shareOf p / (544 * 32 * 100)

/-- The first packet of a VC in an egress queue that has credit for its whole length (11 R288). -/
def State.firstOf (s : State) (p vc : Nat) (ok : Waiting → Bool) : Option Waiting :=
  match (s.port p).egress.find? fun w => w.pkt.vc == vc && ok w with
  | some w => if w.pkt.len ≤ s.credits p vc then some w else none
  | none => none

/-- The packet of VC7 that starts first: those whose OVC is 2 or 3 before the others (11 R303). -/
def State.firstEscape (s : State) (p : Nat) : Option Waiting :=
  match s.firstOf p 7 (fun w => w.pkt.ovc == 2 || w.pkt.ovc == 3) with
  | some w => some w
  | none => s.firstOf p 7 (fun _ => true)

/-- The quay whose groups share VC4 with a packet: that of a packet of this node's own group (13 R363). -/
def Waiting.shareQuay (w : Waiting) : Option Nat :=
  if w.port = 16 ∧ w.pkt.vc = 4 ∧ (w.pkt.tkind = 16 ∨ w.pkt.tkind = 19) then some (groupQuay (w.pkt.dq % 4096)) else none

/-- What the round robin of a quay's groups chooses: the packet, its group, and the counters after it. -/
structure Share where
  pkt     : Waiting
  group   : Nat
  deficit : Tab Nat
  deriving DecidableEq, Repr

/-- Bytes that a group's counter gains at its turn, in proportion to WEIGHT. DESIGN CHOICE (log 85): 64 bytes for each unit. -/
def State.groupQuantum (s : State) (g : Nat) : Nat := 64 * max 1 (byteFld (s.group g).context 4 1)

/-- Deficit round robin in bytes over groups, the one whose turn it is first (13 R363). -/
def State.shareRound (s : State) (first : Nat → Option Waiting) : Nat → List Nat → Tab Nat → Option Share
  | 0, _, _ | _, [], _ => none
  | fuel + 1, g :: gs, deficit =>
    match first g with
    | none => State.shareRound s first fuel gs deficit
    | some w =>
      let d := Tab.get 0 deficit g
      let n := 32 * w.pkt.len
      if n ≤ d then some { pkt := w, group := g, deficit := Tab.set 0 deficit g (d - n) }
      else State.shareRound s first fuel (gs ++ [g]) (Tab.set 0 deficit g (d + s.groupQuantum g))

/-- The packet of a quay's groups that starts next on VC4 of a port; a group that has none waiting has no deficit. -/
def State.shareNext (s : State) (p quay : Nat) : Option Share :=
  let r := s.port p
  let mine := r.egress.filter fun w => w.shareQuay == some quay
  let gs := sortBy id (mine.map fun w => w.pkt.dq % 4096).eraseDups
  let turn := Tab.get 0 r.shareOf quay
  let deficit := Tab.dropKeys r.shares fun g => groupQuay g == quay && !gs.contains g
  s.shareRound (fun g => mine.find? fun w => w.pkt.dq % 4096 == g) (70 * gs.length)
    (gs.filter (fun g => decide (turn ≤ g)) ++ gs.filter (fun g => decide (g < turn))) deficit

/-- The packet of VC4 that may start: where the first is one of a local group, the groups of its quay share its place (13 R363). -/
def State.firstShared (s : State) (p : Nat) : Option Waiting :=
  match ((s.port p).egress.find? fun w => w.pkt.vc == 4).bind Waiting.shareQuay with
  | none => s.firstOf p 4 (fun _ => true)
  | some quay => ((s.shareNext p quay).map (·.pkt)).filter fun w => decide (w.pkt.len ≤ s.credits p 4)

/-- The packet of a VC that may start. -/
def State.firstVc (s : State) (p v : Nat) : Option Waiting :=
  if v = 7 then s.firstEscape p else if v = 4 then s.firstShared p else s.firstOf p v (fun _ => true)

/-- A port after the turn of a quay's groups that the start of a packet is. -/
def State.takeShare (s : State) (p : Nat) (w : Waiting) (r : PortRun) : PortRun :=
  match w.shareQuay with
  | none => r
  | some quay =>
    match s.shareNext p quay with
    | some x => { r with shares := x.deficit, shareOf := Tab.set 0 r.shareOf quay x.group }
    | none => r

/-- The packet of VC2 or VC3 that may start in the guaranteed share: the first of the VC, unless it was rerouted (11 R288, 19 R504). -/
def State.firstGuar (s : State) (p v : Nat) : Option Waiting := (s.firstVc p v).filter fun w => !w.weighted

/-- A deficit round robin: the packet that starts, the VC whose turn it is and the counters, by VC. -/
structure Turn where
  pkt     : Waiting
  vc      : Nat
  deficit : Tab Nat
  deriving DecidableEq, Repr

/-- Deficit round robin over the VCs from `lo` to `hi`, counted in flits by their weights (11 R288). -/
def State.drr (s : State) (p lo hi : Nat) (first : Nat → Option Waiting) : Nat → Nat → Tab Nat → Option Turn
  | 0, _, _ => none
  | fuel + 1, v, deficit =>
    let next := if hi ≤ v then lo else v + 1
    match first v with
    | none => State.drr s p lo hi first fuel next (Tab.set 0 deficit v 0)
    | some w =>
      let d := Tab.get 0 deficit v
      if w.pkt.len ≤ d then some { pkt := w, vc := v, deficit := Tab.set 0 deficit v (d - w.pkt.len) }
      else State.drr s p lo hi first fuel next (Tab.set 0 deficit v (d + s.fldAt (.port p) 0x018 (8 * v) 8))

/-- What R288 chooses: the packet, its step, and the turns of the weighted and of the guaranteed round robin after it. -/
structure Choice where
  pkt      : Waiting
  step     : Nat
  turn     : Nat
  deficit  : Tab Nat
  guarTurn : Nat
  guarDef  : Tab Nat
  deriving DecidableEq, Repr

/-- Flits that the guaranteed class has had in the calendar period that runs (11 R288). -/
def State.guarSent (s : State) (p : Nat) : Nat := if (s.port p).period = s.now / 102400 then (s.port p).guarUsed else 0

/-- The packet that starts next on an egress port (11 R288); a port that carries no data starts only VC0 (14 R398, 17 R455). -/
def State.chooseEgress (s : State) (p : Nat) : Option Choice :=
  let r := s.port p
  let plain := fun (step : Nat) (w : Waiting) =>
    ({ pkt := w, step := step, turn := r.turn, deficit := r.deficit, guarTurn := r.guarTurn, guarDef := r.guarDef } : Choice)
  match (if 0 < s.bucketNow p then s.firstOf p 0 (fun _ => true) else none) with
  | some w => some (plain 1 w)
  | none =>
    if !s.carriesData p then none
    else match (if 15 ≤ r.sinceEsc then s.firstEscape p else none) with
    | some w => some (plain 2 w)
    | none => match (if s.guarSent p < s.guarFlits p then s.drr p 2 3 (s.firstGuar p) 1000 r.guarTurn r.guarDef else none) with
      | some t => some { plain 3 t.pkt with guarTurn := t.vc, guarDef := t.deficit }
      | none => match s.drr p 2 7 (s.firstVc p) 1000 r.turn r.deficit with
        | some t => some { plain 4 t.pkt with turn := t.vc, deficit := t.deficit }
        | none => none

/-- Remove the first occurrence of a packet. -/
def removeFirst (w : Waiting) : List Waiting → List Waiting
  | [] => []
  | x :: xs => if x = w then xs else x :: removeFirst w xs

/-- A packet starts on a port: one credit a flit is taken, it is counted, its input buffer is freed, and its flits leave (11 R279, R288, R289). -/
def State.startPkt (s : State) (p : Nat) (c : Choice) (q : Packet) : State :=
  let w := c.pkt
  let r := s.port p
  let v := w.pkt.vc
  let n := w.pkt.len
  let s := s.setPort p { s.takeShare p w r with
    egress := removeFirst w r.egress, onWire := some q
    credits := Tab.set 0 r.credits v (Tab.get 0 r.credits v - n), sent := Tab.set 0 r.sent v (Tab.get 0 r.sent v + n)
    sinceEsc := if v = 7 then 0 else r.sinceEsc + 1
    bucket := if v = 0 then s.bucketNow p - n * 32 else s.bucketNow p, bucketAt := s.clock
    guarUsed := if c.step = 3 then s.guarSent p + n else s.guarSent p, period := s.now / 102400
    turn := c.turn, deficit := c.deficit, guarTurn := c.guarTurn, guarDef := c.guarDef }
  sendFlits p true q.flits ((s.release w).addWrap (.port p) (0x100 + 8 * v) 0 64 n)

/-- The chosen packet crosses the port, or is dropped where it may not (11 R302). -/
def State.startChoice (s : State) (p : Nat) (c : Choice) : State :=
  match s.crossing c.pkt.pkt p with
  | some q => s.startPkt p c q
  | none => (s.setPort p { s.port p with egress := removeFirst c.pkt (s.port p).egress }).dropWaiting 3 c.pkt

/-! ## Waiting for credit (11 R303, STALL_NS_v) -/

/-- No candidate port has room for a packet (11 R303). -/
def State.blocked (s : State) (room : Nat → Nat → Nat) (w : Waiting) : Bool :=
  let pkt := s.phased w.pkt
  let e := s.routeEntry w.bank pkt.target
  e.testBit 27 && !e.testBit 26 && (s.upPorts e).all fun p => decide (room p pkt.vc < pkt.len)

/-- Where the packet at the head of an input VC waits for credit: port and VC. -/
def State.headWaits (s : State) (w : Waiting) : Option (Nat × Nat) :=
  if w.pkt.htype = 2 ∨ w.bad.isSome then none
  else match s.routePkt w.pkt w.bank with
    | .send q p => if s.spare p q.vc < q.len then some (p, q.vc) else none
    | _ => none

/-- The ports and VCs on which input heads wait. -/
def State.inputStalls (s : State) : List (Nat × Nat) :=
  (Tab.keys s.ports).flatMap fun p => if s.hostPort p then [] else
    (List.range 8).filterMap fun v => (takeHead v false (s.port p).input).bind fun e => s.headWaits e.1

/-- Some packet waits for credit on a VC of a port: STALL_NS counts (11 Table 11-13). -/
def State.stalled (s : State) (heads : List (Nat × Nat)) (p v : Nat) : Bool :=
  heads.contains (p, v) || match (s.port p).egress.find? fun w => w.pkt.vc == v with
    | some w => decide (s.credits p v < w.pkt.len)
    | none => false

/-- The waiting time runs for the first packet of each VC that keeps its wait; the others' begins anew. -/
def ageWaits (now : Nat) (vc : Waiting → Nat) (keep : Waiting → Bool) : List Nat → List Waiting → List Waiting
  | _, [] => []
  | seen, w :: ws =>
    (if !seen.contains (vc w) && keep w then w else { w with since := now }) :: ageWaits now vc keep (vc w :: seen) ws

/-- One nanosecond of the packets that wait (11 R303). -/
def State.agePackets (s : State) : State :=
  (Tab.keys s.ports).foldl (fun (t : State) p =>
    let r := s.port p
    t.setPort p { r with
      input := ageWaits s.clock (·.inVc) (s.blocked s.spare) [] r.input
      egress := ageWaits s.clock (·.pkt.vc) (fun w => decide (s.credits p w.pkt.vc < w.pkt.len) && s.blocked s.credits w) [] r.egress }) s

/-! ## Training (11 R284, R308) -/

/-- Apply what a commit has captured: a port's next boundary is its entry into TRAINING (11 R308). -/
def State.applyCommit (s : State) (c : Nat) : State :=
  match Tab.get (0, []) s.commits c with
  | (_, []) => { s with commits := Tab.set (0, []) s.commits c (0, []) }
  | (_, vs) => vs.foldl (fun s v => s.setReg v.1 v.2) { s with commits := Tab.set (0, []) s.commits c (0, []) }

/-- The node with a port's waiting commit in force, by which the port trains. -/
def State.committed (s : State) (p : Nat) : State := s.applyCommit (commitAddr (.port p))

/-- Enter TRAINING, with the committed fields in force (11 R284, R308). -/
def State.startTraining (s : State) (p : Nat) : State :=
  let s := (s.committed p).setPortState p 1
  let s := (s.putBit (.port p) 0x038 63 false).lifeAdd (0x5000 + 32 * p) 4 1
  s.setPort p { s.port p with tried := some s.clock, helloDue := true, zeroCap := false, limited := false }

/-- PORT_CTRL.RETRAIN: DOWN, and a new training with the committed fields (11 R284). DESIGN CHOICE (log 80): a committed ENABLE = 0 takes effect too,
and the port stays DOWN. -/
def State.retrainPort (s : State) (p : Nat) : State :=
  let s := (s.dropPort p 0).setLanes p 0
  let c := s.committed p
  if c.mayTrain p then s.startTraining p else if c.portCfg p 0 then s else c

end Sys2Proof.Machine
end

