-- ==== Sys2Proof/Machine/HartOps.lean ====
section
/-! DEFINITION. Traps of the harts. The spec names the exceptions and leaves their entry to the RISC-V privileged
specification, which is followed here (PRESUMED, log entry 10). Harts 0–255 are the pilot cores, 256–319 the PD harts,
as 14 Table 14-1 numbers them. -/

namespace Sys2Proof.Machine

/-- mstatus with the trap taken into machine mode: MPIE takes MIE, MIE clears, MPP takes the mode. -/
def mstatusTrap (w : Word) (priv : Nat) : Word :=
  setFld (setBit (setBit w 7 (bit w 3)) 3 false) 11 2 priv

/-- mstatus with the trap taken into supervisor mode: SPIE takes SIE, SIE clears, SPP takes the mode. -/
def sstatusTrap (w : Word) (priv : Nat) : Word :=
  setBit (setBit (setBit w 5 (bit w 1)) 1 false) 8 (priv == 1)

/-- A PD hart. -/
def isPd (h : Nat) : Bool := decide (256 ≤ h)

/-- A hart takes an exception with a cause and a trap value; one delegated from S or U mode goes to S mode, which only PD harts have
(07 R175). -/
def Hart.trap (h : Hart) (pd : Bool) (cause tval : Nat) : Hart :=
  if pd && h.priv ≤ 1 && bit h.medeleg cause then
    { h with sepc := h.pc, scause := BitVec.ofNat 64 cause, stval := BitVec.ofNat 64 tval
             mstatus := sstatusTrap h.mstatus h.priv, priv := 1, pc := setFld h.stvec 0 2 0 }
  else
    { h with mepc := h.pc, mcause := BitVec.ofNat 64 cause, mtval := BitVec.ofNat 64 tval
             mstatus := mstatusTrap h.mstatus h.priv, priv := 3, pc := setFld h.mtvec 0 2 0 }

/-- A hart takes an interrupt: the trap entry with bit 63 of the cause set, to mtvec or stvec + 4 × cause where vectored. -/
def Hart.interrupt (h : Hart) (pd : Bool) (cause : Nat) : Hart :=
  let deleg := pd && h.priv ≤ 1 && bit h.mideleg cause
  let vec := if deleg then h.stvec else h.mtvec
  let base := setFld vec 0 2 0
  let target := if fld vec 0 2 = 1 then base + BitVec.ofNat 64 (4 * cause) else base
  let code := BitVec.ofNat 64 (cause + 2 ^ 63)
  if deleg then
    { h with sepc := h.pc, scause := code, stval := 0, mstatus := sstatusTrap h.mstatus h.priv, priv := 1, pc := target }
  else
    { h with mepc := h.pc, mcause := code, mtval := 0, mstatus := mstatusTrap h.mstatus h.priv, priv := 3, pc := target }

/-- A hart of the node takes an exception. -/
def State.trapHart (s : State) (h cause tval : Nat) : State := s.setHart h ((s.hart h).trap (isPd h) cause tval)

/-- The instruction retires: instret counts it, and the pc moves on (07 R176). -/
def State.retire (s : State) (h : Nat) (pc : Word) : State :=
  s.setHart h { s.hart h with pc := pc, instret := (s.hart h).instret + 1 }

/-- The instruction completes: the pc moves past its four bytes. -/
def State.nextPc (s : State) (h : Nat) : State := s.retire h ((s.hart h).pc + 4)

/-- An integer register; x0 reads as zero. -/
def Hart.reg (h : Hart) (r : Nat) : Word := if r = 0 then 0 else Tab.get 0 h.x r

/-- Write an integer register; a write to x0 is discarded. -/
def Hart.setReg (h : Hart) (r : Nat) (v : Word) : Hart := if r = 0 then h else { h with x := Tab.set 0 h.x r v }

/-- A requester that is a hart of this node takes an exception; any other takes none. -/
def State.trapSender (s : State) (w : Sender) (cause tval : Nat) : State :=
  if w.endpoint.val < 320 then s.trapHart w.endpoint.val cause tval else s

/-! ## Atomic operations (12 Table 12-2, 07 Table 7-3) -/

/-- The result of an atomic operation on `n` bytes, modulo their width; for CSWAP `x` is the compare value and `y` the new one. -/
def amoResult (aop n old x y : Nat) : Nat :=
  let w := 8 * n
  let a := old % 2 ^ w
  let b := x % 2 ^ w
  match aop with
  | 0 => (a + b) % 2 ^ w
  | 1 => a &&& b
  | 2 => a ||| b
  | 3 => a ^^^ b
  | 4 => if toSigned w a < toSigned w b then b else a
  | 5 => if toSigned w a < toSigned w b then a else b
  | 6 => max a b
  | 7 => min a b
  | 8 => b
  | _ => if a = b then y % 2 ^ w else a

end Sys2Proof.Machine
end

