-- ==== Sys2Proof/Machine/TrayOps.lean ====
section
/-! DEFINITION. Tray requests: issuing, ending as dead, and what their answers do to the requester (12 R336–R340). -/

namespace Sys2Proof.Machine

/-- The node's own place in its tray: NGI [2:0] (11 Table 11-8). -/
def State.trayPos (s : State) : Nat := s.selfNgi % 8

/-- The sender code of a requester (14 Table 14-1). -/
def senderCode (w : Sender) : Nat :=
  w.endpoint.val + w.node.val * 2 ^ 9 + (if w.host then 2 ^ 12 else 0) + (if w.vc0 then 2 ^ 13 else 0)

/-- A requester of this node. -/
def State.localSender (s : State) (e : Nat) : Sender :=
  { endpoint := Fin.ofNat 512 e, node := Fin.ofNat 8 s.trayPos }

/-- The fields that a request holds for its answer. -/
structure TrayCall where
  kind    : Nat                 -- 0 load, 1 store, 2 AMO
  addr    : Nat                 -- tray address, 48 bits
  size    : Nat
  data    : List Byte := []
  poison  : Bool := false
  code    : Nat := 0            -- AMO: the layout of byte 2 of Table 12-2
  operand : Nat := 0
  compare : Nat := 0
  deriving DecidableEq, Repr

/-- A tray address names this node. -/
def State.ownTray (s : State) (a : Nat) : Bool := a.testBit 47 && bits a 44 3 == s.trayPos

/-- A tray address names another node. -/
def State.remoteTray (s : State) (a : Nat) : Bool := a.testBit 47 && bits a 44 3 != s.trayPos

/-- The node address behind a tray address. -/
def trayLocal (a : Nat) : Nat := a % 2 ^ 44

/-- The NGI of a node of the tray. -/
def State.trayNgi (s : State) (node : Nat) : Nat := s.selfNgi / 8 * 8 + node

/-- The port that leads to a node of the tray under RMODE 1; none where its route entry is invalid. -/
def State.trayRoute (s : State) (node : Nat) : Option Nat :=
  let ngi := s.trayNgi node
  let e := s.routeEntry s.bank ngi
  if !e.testBit 27 then none
  else
    let up := s.upPorts e
    let named := allPorts.filter fun p => e.testBit p
    let cs := if up.isEmpty then named else up
    cs[Config.routeHash s.selfNgi ngi % cs.length]?

/-- Capture the first failed tray request (12 TRAY_CAP): kind 0 dead load, 1 dead store, 2 dead AMO, 3 ERROR. -/
def State.captureTray (s : State) (quay addr kind : Nat) : State :=
  if s.bitAt (.quay quay) 0x040 63 then s
  else s.putN (.quay quay) 0x040 (addr % 2 ^ 48 + kind * 2 ^ 48 + 2 ^ 63)

/-- A tray-remote access of a pump has an answer (04 R113). -/
def State.pumpAnswer (s : State) (core queue : Nat) (a : PumpReply) : State :=
  s.updateCurrent core queue fun r => { r with remote := r.remote ++ [a] }

/-- The bridge returns an answer to the host on port 15, on the VC of the request (14 R387). -/
def State.answerHost (s : State) (req : Packet) (ans : Packet) : State :=
  s.queuePkt 15 { port := 16, since := s.clock, pkt :=
    { ans with vc := if req.vc = 0 then 0 else 6, ovc := if req.vc = 0 then 0 else 6, dst := req.src, src := s.selfNgi, tag := req.tag
               dq := req.dq % 2 + 2 * ans.payload.length, sq := req.sq, psn := req.psn } }

/-- What a dead request does to its requester (04 R113, 12 R340). -/
def State.deadOwner (s : State) (r : TrayReq) : State :=
  let ones := List.replicate r.size (0xFF : Byte)
  match r.owner with
  | .requester w =>
    let s := s.answers 3 (if r.kind = 0 then ones else []) (r.kind = 0)
    if r.kind = 0 then s.trapSender w 5 r.addr
    else if w.endpoint.val < 256 then s.trapSender w 7 r.addr else s
  | .pump c q e =>
    s.pumpAnswer c q { key := e, write := r.kind != 0, data := if r.kind = 0 then ones else [], poison := r.kind == 0, dead := true }
  | .hostBridge req =>
    if r.kind = 0 then
      s.answerHost req { vc := 6, ovc := 6, dst := 0, src := 0, tag := 0, tkind := 14, last := true, poison := true, payload := ones }
    else s
  | .reply _ _ _ _ => s
  | .node => s

/-- A destination of the checkpoint that is a dead node of the tray fails with cause DEST_DEAD (16 R436). -/
def State.deadDest (s : State) (node : Nat) : State :=
  match s.ckpt with
  | none => s
  | some k =>
    let hit := fun (i : Nat) (d : Destination) =>
      byteFld k.plan (512 + 64 * i) 1 == 1 && bits (byteFld k.plan (520 + 64 * i) 8) 44 3 == node && !d.committed && !d.failed
    if k.dests.zipIdx.any fun e => hit e.2 e.1 then
      { s with ckpt := some { k with
        dests := k.dests.zipIdx.map fun e => if hit e.2 e.1 then { e.1 with failed := true } else e.1
        cause := if k.cause = 0 then 5 else k.cause } }
    else s

/-- A tray request ends as dead (12 R340). -/
def State.dieTray (s : State) (quay : Nat) (r : TrayReq) : State :=
  let s := (s.putBit (.quay quay) 0x038 (r.target % 8) true).quayCount quay 8 1
  let s := (s.captureTray quay r.addr r.kind).report 0x1C none (trayDetail r.target quay r.kind)
  (s.deadDest (r.target % 8)).deadOwner r

/-- The tray tag of a request: VC0 and tag 0 from the harbourmaster, else VC5 and the quay's TRAY_TAG (12 R336). -/
def State.trayVcTag (s : State) (quay : Nat) (w : Sender) (vc0 : Bool) : Nat × Nat :=
  if w.endpoint.val = 320 || vc0 then (0, 0) else (5, s.fldAt (.quay quay) 0x000 32 16)

/-- The request packet: up to 8 bytes of a store stand in DATA, and CSWAP's second operand in a payload flit (12 R322, Table 12-6). -/
def trayPacket (c : TrayCall) (quay id vc tag dst code : Nat) : Packet :=
  { vc := vc, ovc := vc, rmode := 1, dst := dst, src := 0, tag := tag, tkind := 11 + c.kind, last := true
    poison := c.poison, code := c.code, dq := quay + 2 * c.size, sq := code, psn := id, addr := c.addr
    data := if c.kind = 0 then c.size else if c.kind = 1 then leNat (c.data.take 8) else c.operand
    payload := if c.kind = 1 then (if c.data.length ≤ 8 then [] else c.data) else if c.kind = 2 && c.code % 16 == 9 then leBytes 8 c.compare else [] }

/-- Issue a tray request to another node (12 R336, R340): it is sent by the quay whose FD's port leads there, or ends as dead
at once where the node is marked dead or its route is invalid. With 2 048 outstanding in the quay, it waits. -/
def State.issueTray (s : State) (owner : TrayOwner) (w : Sender) (c : TrayCall) (vc0 : Bool := false) : State :=
  let node := bits c.addr 44 3
  let quay := match s.trayRoute node with
    | some p => p / 8
    | none => 0
  let (vc, tag) := s.trayVcTag quay w vc0
  let r : TrayReq :=
    { id := s.trayNext, owner := owner, target := node, addr := c.addr, kind := c.kind, since := s.clock, vc := vc, quay := quay, size := c.size
      deadNs := s.fldAt (.quay quay) 0x000 0 19 }
  if (s.trayRoute node).isNone || bit (s.reg (.quay quay) 0x038) node then s.dieTray quay r
  else
    let s := { s with tray := s.tray ++ [r], trayNext := s.trayNext + 1 }
    s.inject (trayPacket c quay r.id vc tag (s.trayNgi node) (senderCode w))

/-- Some tray request of the quay still fits (12 R336). -/
def State.trayRoom (s : State) (quay : Nat) : Bool := decide ((s.tray.filter fun r => r.quay == quay).length < 2048)

/-- The quay that would carry an access to a tray address has room for it; an access that ends as dead at once needs none. -/
def State.trayFree (s : State) (a : Nat) : Bool :=
  match s.trayRoute (bits a 44 3) with
  | some p => s.trayRoom (p / 8)
  | none => true

/-- Take a request by its number out of the outstanding ones. -/
def State.takeTray (s : State) (id : Nat) : Option TrayReq := s.tray.find? fun r => r.id == id

def State.dropTray (s : State) (id : Nat) : State := { s with tray := s.tray.filter fun r => r.id != id }

/-- Every outstanding request of a quay ends as dead (15 Table 15-4). -/
def State.dieAllTray (s : State) (quay : Nat) : State :=
  (s.tray.filter fun r => r.quay == quay).foldl (fun s r => (s.dropTray r.id).dieTray quay r) s

end Sys2Proof.Machine
end

