-- ==== Sys2Proof/Machine/BerthOps.lean ====
section
/-! DEFINITION. Berths and bells: posting, taking, clearing, notices and the bell words (14 R376–R388). -/

namespace Sys2Proof.Machine

/-- A berth after any reset of the PD (14 Table 14-3): owners 320 harbourmaster, 321 host, 511 none. -/
def berthReset (b : Nat) : Berth :=
  { owner := if b < 4 then 320 else if b < 8 then 321 else if b < 72 then 256 + (b - 8) else 511, enable := decide (b < 72) }

def State.berth (s : State) (b : Nat) : Berth := Tab.get (berthReset b) s.berths b
def State.setBerth (s : State) (b : Nat) (v : Berth) : State := { s with berths := Tab.set (berthReset b) s.berths b v }

/-- The owner of a berth is live (14 Table 14-5). The PD's harts are held in reset while POR_N is low (18 R489). -/
def State.ownerLive (s : State) (owner : Nat) : Bool :=
  if owner < 256 then decide (s.coreState owner ≤ 1)
  else if owner < 320 then s.power.porN
  else if owner = 320 then !s.harbour.inReset
  else true

/-- Arrival of a message or a bell signals its owner (14 R384, R386): a pilot core by WAKE_CAUSE, a PD hart by its machine
external interrupt. -/
def State.signal (s : State) (owner : Nat) (bell : Bool) : State :=
  if owner < 256 then s.wakeCause owner (if bell then 2 else 3)
  else if owner < 320 then
    s.setHart owner (if bell then { s.hart owner with bellIrq := true } else { s.hart owner with berthIrq := true })
  else s

/-- Put a message into a berth that accepts it. -/
def State.putMsg (s : State) (b : Nat) (m : List Byte) : State :=
  let r := s.berth b
  (s.setBerth b { r with msgs := r.msgs ++ [m], posted := (r.posted + 1) % 2 ^ 32 }).signal r.owner false

/-- Discard a message: its notice is due (14 R383). -/
def State.discardMsg (s : State) (b cause : Nat) (m : List Byte) : State :=
  let r := s.berth b
  let s := s.setBerth b { r with discarded := (r.discarded + 1) % 2 ^ 16, aborted := true }
  if (byteFld m 4 2).testBit 15 then
    { s with discards := s.discards ++ [{ berth := b, owner := r.owner, cause := cause, tide := s.now, msg := m }] }
  else s

/-- The node stores the sender code into bytes 6–7 of a message (14 R375). -/
def stampSender (m : List Byte) (code : Nat) : List Byte := setByteFld m 6 2 code

/-- A message comes to a berth: `false` where the berth is disabled or full (14 R379); while its owner is not live, or the berth is being cleared, it is
accepted and discarded (14 R381, R382). -/
def State.nodePost (s : State) (b : Nat) (m : List Byte) : State × Bool :=
  let r := s.berth b
  if !r.enable ∨ (s.ownerLive r.owner ∧ !r.clearing ∧ 8 ≤ r.msgs.length) then (s, false)
  else if !s.ownerLive r.owner ∨ r.clearing then
    ((s.setBerth b { r with posted := (r.posted + 1) % 2 ^ 32 }).discardMsg b 2 m, true)
  else (s.putMsg b m, true)

/-- A post of a requester: `true` where it is accepted; a rejected one stores nothing and is counted (14 R379). -/
def State.postMsg (s : State) (b code : Nat) (m : List Byte) : State × Bool :=
  let x := if 3 ≤ byteFld m 0 1 then (s, false) else s.nodePost b (stampSender m code)
  if x.2 then x else (s.setBerth b { s.berth b with rejected := ((s.berth b).rejected + 1) % 2 ^ 16 }, false)

/-- The compose buffer of a sender; words not written since its last post hold zero (14 R378). -/
def State.composed (s : State) (code : Nat) : List Byte :=
  match Tab.get [] s.compose code with
  | [] => List.replicate 64 0
  | b :: bs => b :: bs

/-- Store a word in a sender's compose buffer. -/
def State.composeWord (s : State) (code word : Nat) (v : Word) : State :=
  { s with compose := Tab.set [] s.compose code (setByteFld (s.composed code) (8 * word) 8 v.toNat) }

/-- The message that a completing write makes (14 R378). -/
def State.completeMsg (s : State) (code : Nat) : Post → List Byte
  | .word v => setByteFld (s.composed code) 56 8 v.toNat
  | .whole bs => (bs ++ List.replicate 64 0).take 64

/-- A message is a notice of another node's harbourmaster, which comes as a tray store on VC0 (12 R336, 14 R383). -/
def isNotice (code : Nat) (m : List Byte) : Bool := byteFld m 0 1 == 3 && code % 2 ^ 9 == 320 && code.testBit 13

/-- A notice reaches its berth: no KIND check applies to it, and where the berth is full or disabled it is lost (14 R383). -/
def State.landNotice (s : State) (b : Nat) (m : List Byte) : State :=
  match s.nodePost b m with
  | (s, true) => s
  | (s, false) => s.setBerth b { s.berth b with noticeLost := true }

/-- A completing write: the post, and the compose buffer cleared whether it is accepted or not (14 R378). -/
def State.completePost (s : State) (b code : Nat) (p : Post) : State × Bool :=
  let m := s.completeMsg code p
  let s := { s with compose := Tab.set [] s.compose code [] }
  if isNotice code m then (s.landNotice b (stampSender m code), true) else s.postMsg b code m

/-- Only the owner reads HEAD_MSG and SLOT_s and writes B_TAKE (14 R380): the host is one owner, any other is of this node. -/
def State.ownsBerth (s : State) (b : Nat) (w : Sender) : Bool :=
  let o := (s.berth b).owner
  w.endpoint.val == o && (o == 321 || w.node.val == s.trayPos)

/-- Free the oldest slot (14 R380). -/
def State.takeMsg (s : State) (b : Nat) : State :=
  let r := s.berth b
  if r.msgs.isEmpty then s else s.setBerth b { r with msgs := r.msgs.drop 1, head := (r.head + 1) % 8 }

/-- The owner has entered a state in which it is not live: its berths are to be cleared (14 R382). -/
def State.startClear (s : State) (owner : Nat) : State :=
  (List.range 256).foldl (fun s b => if (s.berth b).owner = owner then s.setBerth b { s.berth b with clearing := true } else s) s

/-- A clear: every message is discarded, in posting order (14 R382). -/
def State.clearBerth (s : State) (b : Nat) : State :=
  let r := s.berth b
  let s := r.msgs.foldl (fun s m => s.discardMsg b 1 m) s
  s.setBerth b { s.berth b with msgs := [], head := (r.head + r.msgs.length) % 8, aborted := true, clearing := false }

/-- The ABORTED notice of a discarded message (14 R383). -/
def State.noticeOf (s : State) (d : Discard) : List Byte :=
  leBytes 1 3 ++ leBytes 1 0 ++ leBytes 2 1 ++ leBytes 2 0 ++ leBytes 2 (senderCode (s.localSender 320)) ++ (d.msg.drop 8).take 4
    ++ leBytes 4 0 ++ leBytes 2 (d.berth + s.trayPos * 2 ^ 8) ++ leBytes 2 d.owner ++ leBytes 4 d.cause ++ leBytes 8 d.tide
    ++ d.msg.take 16 ++ List.replicate 16 0

/-! ## Bells -/

/-- The owner of an OR bell: pilot cores 0–255, PD harts 256–319, the harbourmaster 320. -/
def State.ringOr (s : State) (i : Nat) (v : Word) : State :=
  ({ s with bells := Tab.set 0 s.bells i (s.bell i ||| v) }).signal i true

/-- A read of an OR bell returns the word and clears it (14 R386). -/
def State.readBell (s : State) (i : Nat) : State :=
  (({ s with bells := Tab.set 0 s.bells i 0 })).answers 0 (leBytes 8 (s.bell i).toNat)

/-- HN_BASE, the bridge node, and whether one is set (14 HM_BRIDGE, HM_HN_BASE). -/
def State.bridgeSet (s : State) : Bool := s.bitAt .harbour 0x08 3
def State.bridgeNode (s : State) : Nat := s.fldAt .harbour 0x08 0 3

/-- The bridge sends a host bell on port 15 as an 8-byte TRAY_ST (14 R388). -/
def State.sendHostBell (s : State) (h : Nat) (v : Word) : State :=
  s.queuePkt 15 { port := 16, since := s.clock, pkt :=
    { vc := 5, ovc := 5, rmode := 1, dst := s.selfNgi, src := s.selfNgi, tag := 0, tkind := 12, last := true, dq := 1 + 2 * 8
      addr := s.regN .harbour 0x10 + 8 * h, data := v.toNat } }

/-- A write to host bell h (14 R388). -/
def State.ringHost (s : State) (h : Nat) (v : Word) : State :=
  if !s.bridgeSet then s.addSat .router (0x040 + 8) 0 32 1
  else if s.bridgeNode = s.trayPos then
    (if s.portUp 15 then s.sendHostBell h v else s.addSat .router (0x040 + 8) 0 32 1)
  else s.issueTray .node (s.localSender 320)
    { kind := 1, addr := 2 ^ 47 + s.bridgeNode * 2 ^ 44 + 0x0E90_0020_9000 + 8 * h, size := 8, data := leBytes 8 v.toNat }

end Sys2Proof.Machine
end

