-- ==== Sys2Proof/Machine/Berths.lean ====
section
/-! DEFINITION. The berth and bell commands (14 R375–R388). -/

namespace Sys2Proof.Machine

/-- POST_COMPOSE (14 R378). -/
def execPostCompose (sender : Sender) (_berth : Fin 256) (word : Fin 7) (value : Word) (s : State) :
    Host.Outcome State Fault Refusal :=
  .next ((s.composeWord (senderCode sender) word.val value).answers 0)

/-- What a rejected post does to its writer: a bus error, which is a store access fault at a hart (14 R379). -/
def State.rejectPost (s : State) (w : Sender) (addr : Nat) : State := (s.answers 1).trapSender w 7 addr

/-- The page of a berth (14 R376). -/
def berthPage (b : Nat) : Nat := 0x0E80_0000_0000 + b * 0x1000

/-- A completing write to a POST window (14 R378, R379). -/
def postBerth (sender : Sender) (b : Nat) (p : Post) (s : State) : State :=
  match s.completePost b (senderCode sender) p with
  | (s, true) => s.answers 0
  | (s, false) => s.rejectPost sender (berthPage b)

/-- POST (14 R375, R378, R379, R381, R382, R384). -/
def execPost (sender : Sender) (berth : Fin 256) (message : Post) (s : State) : Host.Outcome State Fault Refusal :=
  .next (postBerth sender berth.val message s)

/-- A write to B_TAKE (14 R380). -/
def takeBerth (sender : Sender) (b : Nat) (s : State) : State :=
  if s.ownsBerth b sender then (s.takeMsg b).answers 0 else s.rejectPost sender (berthPage b + 0x48)

/-- B_TAKE (14 R380, R381). -/
def execBTake (sender : Sender) (berth : Fin 256) (s : State) : Host.Outcome State Fault Refusal :=
  .next (takeBerth sender berth.val s)

/-- BERTH_CLEAR (14 R382): a berth whose owner has ceased to be live is cleared. -/
def execBerthClear (berth : Fin 256) (s : State) : Host.Outcome State Fault Refusal :=
  .next (if (s.berth berth.val).clearing then s.clearBerth berth.val else s)

/-- Deliver a notice to the berth of this node, or to the node of the tray that its REPLY_BERTH names. -/
def State.postNotice (s : State) (d : Discard) : State :=
  let rb := byteFld d.msg 4 2
  let b := bits rb 0 8
  let node := bits rb 8 3
  let m := s.noticeOf d
  if node = s.trayPos then s.landNotice b m
  else s.issueTray .node (s.localSender 320)
    { kind := 1, addr := 2 ^ 47 + node * 2 ^ 44 + berthPage b, size := 64, data := m } true

/-- The notice due first whose own berth is not being cleared, and the others. -/
def takeNotice (s : State) : List Discard → Option (Discard × List Discard)
  | [] => none
  | d :: ds =>
    let rb := byteFld d.msg 4 2
    if bits rb 8 3 = s.trayPos ∧ (s.berth (bits rb 0 8)).clearing then
      match takeNotice s ds with
      | some (x, rest) => some (x, d :: rest)
      | none => none
    else some (d, ds)

/-- ABORTED (14 R383): the next notice of a discarded message is posted. -/
def postAborted (s : State) : State :=
  match takeNotice s s.discards with
  | some (d, rest) => ({ s with discards := rest }).postNotice d
  | none => s

def execAborted (s : State) : Host.Outcome State Fault Refusal := .next (postAborted s)

/-- OR_BELL_WRITE (14 R386). -/
def execOrBellWrite (bell : Fin 321) (value : Word) (s : State) : Host.Outcome State Fault Refusal :=
  .next ((s.ringOr bell.val value).answers 0)

/-- BELL_READ (14 R386). -/
def execBellRead (bell : Fin 321) (s : State) : Host.Outcome State Fault Refusal := .next (s.readBell bell.val)

/-- HOST_BELL_WRITE (14 R388). -/
def execHostBellWrite (bell : Fin 64) (value : Word) (s : State) : Host.Outcome State Fault Refusal :=
  .next ((s.ringHost bell.val value).answers 0)

end Sys2Proof.Machine
end

