-- ==== Sys2Proof/Machine/TrigOps.lean ====
section
/-! DEFINITION. Trigger counters and their adds (13 R343–R347). -/

namespace Sys2Proof.Machine

/-- The collective block of a trigger counter (13 R343). -/
def ctrBlock (n : Nat) : Block := .collective (n / 65536 % 2)
def ctrOff (n : Nat) : Nat := 0x10_0000 + 8 * (n % 65536)

/-- The value of a trigger counter. -/
def State.trigCtr (s : State) (n : Nat) : Nat := s.fldAt (ctrBlock n) (ctrOff n) 0 32

/-- TRIG_BLK_k of a counter (13 R346). -/
def blkOff (n : Nat) : Nat := 0x1_0000 + 8 * (n % 65536 / 64)
def State.trigEnabled (s : State) (n : Nat) : Bool := s.bitAt (ctrBlock n) (blkOff n) 31
def State.trigTag (s : State) (n : Nat) : Nat := s.fldAt (ctrBlock n) (blkOff n) 0 16

/-- An add that a disabled block discards: counted and captured (13 R346). -/
def State.dropAdd (s : State) (a : TriggerAdd) : State :=
  let b := ctrBlock a.counter
  let s := s.addSat b 0x050 0 32 1
  if s.bitAt b 0x058 63 then s
  else s.putN b 0x058 (a.counter % 2 ^ 17 + a.tag * 2 ^ 32 + a.source * 2 ^ 48 + 2 ^ 63)

/-- Apply an add to its counter, modulo 2^32 (13 R344, R346, R347). In the safe state, and while the quay is not NORMAL, it is
discarded without a count (15 R410, Table 15-4). -/
def State.applyAdd (s : State) (a : TriggerAdd) : State :=
  if s.safe || s.domainState (464 + a.counter / 65536 % 2) != 0 then s
  else if !s.trigEnabled a.counter then s.dropAdd a
  else s.addWrap (ctrBlock a.counter) (ctrOff a.counter) 0 32 a.inc

/-- Send an add on its way (13 Table 13-1): source 0 schedule, 1 engine, 2 quay signal. -/
def State.sendAdd (s : State) (counter inc source : Nat) : State :=
  { s with adds := s.adds ++ [{ counter := counter, inc := inc, source := source }] }

/-- A wait on a counter is met (13 R345). -/
def State.trigWait (s : State) (counter value : Nat) : Bool := reached32 (s.trigCtr counter) value

/-- A quay is held by an activation of its microcode, from the mark to its confirmation (17 Table 17-4). -/
def State.quayHeld (s : State) (quay : Nat) : Bool := (s.image (1 + quay)).trial.isSome

/-- The first add on its way whose quay is not held (17 Table 17-4). -/
def takeAdd (s : State) : List TriggerAdd → Option (TriggerAdd × List TriggerAdd)
  | [] => none
  | a :: as =>
    if s.quayHeld (a.counter / 65536 % 2) then
      match takeAdd s as with
      | some (x, rest) => some (x, a :: rest)
      | none => none
    else some (a, as)

end Sys2Proof.Machine
end

