-- ==== Sys2Proof/Machine/QuayOps.lean ====
section
/-! DEFINITION. Queues of the quays: contexts, QCTL, bells, the staging window, admission and completion (12). -/

namespace Sys2Proof.Machine

/-! ## Contexts (12 R311, R312) -/

/-- Where the context of a queue stands in HBM (12 R311). -/
def State.ctxAddr (s : State) (q : Nat) : Nat := s.fldAt (.quay (quayOf q)) 0x010 0 48 + q % 131072 * 128

/-- A field of a queue's context. -/
def QuayQueue.fld (r : QuayQueue) (off n : Nat) : Nat := byteFld r.context off n

/-- Write a field of a queue's context; a queue that has given its context up has none to write. -/
def QuayQueue.put (r : QuayQueue) (off n v : Nat) : QuayQueue :=
  if r.context.length < off + n then r else { r with context := setByteFld r.context off n (v % 2 ^ (8 * n)) }

/-- STATE of a queue: 0 DISABLED, 1 ACTIVE, 2 HALTED, 3 DRAINING (12 Table 12-1). -/
def QuayQueue.state (r : QuayQueue) : Nat := if r.context.isEmpty then 0 else r.fld 0 1 % 8

def QuayQueue.setState (r : QuayQueue) (v : Nat) : QuayQueue := r.put 0 1 (r.fld 0 1 / 8 * 8 + v)

def QuayQueue.guaranteed (r : QuayQueue) : Bool := (r.fld 0 1).testBit 3
def QuayQueue.ranked (r : QuayQueue) : Bool := (r.fld 0 1).testBit 4
def QuayQueue.rmode (r : QuayQueue) : Nat := bits (r.fld 0 1) 5 2
def QuayQueue.sqN (r : QuayQueue) : Nat := 2 ^ (r.fld 1 1 % 16)
def QuayQueue.cqN (r : QuayQueue) : Nat := 2 ^ (r.fld 1 1 / 16)
def QuayQueue.rqN (r : QuayQueue) : Nat := if r.fld 2 1 % 16 = 0 then 0 else 2 ^ (r.fld 2 1 % 16)
/-- Bytes of a receive slot. -/
def QuayQueue.slotSize (r : QuayQueue) : Nat := 64 * 2 ^ (r.fld 2 1 / 16)
def QuayQueue.jobTag (r : QuayQueue) : Nat := r.fld 4 2
def QuayQueue.sqTail (r : QuayQueue) : Nat := r.fld 48 4
def QuayQueue.sqHead (r : QuayQueue) : Nat := r.fld 52 4
def QuayQueue.cqTail (r : QuayQueue) : Nat := r.fld 56 4
def QuayQueue.cqHead (r : QuayQueue) : Nat := r.fld 60 4
def QuayQueue.rqTail (r : QuayQueue) : Nat := r.fld 64 4
def QuayQueue.rqHead (r : QuayQueue) : Nat := r.fld 68 4
def QuayQueue.txGranted (r : QuayQueue) : Nat := r.fld 72 8
def QuayQueue.txUsed (r : QuayQueue) : Nat := r.fld 80 8
def QuayQueue.rxGranted (r : QuayQueue) : Nat := r.fld 88 8
def QuayQueue.rxFreed (r : QuayQueue) : Nat := r.fld 96 8
def QuayQueue.txPsn (r : QuayQueue) : Nat := r.fld 104 4
def QuayQueue.txAcked (r : QuayQueue) : Nat := r.fld 108 4
def QuayQueue.rxPsn (r : QuayQueue) : Nat := r.fld 112 4
def QuayQueue.cqResv (r : QuayQueue) : Nat := r.fld 116 4
def QuayQueue.winBytes (r : QuayQueue) : Nat := r.fld 20 4

/-- The difference of two wrapping 32-bit indices. -/
def diff32 (a b : Nat) : Nat := (a + 2 ^ 32 - b % 2 ^ 32) % 2 ^ 32

/-- The difference of two wrapping 64-bit counts (12 R312). -/
def diff64 (a b : Nat) : Nat := (a + 2 ^ 64 - b % 2 ^ 64) % 2 ^ 64

/-- Bytes of the window that are granted and not used. -/
def QuayQueue.window (r : QuayQueue) : Nat := diff64 r.txGranted r.txUsed

/-- SQ_TAIL − CQ_HEAD would exceed the submission entries. DEDUCED (log 81): the difference is signed, since CQ_HEAD counts the records of
received SENDs too and may pass SQ_TAIL. -/
def QuayQueue.overfills (r : QuayQueue) (tail : Nat) : Bool :=
  let d := diff32 tail r.cqHead
  decide (r.sqN < d) && decide (d < 2 ^ 31)

/-- Receive slots that are free: each holds one completion record (12 Table 12-7). -/
def QuayQueue.slotsHeld (r : QuayQueue) : Nat := r.rqN - diff32 r.rqTail r.rqHead

/-- The quay can reserve a completion record (12 R318, Table 12-7). -/
def QuayQueue.cqRoom (r : QuayQueue) : Bool :=
  decide (diff32 r.cqTail r.cqHead + r.cqResv + r.slotsHeld < r.cqN)

/-- Why ENABLE is refused: the cause of QCTL_STATUS, 0 for none (12 R313, Table 12-10). -/
def enableCause (d : List Byte) : Nat :=
  let b0 := byteFld d 0 1
  let sq := byteFld d 1 1 % 16
  let cq := byteFld d 1 1 / 16
  let rq := byteFld d 2 1 % 16
  let slot := byteFld d 2 1 / 16
  let guar := b0.testBit 3
  let reserved := decide (4 ≤ b0 % 8) || b0.testBit 7 || (!guar && bits b0 5 2 == 3) || decide (sq < 4) || decide (cq < 4)
    || (rq != 0 && decide (rq < 4)) || decide (10 < slot) || !zeroAt d 3 1 || zeroAt d 4 2 || zeroAt d 6 2
    || decide (2 ^ 18 ≤ byteFld d 8 4) || decide (2 ^ 18 ≤ byteFld d 12 4) || (!guar && !zeroAt d 16 4)
    || decide (byteFld d 20 4 < 4096) || decide (2 ^ 31 < byteFld d 20 4) || (rq == 0 && !zeroAt d 40 8)
  let misaligned := byteFld d 24 8 % (64 * 2 ^ sq) != 0 || byteFld d 32 8 % (32 * 2 ^ cq) != 0
    || (rq != 0 && byteFld d 40 8 % (64 * 2 ^ slot * 2 ^ rq) != 0)
  if reserved then 1 else if misaligned then 2
  else if guar && (b0.testBit 4 || zeroAt d 16 4) then 3
  else if rq ≠ 0 ∧ cq ≤ rq then 4
  else 0

/-- Record a QCTL command in QCTL_STATUS of a quay (12 Table 12-10). -/
def State.qctlStatusAt (s : State) (quay q cmd : Nat) (done refused : Bool) (cause : Nat) : State :=
  s.putN (.quay quay) 0x030
    (q + cmd * 2 ^ 18 + (if done then 2 ^ 21 else 0) + (if refused then 2 ^ 22 else 0) + cause * 2 ^ 23)

/-- Record a QCTL command at the queue's own quay. -/
def State.qctlStatus (s : State) (q cmd : Nat) (done refused : Bool) (cause : Nat) : State := s.qctlStatusAt (quayOf q) q cmd done refused cause

/-- Enter a rank's entry in its quay's cache of 256; a full cache gives up one of its entries, which the spec leaves open (12 R335). -/
def State.cacheRank (s : State) (quay key entry : Nat) : State :=
  let mine := (Tab.keys s.ranks).filter fun k => k / 2 ^ 19 == quay
  let out := if mine.length < 256 then none else mine[Config.cacheVictim key % 256]?
  { s with ranks := Tab.set 0 (Tab.dropKeys s.ranks fun k => some k == out) key (entry + 1) }

/-- Where a queue's peer lies: its NGI, or by rank through the quay's rank table and its cache (12 R335). -/
def State.peerOf (s : State) (q : Nat) : Option Nat × State :=
  let r := s.quayQueue q
  let rank := r.fld 8 4 % 2 ^ 18
  let quay := quayOf q
  if !r.ranked then (some rank, s)
  else
    let key := 2 ^ 19 * quay + rank
    let cached := Tab.get 0 s.ranks key
    let entry := if cached ≠ 0 then cached - 1 else s.memReadN (s.fldAt (.quay quay) 0x018 0 48 + 4 * rank) 4
    let s := if cached ≠ 0 then s else s.cacheRank quay key entry
    if s.fldAt (.quay quay) 0x020 0 19 ≤ rank ∨ !entry.testBit 31 then (none, s) else (some (entry % 2 ^ 18), s)

/-- VC of requests and of responses (12 R322). -/
def reqVc (guar : Bool) : Nat := if guar then 2 else 5
def respVc (guar : Bool) : Nat := if guar then 3 else 6

/-- A packet of a queue to its peer. -/
def QuayQueue.packet (r : QuayQueue) (q dst tkind psn : Nat) : Packet :=
  { vc := reqVc r.guaranteed, ovc := 0, rmode := if r.guaranteed then 1 else r.rmode, dst := dst, src := 0, tag := r.jobTag
    tkind := tkind, guar := r.guaranteed, dq := r.fld 12 4 % 2 ^ 18, sq := q, psn := psn % 2 ^ 32 }

/-- Send a packet of control from a queue to its peer: ACK, NAK or GRANT, on the response VC. -/
def State.sendControl (s : State) (q tkind psn addr data : Nat) : State :=
  let r := s.quayQueue q
  match s.peerOf q with
  | (some dst, s) => s.inject { r.packet q dst tkind psn with vc := respVc r.guaranteed, last := true, addr := addr, data := data }
  | (none, s) => s

/-- Send a GRANT of the cumulative bytes granted (12 R325). -/
def State.sendGrant (s : State) (q : Nat) : State :=
  let r := s.quayQueue q
  let r := { r.put 88 8 (r.rxFreed + r.winBytes) with freeFrom := none, granted := s.clock }
  ((s.setQuayQueue q r).sendControl q 9 0 r.rxGranted 0).quayCount (quayOf q) 11 1

/-- Write a queue's context back to HBM and give it up: the queue is DISABLED (12 R311). -/
def State.disableQueue (s : State) (q : Nat) : State :=
  let r := s.quayQueue q
  (s.memWrite (s.ctxAddr q) (r.setState 0).context).setQuayQueue q {}

/-- ENABLE (12 R313). -/
def State.enableQueue (s : State) (q : Nat) : State :=
  let m := s.memRead (s.ctxAddr q) 128
  if s.limited || (s.quayQueue q).state != 0 then s.qctlStatus q 1 false true 5
  else if !m.ok || m.poison then s.qctlStatus q 1 false true 2
  else match enableCause m.data with
    | 0 =>
      let r : QuayQueue := { context := m.data.take 48 ++ List.replicate 80 0, progress := s.clock }
      ((s.setQuayQueue q (r.setState 1)).sendGrant q).qctlStatus q 1 true false 0
    | c => s.qctlStatus q 1 false true c

/-- DRAIN (12 R313). -/
def State.drainQueue (s : State) (q : Nat) : State :=
  let r := s.quayQueue q
  if r.state = 0 then s.qctlStatus q 2 false false 0 else (s.setQuayQueue q (r.setState 3)).qctlStatus q 2 true false 0

/-- RESUME (12 R313): it continues after the operation that halted the queue. -/
def State.resumeQuayQueue (s : State) (q : Nat) : State :=
  let r := s.quayQueue q
  if r.state = 2 then (s.setQuayQueue q (r.setState 1)).qctlStatus q 4 true false 0 else s.qctlStatus q 4 false false 0

/-! ## Records and completion (12 R319, R320, R333) -/

/-- The statuses that halt a queue (12 Table 12-5). -/
def haltsQueue (status : Nat) : Bool := [1, 2, 5, 6, 7, 8].contains status

/-- The 32 bytes of a completion record (12 Table 12-4). -/
def recordBytes (status void flags user stamp result index : Nat) : List Byte :=
  leBytes 1 status ++ leBytes 1 void ++ leBytes 2 flags ++ leBytes 4 user ++ leBytes 8 stamp ++ leBytes 8 result
    ++ leBytes 4 index ++ leBytes 4 0

/-- PHASE of the record at an index: 1 on the first lap of the ring (12 Table 12-4). -/
def phaseOf (index entries : Nat) : Nat := if index / entries % 2 = 0 then 1 else 0

/-- DEADLINE of a request. -/
def QuayOp.deadline (o : QuayOp) : Nat := byteFld o.request 48 8

/-- The operation is late on a promise that stands (12 R333). -/
def QuayOp.isLate (o : QuayOp) : Bool := o.admitted && o.void == 0 && decide (o.deadline < o.stamp)

/-- FLAGS of an operation's record. -/
def QuayOp.flags (o : QuayOp) (phase : Nat) : Nat :=
  phase + (if o.void ≠ 0 then 2 else 0) + (if o.isLate then 4 else 0) + (if o.tideQ then 8 else 0) + (if o.poison then 16 else 0)

/-- Where a queue's next record goes. -/
def QuayQueue.recordAt (r : QuayQueue) : Nat := r.fld 32 8 + 32 * (r.cqTail % r.cqN)

/-- Write the record of the oldest operation, once it has ended, then its signal; a halting status halts the queue (12 R319,
R320, R333). -/
def State.recordOp (s : State) (q : Nat) : State :=
  let r := s.quayQueue q
  match r.ops with
  | [] => s
  | o :: rest =>
    match o.status with
    | none => s
    | some st =>
      let i := r.cqTail
      let bytes := recordBytes st o.void (o.flags (phaseOf i r.cqN)) (byteFld o.request 40 4) o.stamp o.result o.index
      let r' := ({ r with ops := rest }.put 56 4 (i + 1)).put 116 4 (r.cqResv - 1)
      let r' := if haltsQueue st && r.state = 1 then
        ((r'.setState 2).put 120 4 (r.fld 120 4 / 256 * 256 + st)).put 124 4 o.index else r'
      let s := (s.memWrite r.recordAt bytes).setQuayQueue q r'
      let s := if o.isLate then (s.quayCount (quayOf q) 6 1).report 0x1A none q else s
      if (byteFld o.request 1 1).testBit 2 then s.sendAdd (byteFld o.request 44 4 % 2 ^ 17) 1 2 else s

/-- RESET ends every started operation with ABORTED, void with cause ABORT, and disables the queue (12 R313, R332). -/
def State.abortOps (s : State) (q : Nat) : State :=
  let s := s.voidQueueOps q 7 (fun _ => true)
  let r := s.quayQueue q
  let s := s.setQuayQueue q { r with ops := r.ops.map fun o =>
    if o.status.isNone then { o with status := some 4, stamp := s.now, tideQ := s.tideQ } else o }
  (List.range r.ops.length).foldl (fun s _ => s.recordOp q) s

/-- A queue that is not DISABLED ends every operation and is disabled. -/
def State.stopQueue (s : State) (q : Nat) : State :=
  let s := s.abortOps q
  let r := s.quayQueue q
  (s.setQuayQueue q (r.put 52 4 r.sqTail)).disableQueue q

/-- RESET (12 R313). -/
def State.resetQueue (s : State) (q : Nat) : State :=
  (if (s.quayQueue q).state = 0 then s else s.stopQueue q).qctlStatus q 3 true false 0

/-- A write to QCTL (12 R313, R342, 15 R419): a reserved CMD, a queue of the other quay, or a quay that is not NORMAL
discards it with CFG_REJECT; an ENABLE that names the other quay's queue is reported as refused too. -/
def State.writeQctl (s : State) (quay v : Nat) : State :=
  let q := v % 2 ^ 18
  let cmd := bits v 18 3
  if cmd = 0 ∨ 4 < cmd ∨ s.domainState (464 + quay) ≠ 0 then s.reject (.quay quay)
  else if quayOf q ≠ quay then (if cmd = 1 then (s.reject (.quay quay)).qctlStatusAt quay q 1 false true 5 else s.reject (.quay quay))
  else match cmd with
    | 1 => s.enableQueue q
    | 2 => s.drainQueue q
    | 3 => s.resetQueue q
    | _ => s.resumeQuayQueue q

/-! ## Bells and the staging window (12 R314, R315) -/

/-- Set TAIL_REJECT in the queue's ERR. -/
def QuayQueue.tailReject (r : QuayQueue) : QuayQueue := r.put 120 4 (if (r.fld 120 4).testBit 8 then r.fld 120 4 else r.fld 120 4 + 256)

/-- A bell of a queue with an index selector (12 R314, 14 R386). -/
def State.queueBell (s : State) (q sel idx : Nat) : State :=
  let r := s.quayQueue q
  if r.state = 0 then s
  else s.setQuayQueue q (
    match sel with
    | 0 => if r.overfills idx then r.tailReject else r.put 48 4 idx
    | 1 => if diff32 r.cqTail r.cqHead < diff32 idx r.cqHead then r else r.put 60 4 idx
    | 2 =>
      if diff32 r.rqTail r.rqHead < diff32 idx r.rqHead then r
      else
        let n := diff32 idx r.rqHead
        let r' := (r.put 68 4 idx).put 96 8 (r.rxFreed + n * r.slotSize)
        { r' with freeFrom := if n = 0 then r.freeFrom else some (r.freeFrom.getD s.clock) }
    | _ => r.tailReject)

/-- Where the next request written through the staging window goes. -/
def QuayQueue.stagingSlot (r : QuayQueue) : Nat := r.fld 24 8 + 64 * (r.sqTail % r.sqN)

/-- The channel of that slot takes no access now (10 R263). -/
def State.stagingWaits (s : State) (q : Nat) : Bool := (s.quayQueue q).state != 0 && s.hbmWaits (s.quayQueue q).stagingSlot 64

/-- A write to a queue's staging window (12 R315). -/
def State.writeStaging (s : State) (q off : Nat) (data : List Byte) (poison : Bool) : State :=
  let r := s.quayQueue q
  if r.state = 0 then s
  else if off % 64 ≠ 0 ∨ data.length ≠ 64 ∨ r.overfills (r.sqTail + 1) then s.setQuayQueue q r.tailReject
  else
    let s := s.memWrite r.stagingSlot data poison
    s.setQuayQueue q (r.put 48 4 (r.sqTail + 1))

/-! ## The reservation calendar (12 R327–R331) -/

/-- Wire bytes of a calendar slot of a port (12 R327). -/
def State.slotBytes (s : State) (p : Nat) : Nat := 512 * s.portWidth p

/-- A calendar register as admission sees it for a slot: what a pending commit captured holds for later periods (12 R331). -/
def State.calReg (s : State) (quay key : Nat) (absSlot : Nat) : Word :=
  let pend := (Tab.get (0, []) s.commits (commitAddr (.calendar quay))).2
  match (if s.now / 102400 < absSlot / 4096 then pend.find? fun e => e.1 == key else none) with
  | some e => e.2
  | none => s.getReg key

/-- The queue that owns a slot of a port, if any (12 Table 12-11). -/
def State.slotOwner (s : State) (p absSlot : Nat) : Option Nat :=
  let i := absSlot % 4096
  let key := blockBase (.calendar (p / 8)) + 0x8000 + 0x4000 * (p % 8) + i / 2 * 8
  let e := fld (s.calReg (p / 8) key absSlot) (32 * (i % 2)) 32
  if e.testBit 31 then some (e % 2 ^ 18) else none

/-- The slot overlaps the hold of an accepted activation of the quay's microcode (17 R459). -/
def State.slotHeld (s : State) (quay absSlot : Nat) : Bool :=
  s.harbour.activations.any fun a => a.value == 1 + quay && decide (a.mark < absSlot * 25 + 25) && decide (absSlot * 25 < a.mark + 12000)

/-- Bytes booked in a slot. -/
def State.bookedAt (s : State) (p absSlot : Nat) : Nat := Tab.get 0 s.booked (16 * absSlot + p)

/-- Book wire bytes in a queue's slots of a port from a first slot on: every slot ends, with `back` added, by `limit`, and
lies within the horizon (12 R329). -/
def State.bookSlots (s : State) (q p back limit horizon : Nat) : Nat → Nat → Nat → Option (List (Nat × Nat × Nat))
  | 0, _, need => if need = 0 then some [] else none
  | fuel + 1, slot, need =>
    if need = 0 then some []
    else if horizon ≤ slot ∨ limit < slot * 25 + 25 + back then none
    else if s.slotOwner p slot = some q ∧ !s.slotHeld (quayOf q) slot ∧ s.bookedAt p slot < s.slotBytes p then
      let take := min need (s.slotBytes p - s.bookedAt p slot)
      match State.bookSlots s q p back limit horizon fuel (slot + 1) (need - take) with
      | some l => some ((p, slot, take) :: l)
      | none => none
    else State.bookSlots s q p back limit horizon fuel (slot + 1) need

/-- The end of the horizon: the current period and the three after it (12 R329). -/
def State.horizon (s : State) : Nat := (s.now / 102400 + 4) * 4096

/-- Enter bookings into the calendar's books. -/
def State.book (s : State) (l : List (Nat × Nat × Nat)) : State :=
  l.foldl (fun s e => { s with booked := Tab.set 0 s.booked (16 * e.2.1 + e.1) (s.bookedAt e.1 e.2.1 + e.2.2) }) s

/-- Take bookings out of the calendar's books. -/
def State.unbook (s : State) (l : List (Nat × Nat × Nat)) : State :=
  l.foldl (fun s e => { s with booked := Tab.set 0 s.booked (16 * e.2.1 + e.1) (s.bookedAt e.1 e.2.1 - e.2.2) }) s

/-- The port that R300 chooses now toward a node under RMODE 1; none without a valid entry or an UP port. -/
def State.routePort (s : State) (dst : Nat) : Option Nat :=
  match s.routePkt (s.viaOf { vc := 2, ovc := 2, dst := dst, src := s.selfNgi, tag := 0, tkind := 1, rmode := 1, ttl := 63 }) s.bank with
  | .send q p => if q.vc = 7 ∨ !s.portUp p then none else some p
  | _ => none

/-! ## Work requests (12 R316, R317) -/

def wrOpcode (d : List Byte) : Nat := byteFld d 0 1
def wrFlag (d : List Byte) (i : Nat) : Bool := (byteFld d 1 1).testBit i
def wrAop (d : List Byte) : Nat := byteFld d 2 1 % 16
/-- Bytes of an ATOMIC operand. -/
def wrAsize (d : List Byte) : Nat := if (byteFld d 2 1).testBit 4 then 8 else 4
def wrFetch (d : List Byte) : Bool := (byteFld d 2 1).testBit 5
def wrLen (d : List Byte) : Nat := byteFld d 4 4
def wrLocal (d : List Byte) : Nat := byteFld d 8 8
def wrRemote (d : List Byte) : Nat := byteFld d 16 8
def wrDeadline (d : List Byte) : Nat := byteFld d 48 8

/-- The window bytes of a request (12 Table 12-3); the peer's slot size is taken as this queue's own slot size field. -/
def wrWindow (r : QuayQueue) (d : List Byte) : Nat :=
  if wrOpcode d = 1 then wrLen d else if wrOpcode d = 3 then max r.slotSize (wrLen d) else 0

/-- A request keeps Table 12-2, Table 12-3 and its queue's class (12 R317). -/
def wrOk (guar : Bool) (d : List Byte) : Bool :=
  let op := wrOpcode d
  let len := wrLen d
  decide (1 ≤ op) && decide (op ≤ 6) && byteFld d 1 1 / 8 == 0 && decide (wrAop d ≤ 9) && byteFld d 2 1 / 64 == 0 && zeroAt d 3 1
    && (if op = 5 then decide (wrRemote d < 2 ^ 17) else decide (wrRemote d < 2 ^ 50))
    && decide (byteFld d 44 4 < 2 ^ 17) && decide (byteFld d 60 4 < 2 ^ 17)
    && (match op with
        | 1 => decide (1 ≤ len) && decide (len ≤ 2 ^ 30)
        | 2 => decide (1 ≤ len) && decide (len ≤ 2 ^ 30) && !guar
        | 3 => decide (1 ≤ len) && decide (len ≤ 65536)
        | _ => len == 0)
    && (if op = 6 then wrDeadline d == 0 else if guar then wrDeadline d != 0 else wrDeadline d == 0)
    && (op != 4 || (wrRemote d % 2 ^ 40 % wrAsize d == 0 && (!wrFetch d || wrLocal d % wrAsize d == 0)))

/-- Bytes of LOCAL that a request uses. -/
def wrLocalBytes (d : List Byte) : Nat :=
  match wrOpcode d with
  | 1 | 2 | 3 => wrLen d
  | 4 => if wrFetch d then wrAsize d else 0
  | _ => 0

/-- Packets of a request. -/
def wrPackets (d : List Byte) : Nat :=
  match wrOpcode d with
  | 1 | 2 | 3 => ceilDiv (wrLen d) 4096
  | 4 | 5 => 1
  | _ => 0

/-- The i-th packet of an operation, its payload read from LOCAL (12 R322, R324). One GET_REQ asks for each 4 096 bytes. -/
def State.opPacket (s : State) (q dst : Nat) (o : QuayOp) (i : Nat) : Packet :=
  let r := s.quayQueue q
  let d := o.request
  let op := wrOpcode d
  let base := { r.packet q dst (if op = 5 then 10 else if op = 4 then 5 else op) (o.firstPsn + i) with last := decide (i + 1 = wrPackets d) }
  let n := min 4096 (wrLen d - 4096 * i)
  match op with
  | 1 | 3 =>
    let m := s.memRead (wrLocal d + 4096 * i) n
    { base with
      tkind := if op = 1 then 1 else 4, addr := (if op = 1 then wrRemote d else 0) + 4096 * i, data := n
      payload := if m.ok then m.data else List.replicate n 0, poison := m.poison || !m.ok }
  | 2 => { base with tkind := 2, addr := wrRemote d + 4096 * i, data := n }
  | 4 => { base with code := byteFld d 2 1, addr := wrRemote d, data := byteFld d 24 8
                     payload := if wrAop d = 9 then leBytes 8 (byteFld d 32 8) else [] }
  | _ => { base with addr := wrRemote d, data := byteFld d 24 4 }

/-- Send packets of an operation by index. -/
def State.sendOp (s : State) (q dst : Nat) (o : QuayOp) (is : List Nat) (retx : Bool) : State :=
  is.foldl (fun s i => s.inject { s.opPacket q dst o i with retx := retx } (o.void == 1)) s

/-- Wire bytes that admission books (12 R329). -/
def wrNeed (d : List Byte) : Nat := if wrOpcode d = 1 ∨ wrOpcode d = 3 then wrLen d + 64 * ceilDiv (wrLen d) 4096 else 96

/-- Path time that admission adds to a slot's end (12 R329). -/
def wrBack (r : QuayQueue) (d : List Byte) : Nat :=
  r.fld 16 4 + 300 + (if wrOpcode d = 4 && wrFetch d then r.fld 16 4 + 300 else 0)

/-- Admission of a guaranteed operation at t: the refusal, or the bookings and the port (12 R329). -/
def State.admitOp (s : State) (q dst t : Nat) (d : List Byte) : Except Nat (List (Nat × Nat × Nat) × Nat) :=
  let r := s.quayQueue q
  if !s.admits || wrDeadline d ≤ t then .error 0x10
  else match s.routePort dst with
    | none => .error 0x13
    | some p =>
      if r.window < wrWindow r d then .error 0x11
      else match s.bookSlots q p (wrBack r d) (wrDeadline d) s.horizon 16384 (ceilDiv (t + 1000) 25) (wrNeed d) with
        | some l => .ok (l, p)
        | none => .error 0x12

/-- Append an operation that ends at once with a status. -/
def State.endAtOnce (s : State) (q : Nat) (o : QuayOp) (status : Nat) : State :=
  let r := s.quayQueue q
  s.setQuayQueue q { r with ops := r.ops ++ [{ o with status := some status, stamp := s.now, tideQ := s.tideQ }] }

/-- The counters of refusals: REF_TIDE 1, REF_WINDOW 2, REF_CALENDAR 3, REF_ROUTE 4 (12 Table 12-10). -/
def refusalCount (status : Nat) : Nat := status - 0x10 + 1

/-- Start the operation and send its packets (12 R318, R325, R329). -/
def State.launchOp (s : State) (q dst : Nat) (o : QuayOp) : State :=
  let r := s.quayQueue q
  let n := wrPackets o.request
  let m := s.memRead (wrLocal o.request) (wrLen o.request)
  let o := if wrOpcode o.request = 1 ∨ wrOpcode o.request = 3 then { o with poison := m.poison || !m.ok } else o
  let r := ({ r with ops := r.ops ++ [o], progress := if r.ops.isEmpty then s.clock else r.progress }.put 104 4 (r.txPsn + n)).put 80 8
    (r.txUsed + wrWindow r o.request)
  ((s.setQuayQueue q r).book o.slots).sendOp q dst o (List.range n) false

/-- Start a valid request at t: a NOP completes; a guaranteed one is admitted or refused; any other is sent. -/
def State.runRequest (s : State) (q t : Nat) (o : QuayOp) : State :=
  let d := o.request
  let r := s.quayQueue q
  if wrOpcode d = 6 then s.endAtOnce q o 0
  else match s.peerOf q with
    | (none, s) => s.endAtOnce q o 5
    | (some dst, s) =>
      if !(s.routeEntry s.bank (s.viaOf { vc := 5, ovc := 5, dst := dst, src := 0, tag := 0, tkind := 1 }).target).testBit 27 then s.endAtOnce q o 5
      else if r.guaranteed then
        match s.admitOp q dst t d with
        | .error st => (s.quayCount (quayOf q) (refusalCount st) 1).endAtOnce q o st
        | .ok (l, p) => (s.quayCount (quayOf q) 0 1).launchOp q dst { o with admitted := true, slots := l, port := p }
      else s.launchOp q dst o

/-- The request at the head of the submission ring, as the quay reads it. -/
def State.headRequest (s : State) (q : Nat) : ReadResult :=
  let r := s.quayQueue q
  s.memRead (r.fld 24 8 + 64 * (r.sqHead % r.sqN)) 64

/-- A channel of the head request's slot takes no access now (10 R263). -/
def State.ringWaits (s : State) (q : Nat) : Bool :=
  let r := s.quayQueue q
  s.hbmWaits (r.fld 24 8 + 64 * (r.sqHead % r.sqN)) 64

/-- The head request may start: the queue is ACTIVE and not held, FENCE and the wait are met, a record can be reserved, the
memory that it reads answers, and a best-effort window suffices (12 R318, R325). -/
def State.headReady (s : State) (q : Nat) (m : ReadResult) : Bool :=
  let r := s.quayQueue q
  let d := m.data
  let good := m.ok && !m.poison && wrOk r.guaranteed d
  r.state == 1 && r.sqHead != r.sqTail && !s.ringWaits q && (!good || !s.hbmWaits (wrLocal d) (wrLocalBytes d)) && !s.quayHeld (quayOf q) && !s.safe && r.cqRoom
    && (!good || ((!wrFlag d 0 || r.ops.isEmpty)
      && (!wrFlag d 1 || !s.trigEnabled (byteFld d 60 4) || s.trigWait (byteFld d 60 4) (byteFld d 56 4))
      && (r.guaranteed || decide (wrWindow r d ≤ r.window))))

/-- Start the head request of a queue (12 R317, R318, 13 R346). -/
def State.startHead (s : State) (q : Nat) : State :=
  let r := s.quayQueue q
  let m := s.headRequest q
  if s.headReady q m then
    let s := s.setQuayQueue q ((r.put 52 4 (r.sqHead + 1)).put 116 4 (r.cqResv + 1))
    let o : QuayOp := { index := r.sqHead, request := m.data, start := s.now, firstPsn := r.txPsn, endPsn := (r.txPsn + wrPackets m.data) % 2 ^ 32 }
    if !m.ok then s.endAtOnce q { o with request := List.replicate 64 0, endPsn := r.txPsn } 2
    else if m.poison then s.endAtOnce q { o with request := List.replicate 64 0, endPsn := r.txPsn, poison := true } 1
    else if !wrOk r.guaranteed m.data || (wrFlag m.data 1 && !s.trigEnabled (byteFld m.data 60 4)) then
      s.endAtOnce q { o with endPsn := r.txPsn } 1
    else if wrLocalBytes m.data ≠ 0 ∧ !s.reachable (wrLocal m.data) (wrLocalBytes m.data) then
      s.endAtOnce q { o with endPsn := r.txPsn } 2
    else s.runRequest q s.now o
  else s

/-- The kind of command that a head request is: its opcode, and NOP for one that is unreadable, poisoned or reserved. -/
def State.headKind (s : State) (q : Nat) : Nat :=
  let m := s.headRequest q
  let op := wrOpcode m.data
  if !m.ok || m.poison || op = 0 || 6 < op then 6 else op

/-- Start the head request where it is of the command's kind. -/
def State.startKind (s : State) (q kind : Nat) : State :=
  if (s.quayQueue q).state = 1 && s.headKind q = kind then s.startHead q else s

/-! ## Booking again (12 R331) -/

/-- Wire bytes of an operation whose packets have not started on its port. -/
def State.unsentBytes (s : State) (q : Nat) (o : QuayOp) : Nat :=
  sumNat (((s.port o.port).egress.filter fun w =>
    w.port == 16 && w.pkt.sq == q && w.pkt.guar && decide (diff32 w.pkt.psn o.firstPsn < diff32 o.endPsn o.firstPsn)).map fun w =>
      w.pkt.payload.length + 64)

/-- Book one operation again from its t: it keeps its promise where it fits, else the promise is void with a cause. -/
def State.rebookOp (s : State) (cause q : Nat) (o : QuayOp) : State :=
  let r := s.quayQueue q
  let need := s.unsentBytes q o
  if need = 0 then s
  else
    let free := s.unbook (o.slots.filter fun e => decide (s.now ≤ e.2.1 * 25))
    match free.bookSlots q o.port (wrBack r o.request) o.deadline free.horizon 16384 (ceilDiv (max (o.start + 1000) s.now) 25) need with
    | some l =>
      (free.book l).setQuayQueue q { r with ops := r.ops.map fun x => if x.index = o.index then { x with slots := l } else x }
    | none => free.voidQueueOps q cause (fun x => x.index == o.index)

end Sys2Proof.Machine
end

