-- ==== Sys2Proof/Machine/VecOps.lean ====
section
/-! DEFINITION. Reading and writing runs of elements with their poison, as engines and pumps do. -/

namespace Sys2Proof.Machine

/-- An element as a unit reads it. -/
structure Elem where
  code   : Nat
  poison : Bool := false
  deriving DecidableEq, Repr

/-- Read one element of `size` bytes. -/
def State.elemAt (s : State) (a size : Nat) : Elem :=
  let m := s.memRead a size
  { code := leNat m.data, poison := m.poison }

/-- Some poisoned byte offset lies in the range. -/
def anyIn (pois : Nat → Bool) (off n : Nat) : Bool := (List.range n).any fun i => pois (off + i)

/-- Write a run of bytes; a byte offset that is poisoned poisons its whole unit, and no other (10 R261, 04 R511). -/
def State.writeRun (s : State) (a : Nat) (bytes : List Byte) (pois : Nat → Bool) : State :=
  (unitsOf a bytes.length).foldl
    (fun s u => s.memWrite u.1 ((bytes.drop (u.1 - a)).take u.2) (anyIn pois (u.1 - a) u.2)) s

/-- The bytes of a run of elements. -/
def elemBytes (size : Nat) (es : List Elem) : List Byte := es.flatMap fun e => leBytes size e.code

/-- Write consecutive elements. -/
def State.writeElems (s : State) (a size : Nat) (es : List Elem) : State :=
  s.writeRun a (elemBytes size es) (fun i => (es.getD (i / size) { code := 0 }).poison)

/-- Read consecutive elements. -/
def State.readElems (s : State) (a size n : Nat) : List Elem := (List.range n).map fun i => s.elemAt (a + i * size) size

/-- Two non-empty ranges of bytes share a byte. -/
def overlaps (a n b m : Nat) : Bool := decide (0 < n) && decide (0 < m) && decide (a < b + m) && decide (b < a + n)

/-- The 16-bit draw of stochastic rounding with index `i` of a command (03 R85, R92). -/
def State.draw16 (s : State) (i : Nat) : Nat := (Config.draw16 (s.draws + i)).toNat

end Sys2Proof.Machine
end

