-- ==== Sys2Proof/Machine/CollOps.lean ====
section
/-! DEFINITION. Groups of the collective engines: contexts, tables, steps, chunks, windows and admission (13). -/

namespace Sys2Proof.Machine

/-! ## Contexts (13 R348) -/

/-- Where the context of a group stands in HBM (13 R348). -/
def State.grpAddr (s : State) (g : Nat) : Nat := s.fldAt (.collective (groupQuay g)) 0x000 0 48 + g % 2048 * 256

def GroupRun.fld (r : GroupRun) (off n : Nat) : Nat := byteFld r.context off n

/-- Write a field of a group's context. -/
def GroupRun.put (r : GroupRun) (off n v : Nat) : GroupRun :=
  if r.context.length < off + n then r else { r with context := setByteFld r.context off n (v % 2 ^ (8 * n)) }

/-- STATE of a group: 0 DISABLED, 1 ARMING, 2 ACTIVE, 3 FAILED, 4 QUIESCED (13 Table 13-5). -/
def GroupRun.state (r : GroupRun) : Nat := if r.context.isEmpty then 0 else r.fld 0 1 % 8
def GroupRun.class1 (r : GroupRun) : Bool := (r.fld 0 1).testBit 3
/-- The top level. -/
def GroupRun.top (r : GroupRun) : Nat := bits (r.fld 0 1) 4 2
def GroupRun.epoch (r : GroupRun) : Nat := r.fld 1 1 % 16
def GroupRun.sqN (r : GroupRun) : Nat := 2 ^ (r.fld 5 1 % 16)
def GroupRun.cqN (r : GroupRun) : Nat := 2 ^ (r.fld 5 1 / 16)
def GroupRun.chunkBytes (r : GroupRun) : Nat := 2 ^ (r.fld 6 1 % 32)
def GroupRun.n (r : GroupRun) : Nat := r.fld 8 4
def GroupRun.rank (r : GroupRun) : Nat := r.fld 12 4
def GroupRun.members (r : GroupRun) : Nat := r.fld 24 8
def GroupRun.sqTail (r : GroupRun) : Nat := r.fld 136 4
def GroupRun.sqHead (r : GroupRun) : Nat := r.fld 140 4
def GroupRun.cqTail (r : GroupRun) : Nat := r.fld 144 4
def GroupRun.cqHead (r : GroupRun) : Nat := r.fld 148 4
def GroupRun.opseq (r : GroupRun) : Nat := r.fld 152 4
def GroupRun.lvlFmt (r : GroupRun) (l : Nat) : Nat := r.fld (64 + 16 * l) 2
/-- Elements of a block of an 8-bit level format. -/
def GroupRun.lvlBlock (r : GroupRun) (l : Nat) : Nat := let b := r.fld (66 + 16 * l) 1; 2 ^ (if b = 0 then 10 else b)
/-- Bytes of staging of a level. -/
def GroupRun.stage (r : GroupRun) (l : Nat) : Nat := r.fld (68 + 16 * l) 4 * 1024
def GroupRun.stepNs (r : GroupRun) (l : Nat) : Nat := r.fld (72 + 16 * l) 4
def GroupRun.pathNs (r : GroupRun) (l : Nat) : Nat := r.fld (76 + 16 * l) 4

/-- Write STATE, in the quay and in the context. The other bits of the context's byte are the software's in QUIESCED (13 R348). -/
def State.setGroupState (s : State) (g v : Nat) : State :=
  let r := s.group g
  let r := r.put 0 1 (r.fld 0 1 / 8 * 8 + v)
  (s.setGroup g r).memWrite (s.grpAddr g) (leBytes 1 (s.memReadN (s.grpAddr g) 1 / 8 * 8 + v))

/-- Write the quay's own bytes of a context back to HBM (13 R348). -/
def State.writeGroupStats (s : State) (g : Nat) : State :=
  let r := s.group g
  if r.context.isEmpty then s
  else (s.setGroup g { r with written := s.clock }).memWrite (s.grpAddr g + 136) (r.context.drop 136)

/-- A wrapping count of a level's statistics: BYTES_SENT at 0, WAIT_WIN_NS at 8 (13 STAT_l). -/
def GroupRun.stat (r : GroupRun) (l off n : Nat) : GroupRun := r.put (160 + 24 * l + off) 8 (r.fld (160 + 24 * l + off) 8 + n)

/-- Count NaN and saturation events of a level, each saturating (13 STAT_l). -/
def GroupRun.countEvents (r : GroupRun) (l nans sats : Nat) : GroupRun :=
  let e := r.fld (180 + 24 * l) 4
  r.put (180 + 24 * l) 4 (min (bits e 0 16 + nans) 0xFFFF + min (bits e 16 16 + sats) 0xFFFF * 2 ^ 16)

/-- Bytes of staging in use at a level. -/
def GroupRun.stageUsed (r : GroupRun) (l : Nat) : Nat :=
  sumNat ((r.staging.filter fun e => e.pkt.code % 4 == l).map fun e => e.pkt.payload.length)

/-- Bytes of chunks of a level that wait for a window. -/
def GroupRun.readyBytes (r : GroupRun) (l : Nat) : Nat :=
  sumNat ((r.ready.filter fun e => e.1 == l).map fun e => sumNat (e.2.2.map fun p => p.payload.length))

/-! ## The ring table (13 R350) -/

/-- A ring record (13 Table 13-4). -/
structure Ring where
  level   : Nat
  w       : Nat
  n       : Nat
  pos     : Nat
  path    : List Nat
  owner   : List Nat
  member  : List Nat
  /-- Its reserved fields are zero, and its field ranges hold. -/
  ok      : Bool
  next    : Nat
  deriving DecidableEq, Repr

/-- Read a ring record. -/
def State.ringAt (s : State) (a : Nat) : Ring :=
  let h := (s.memRead a 80).data
  let level := byteFld h 0 1 % 4
  let w := byteFld h 1 1
  let n := byteFld h 2 1
  let path := [byteFld h 4 1, byteFld h 5 1, byteFld h 6 1]
  let owner := (List.range 64).map fun k => byteFld h (16 + k) 1
  let member := (List.range n).map fun q => s.memReadN (a + 80 + 4 * q) 4
  { level := level, w := w, n := n, pos := byteFld h 3 1, path := path, owner := owner.take w, member := member
    next := byteFld h 8 4
    ok := decide (byteFld h 0 1 < 4) && decide (1 ≤ w) && decide (w ≤ 64) && decide (1 ≤ n) && decide (n ≤ 64)
      && decide (byteFld h 3 1 < n) && zeroAt h 7 1 && zeroAt h 12 4 && byteFld h 8 4 % 64 == 0
      && ((path.drop level).all fun p => p == 0) && ((owner.take w).all fun o => decide (o < n))
      && ((owner.drop w).all fun o => o == 0) && ((List.range n).all fun q => (owner.take w).contains q)
      && (s.memRead a (80 + 4 * n)).ok && !(s.memRead a (80 + 4 * n)).poison }

/-- Walk the ring records from an offset; `none` where the list does not end. -/
def State.walkRings (s : State) (base : Nat) : Nat → Nat → Option (List Ring)
  | 0, _ => none
  | fuel + 1, off =>
    let r := s.ringAt (base + off)
    if !r.ok then none
    else if r.next = 0 then some [r]
    else match State.walkRings s base fuel r.next with
      | some l => some (r :: l)
      | none => none

/-- The rings of a group, in table order. -/
def State.rings (s : State) (r : GroupRun) : List Ring := (s.walkRings (r.fld 32 8) 5000 0).getD []

/-- Slot k of a range divided into W slots (13 R350). -/
def slotRange (range : Nat × Nat) (w k : Nat) : Nat × Nat :=
  (range.1 + k * (range.2 - range.1) / w, range.1 + (k + 1) * (range.2 - range.1) / w)

/-- The element range that a ring of a level covers, down the slots of its path (13 R350). -/
def ringRange (rings : List Ring) (path : List Nat) (count : Nat) : Nat → Nat × Nat
  | 0 => (0, count)
  | l + 1 =>
    match rings.find? fun r => r.level == l && r.path.take l == path.take l with
    | some r => slotRange (ringRange rings path count l) r.w (path.getD l 0)
    | none => (0, 0)

/-- The slots that a position owns. -/
def Ring.slotsOf (r : Ring) (q : Nat) : List Nat := (List.range r.w).filter fun k => r.owner.getD k 0 == q

/-- The part of a position: the non-empty element ranges of its slots, as start and count (13 R350). -/
def ringPart (rings : List Ring) (count : Nat) (r : Ring) (q : Nat) : List (Nat × Nat) :=
  ((r.slotsOf q).map fun k =>
    let e := slotRange (ringRange rings r.path count r.level) r.w k
    (e.1, e.2 - e.1)).filter fun e => e.2 != 0

/-- PATH of a ring as a chunk carries it. -/
def Ring.pathWord (r : Ring) : Nat := r.path.getD 0 0 + r.path.getD 1 0 * 2 ^ 8 + r.path.getD 2 0 * 2 ^ 16

/-- The final range of this member: its parts in its rings of the top level (13 R350). -/
def finalRange (rings : List Ring) (top count : Nat) : List (Nat × Nat) :=
  (rings.filter fun r => r.level == top).flatMap fun r => ringPart rings count r r.pos

/-- The ring table agrees with the context: ascending levels, one ring at level 0, one ring at the next level for every slot
that this node owns below the top, no other, ranks below N, and this node at its position (13 R350). -/
def ringsOk (rings : List Ring) (top n rank : Nat) : Bool :=
  (rings.all fun r => decide (r.level ≤ top) && (r.member.all fun m => decide (m < n)) && r.member.getD r.pos n == rank)
    && ((rings.zip (rings.drop 1)).all fun e => decide (e.1.level ≤ e.2.level))
    && (rings.filter fun r => r.level == 0).length == 1
    && (rings.all fun r => r.level == top || (r.slotsOf r.pos).all fun k =>
        (rings.filter fun u => u.level == r.level + 1 && u.path.take (r.level + 1) == r.path.take r.level ++ [k]).length == 1)
    && (rings.all fun u => u.level == 0 || rings.any fun r =>
        r.level + 1 == u.level && u.path.take r.level == r.path.take r.level && (r.slotsOf r.pos).contains (u.path.getD r.level 0))

/-! ## Commands of a group (13 R351) -/

/-- A reserved field or encoding in bytes 0–135 of a context (13 Table 13-2). -/
def ctxReserved (d : List Byte) : Bool :=
  let sq := byteFld d 5 1 % 16
  let cq := byteFld d 5 1 / 16
  let class1 := (byteFld d 0 1).testBit 3
  let top := bits (byteFld d 0 1) 4 2
  let chunk := byteFld d 6 1 % 32
  decide (4 < byteFld d 0 1 % 8) || decide (64 ≤ byteFld d 0 1) || decide (16 ≤ byteFld d 1 1) || zeroAt d 2 2 || zeroAt d 4 1
    || decide (sq < 4) || decide (12 < sq) || decide (cq < sq) || decide (12 < cq) || decide (chunk < 12) || decide (20 < chunk)
    || decide (32 ≤ byteFld d 6 1) || decide (3 ≤ byteFld d 7 1) || zeroAt d 8 4 || decide (262144 < byteFld d 8 4)
    || decide (byteFld d 8 4 ≤ byteFld d 12 4) || decide (2 ^ 18 ≤ byteFld d 16 4) || (!class1 && !zeroAt d 16 4) || !zeroAt d 20 4
    || ((List.range 4).any fun l =>
        let f := fmtOf (byteFld d (64 + 16 * l) 2)
        let b := byteFld d (66 + 16 * l) 1
        !zeroAt d (67 + 16 * l) 1 || (decide (l ≤ top) &&
          (!fmtOk (byteFld d (64 + 16 * l) 2) true || !f.isFp || decide (0 < b ∧ b < 5) || decide (10 < b)
            || decide (byteFld d (68 + 16 * l) 4 * 1024 < 2 * 2 ^ chunk) || decide (262144 < byteFld d (68 + 16 * l) 4)
            || (!class1 && (!zeroAt d (72 + 16 * l) 4 || !zeroAt d (76 + 16 * l) 4)))))

/-- An address lies in a NEAR region of HBM or in a cistern. -/
def State.stageHome (s : State) (a : Nat) : Bool :=
  match placeOf a with
  | .hbm => !s.bitAt .regionTable (0x1000 + 8 * (a / 0x4000_0000)) 0
  | .cistern _ => true
  | _ => false

def State.ctxMisaligned (s : State) (d : List Byte) : Bool :=
  byteFld d 24 8 % 64 != 0 || byteFld d 32 8 % 64 != 0 || byteFld d 40 8 % (64 * 2 ^ (byteFld d 5 1 % 16)) != 0
    || byteFld d 48 8 % (32 * 2 ^ (byteFld d 5 1 / 16)) != 0 || byteFld d 56 8 % 4096 != 0 || !s.stageHome (byteFld d 56 8)

/-- The member table is readable, its reserved fields are zero, and the entry of MY_RANK names this node (13 R349). -/
def State.membersOk (s : State) (base n rank : Nat) : Bool :=
  s.reachable base (64 * n) && ((List.range n).all fun m =>
    let e := (s.memRead (base + 64 * m) 64).data
    bits (byteFld e 0 4) 18 13 == 0 && zeroAt e 4 4 && zeroAt e 20 4 && zeroAt e 56 8)
    && s.memReadN (base + 64 * rank) 4 == s.selfNgi + 2 ^ 31

/-- CAL_Q of a class 1 group is a DISABLED queue of the group's quay (13 Table 13-2). -/
def State.calQueueOk (s : State) (g q : Nat) : Bool := quayOf q == groupQuay g && (s.quayQueue q).state == 0

/-- Why ARM is refused: the cause of GCTL_STATUS, 0 for none (13 R351, Table 13-14). -/
def State.armCause (s : State) (g : Nat) (d : List Byte) : Nat :=
  let class1 := (byteFld d 0 1).testBit 3
  let top := bits (byteFld d 0 1) 4 2
  if ctxReserved d then 1
  else if s.ctxMisaligned d then 2
  else if !s.membersOk (byteFld d 24 8) (byteFld d 8 4) (byteFld d 12 4) then 3
  else match s.walkRings (byteFld d 32 8) 5000 0 with
    | none => 4
    | some rings =>
      if !ringsOk rings top (byteFld d 8 4) (byteFld d 12 4) then 4
      else if byteFld d 128 8 < s.now + 10000 then 5
      else if class1 && (byteFld d 7 1 != 1 || !s.calQueueOk g (byteFld d 16 4)
          || (List.range (top + 1)).any fun l => zeroAt d (72 + 16 * l) 4 || zeroAt d (76 + 16 * l) 4) then 6
      else 0

/-- Record a GCTL command in GCTL_STATUS of a quay. -/
def State.gctlStatusAt (s : State) (quay g cmd : Nat) (done refused : Bool) (cause : Nat) : State :=
  s.putN (.collective quay) 0x018
    (g + cmd * 2 ^ 12 + (if done then 2 ^ 15 else 0) + (if refused then 2 ^ 16 else 0) + cause * 2 ^ 17)

/-- Record a GCTL command at the group's own quay. -/
def State.gctlStatus (s : State) (g cmd : Nat) (done refused : Bool) (cause : Nat) : State :=
  s.gctlStatusAt (groupQuay g) g cmd done refused cause

/-- Zero the connection state of every member entry (13 R351). -/
def State.zeroConns (s : State) (base n : Nat) : State :=
  (List.range n).foldl (fun s m =>
    (s.memWrite (base + 64 * m + 8) (List.replicate 12 0)).memWrite (base + 64 * m + 24) (List.replicate 32 0)) s

/-- ARM (13 R351). -/
def State.armGroup (s : State) (g : Nat) : State :=
  let st := (s.group g).state
  let m := s.memRead (s.grpAddr g) 256
  if s.limited || (st != 0 && st != 4) then s.gctlStatus g 1 false true 7
  else if !m.ok || m.poison then s.gctlStatus g 1 false true 1
  else match s.armCause g m.data with
    | 0 =>
      let r : GroupRun := { context := m.data.take 136 ++ List.replicate 120 0 }
      let s := s.zeroConns r.members r.n
      (((s.setGroup g r).setGroupState g 1).writeGroupStats g).gctlStatus g 1 true false 0
    | c => s.gctlStatus g 1 false true c

/-! ## Connections and windows (13 R349, R361) -/

/-- The address of a field of a member entry. -/
def GroupRun.conn (r : GroupRun) (rank off : Nat) : Nat := r.members + 64 * rank + off

def State.connN (s : State) (r : GroupRun) (rank off n : Nat) : Nat := s.memReadN (r.conn rank off) n
def State.setConn (s : State) (r : GroupRun) (rank off n v : Nat) : State := s.memWriteN (r.conn rank off) n v

/-- The NGI of a member. -/
def State.memberNgi (s : State) (r : GroupRun) (rank : Nat) : Nat := s.connN r rank 0 4 % 2 ^ 18

/-- A group sends in class 1 but for an operation whose promise is void, which continues as class 0 (13 R360, R367). -/
def GroupRun.sendsClass1 (r : GroupRun) : Bool := r.class1 && !(r.op.any fun o => o.void != 0)

/-- The VC of a packet of a group (13 R360). -/
def groupVc (class1 resp : Bool) : Nat := if class1 then (if resp then 3 else 2) else (if resp then 6 else 4)

/-- A packet of a group to a member (13 Table 13-8). -/
def State.collPacket (s : State) (g : Nat) (r : GroupRun) (rank tkind seq : Nat) : Packet :=
  { vc := groupVc r.sendsClass1 (tkind == 17 || tkind == 18), ovc := 0
    rmode := r.fld 7 1 % 4, dst := s.memberNgi r rank, src := 0, tag := r.fld 2 2, tkind := tkind, guar := r.sendsClass1
    dq := g + r.epoch * 2 ^ 12 + seq % 256 * 2 ^ 16, sq := r.rank }

/-- Ring predecessors of this member at a level, one for each ring of more than one member. -/
def predecessors (rings : List Ring) (l : Nat) : List Nat :=
  (rings.filter fun r => r.level == l && decide (1 < r.n)).map fun r => r.member.getD ((r.pos + r.n - 1) % r.n) 0

/-- The window that this member grants a sender at a level: an equal share of the level's staging (13 R361). -/
def ringWindow (r : GroupRun) (rings : List Ring) (l rank : Nat) : Nat :=
  let ps := predecessors rings l
  if ps.contains rank then r.stage l / ps.length * (ps.filter fun p => p == rank).length else 0

/-! ## Requests (13 R352–R354) -/

def cqOp (d : List Byte) : Nat := byteFld d 0 1
def cqWait (d : List Byte) : Bool := (byteFld d 1 1).testBit 0
def cqSig (d : List Byte) : Bool := (byteFld d 1 1).testBit 1
def cqIn (d : List Byte) : Fmt := fmtOf (byteFld d 2 2)
def cqOut (d : List Byte) : Fmt := fmtOf (byteFld d 4 2)
def cqRop (d : List Byte) : Nat := byteFld d 6 1 % 4
def cqSrc (d : List Byte) : Nat := byteFld d 8 8
def cqDst (d : List Byte) : Nat := byteFld d 16 8
def cqCount (d : List Byte) : Nat := byteFld d 24 4
def cqRoot (d : List Byte) : Nat := byteFld d 28 4
def cqAux (d : List Byte) : Nat := byteFld d 32 8
def cqDeadline (d : List Byte) : Nat := byteFld d 48 8

def isReduction (op : Nat) : Bool := op == 1 || op == 2
def isVector (op : Nat) : Bool := op == 6 || op == 8 || op == 10
def isRooted (op : Nat) : Bool := [4, 7, 8, 9, 10].contains op

/-- The formats of an operation (13 Table 13-7): block-scaled formats are not accepted. -/
def cqFmtsOk (d : List Byte) : Bool :=
  fmtOk (byteFld d 2 2) false && fmtOk (byteFld d 4 2) true &&
    (if isReduction (cqOp d) then
      ((cqIn d).code == 8 && (cqOut d).code == 8) || (decide ((cqIn d).code ≤ 1) && (cqOut d).code == 0)
     else byteFld d 2 2 == byteFld d 4 2 && !(cqIn d).isFp8)

/-- Bytes of SRC that the operation reads on this member, and of DST that it writes (13 Table 13-7); what a -v operation
sends, its counts give. -/
def cqSrcBytes (r : GroupRun) (d : List Byte) : Nat :=
  let e := (cqIn d).size * cqCount d
  match cqOp d with
  | 1 | 2 => e
  | 3 => e
  | 4 => if cqRoot d = r.rank then e else 0
  | 5 => e * r.n
  | 7 => e
  | 9 => if cqRoot d = r.rank then e * r.n else 0
  | _ => 0

def cqDstBytes (r : GroupRun) (d : List Byte) : Nat :=
  let e := (cqOut d).size * cqCount d
  match cqOp d with
  | 5 => e * r.n
  | 7 => if cqRoot d = r.rank then e * r.n else 0
  | 8 => if cqRoot d = r.rank then e else 0
  | _ => e

/-- SRC and DST overlap only as Table 13-7 allows (13 R354). -/
def cqOverlapOk (r : GroupRun) (d : List Byte) : Bool :=
  let same := cqSrc d == cqDst d
  match cqOp d with
  | 1 | 2 => (same && (cqIn d).size == 4) || !overlaps (cqSrc d) (cqSrcBytes r d) (cqDst d) (cqDstBytes r d)
  | 3 => same
  | _ => !overlaps (cqSrc d) (cqSrcBytes r d) (cqDst d) (cqDstBytes r d)

/-- A request keeps R354. -/
def cqOk (r : GroupRun) (d : List Byte) : Bool :=
  let op := cqOp d
  decide (1 ≤ op) && decide (op ≤ 10) && decide (byteFld d 1 1 < 4) && decide (byteFld d 6 1 < 3) && zeroAt d 7 1
    && decide (byteFld d 44 4 < 2 ^ 17) && decide (byteFld d 60 4 < 2 ^ 17) && cqFmtsOk d
    && cqSrc d % (cqIn d).size == 0 && cqDst d % (cqOut d).size == 0
    && (!isRooted op || decide (cqRoot d < r.n)) && (isVector op || r.class1 || cqAux d == 0)
    && (!r.class1 || (decide (op ≤ 3) && cqDeadline d != 0)) && cqOverlapOk r d

/-! ## Steps (13 R352, R353, R356) -/

/-- Reduce-scatter of a ring (13 R356). -/
def scatterSteps (rings : List Ring) (count : Nat) (r : Ring) : List CollStep :=
  (List.range (r.n - 1)).map fun j =>
    let st := j + 1
    { level := r.level, phase := 0, step := st, path := r.pathWord, toRank := r.member[(r.pos + 1) % r.n]?
      frRank := r.member[(r.pos + r.n - 1) % r.n]?
      send := ringPart rings count r ((r.pos + r.n - st) % r.n), recv := ringPart rings count r ((r.pos + 2 * r.n - st - 1) % r.n) }

/-- All-gather of a ring (13 R356). A ring of one member sends nothing; its owner's replacement (13 R357) stands as a step of its own. -/
def gatherSteps (rings : List Ring) (count : Nat) (r : Ring) : List CollStep :=
  if r.n = 1 then
    [{ level := r.level, phase := 1, step := 1, path := r.pathWord, toRank := none, frRank := none, first := true
       send := ringPart rings count r r.pos, recv := [] }]
  else (List.range (r.n - 1)).map fun j =>
    let st := j + 1
    { level := r.level, phase := 1, step := st, path := r.pathWord, toRank := r.member[(r.pos + 1) % r.n]?
      frRank := r.member[(r.pos + r.n - 1) % r.n]?, first := st == 1
      send := ringPart rings count r ((r.pos + r.n + 1 - st) % r.n), recv := ringPart rings count r ((r.pos + r.n - st) % r.n) }

/-- The one step of a DIRECT exchange. -/
def directStep (recv : List (Nat × Nat)) : CollStep :=
  { level := 0, phase := 2, step := 0, path := 0, toRank := none, frRank := none, send := [], recv := recv.filter fun e => e.2 != 0 }

/-- The other members in the order in which this one sends to them: p + 1, p + 2, … (13 Table 13-7); and in the order in which it grants them
windows, of ascending distance (p − sender) mod N (13 R361). -/
def GroupRun.others (r : GroupRun) : List Nat := (List.range (r.n - 1)).map fun j => (r.rank + 1 + j) % r.n
def GroupRun.behind (r : GroupRun) : List Nat := r.others.reverse

/-- A count of the -v operations; a negative one stands for none. -/
def State.vCount (s : State) (d : List Byte) (i : Nat) : Nat :=
  let v := s.memReadN (cqAux d + 4 * i) 4
  if v < 2 ^ 31 then v else 0

/-- SCOUNT and RCOUNT of a member, and their exclusive prefix sums (13 R353). -/
def State.sCount (s : State) (d : List Byte) (m : Nat) : Nat := s.vCount d m
def State.rCount (s : State) (r : GroupRun) (d : List Byte) (m : Nat) : Nat := s.vCount d (r.n + m)
def State.sPrefix (s : State) (d : List Byte) (m : Nat) : Nat := sumNat ((List.range m).map fun i => s.sCount d i)
def State.rPrefix (s : State) (r : GroupRun) (d : List Byte) (m : Nat) : Nat := sumNat ((List.range m).map fun i => s.rCount r d i)

/-- Bytes of SRC that a -v operation sends from this member, its own block among them (13 R353). -/
def State.vecSrcBytes (s : State) (r : GroupRun) (d : List Byte) : Nat :=
  (cqIn d).size * (match cqOp d with
    | 6 => s.sPrefix d r.n
    | 8 => s.sCount d (cqRoot d)
    | _ => if cqRoot d = r.rank then s.sPrefix d r.n else 0)

/-- Every range of a request is mapped (13 R354). -/
def State.cqMapped (s : State) (r : GroupRun) (d : List Byte) : Bool :=
  (cqSrcBytes r d == 0 || s.reachable (cqSrc d) (cqSrcBytes r d)) && (cqDstBytes r d == 0 || s.reachable (cqDst d) (cqDstBytes r d))
    && (!isVector (cqOp d) || (s.reachable (cqAux d) (8 * r.n)
      && (s.vecSrcBytes r d == 0 || s.reachable (cqSrc d) (s.vecSrcBytes r d))))

/-- SRC and DST of a -v operation overlap (13 R354). -/
def State.vecOverlap (s : State) (r : GroupRun) (d : List Byte) : Bool :=
  isVector (cqOp d) && overlaps (cqSrc d) (s.vecSrcBytes r d) (cqDst d) (cqDstBytes r d)

/-- Members from which this member receives a block in DIRECT. -/
def directSources (r : GroupRun) (d : List Byte) : List Nat :=
  match cqOp d with
  | 5 | 6 => r.behind
  | 7 | 8 => if cqRoot d = r.rank then r.behind else []
  | _ => if cqRoot d = r.rank then [] else [cqRoot d]

/-- Members to which this member sends a block in DIRECT. -/
def directTargets (r : GroupRun) (d : List Byte) : List Nat :=
  match cqOp d with
  | 5 | 6 => r.others
  | 7 | 8 => if cqRoot d = r.rank then [] else [cqRoot d]
  | _ => if cqRoot d = r.rank then r.others else []

/-- The block of DST that a source fills: first element and elements. -/
def State.recvBlock (s : State) (r : GroupRun) (d : List Byte) (m : Nat) : Nat × Nat :=
  match cqOp d with
  | 5 | 7 => (m * cqCount d, cqCount d)
  | 6 => (s.rPrefix r d m, s.rCount r d m)
  | 8 => (s.rPrefix r d m, s.rCount r d m)
  | 10 => (0, s.rCount r d m)
  | _ => (0, cqCount d)

/-- The block of SRC that goes to a member: first element and elements. -/
def State.sendBlock (s : State) (d : List Byte) (m : Nat) : Nat × Nat :=
  match cqOp d with
  | 5 | 9 => (m * cqCount d, cqCount d)
  | 6 | 10 => (s.sPrefix d m, s.sCount d m)
  | 8 => (0, s.sCount d m)
  | _ => (0, cqCount d)

/-- This member copies its own block (13 Table 13-7). -/
def ownBlock (r : GroupRun) (d : List Byte) : Bool :=
  match cqOp d with
  | 5 | 6 => true
  | 7 | 8 | 9 | 10 => cqRoot d == r.rank
  | _ => false

/-! ## Granting windows (13 R361, 12 R325) -/

/-- The time-driven part of a connection. -/
def GroupRun.link (r : GroupRun) (rank : Nat) : GroupConn := Tab.get {} r.conns rank
def GroupRun.setLink (r : GroupRun) (rank : Nat) (c : GroupConn) : GroupRun := { r with conns := Tab.set {} r.conns rank c }

/-- Some of the block of a source in DIRECT has not arrived. -/
def State.blockOpen (s : State) (r : GroupRun) (o : CollOp) (m : Nat) : Bool :=
  let b := s.recvBlock r o.request m
  o.awaiting.any fun e => decide (e.1 < b.1 + b.2) && decide (b.1 < e.1 + e.2)

/-- The sources that hold a share of level-0 staging in DIRECT: the first 8, in ascending distance (p − sender) mod N, whose blocks have not all
arrived. -/
def State.directOpen (s : State) (g : Nat) : List Nat :=
  let r := s.group g
  match r.op with
  | some o => if o.steps.head?.any fun st => st.phase == 2 then ((directSources r o.request).filter (s.blockOpen r o)).take 8 else []
  | none => []

/-- The window that a member is granted: what its rings feed, or its share in DIRECT. -/
def State.windowOf (s : State) (g rank : Nat) : Nat :=
  let r := s.group g
  max (sumNat ((List.range (r.top + 1)).map fun l => ringWindow r (s.rings r) l rank)) (if (s.directOpen g).contains rank then r.stage 0 / 8 else 0)

/-- Bytes of a member's window that are not granted: RX_FREED and the window together, over RX_GRANTED. -/
def State.ungranted (s : State) (g rank : Nat) : Nat :=
  let r := s.group g
  let n := diff64 (s.connN r rank 48 8 + s.windowOf g rank) (s.connN r rank 40 8)
  if 2 ^ 63 ≤ n then 0 else n

/-- Send a C_GRANT of the cumulative bytes granted to a member. -/
def State.sendCGrant (s : State) (g rank : Nat) : State :=
  let r := s.group g
  let s := s.setConn r rank 40 8 (s.connN r rank 40 8 + s.ungranted g rank)
  let s := s.setGroup g (r.setLink rank { r.link rank with freeFrom := none, granted := some s.clock })
  s.inject { s.collPacket g r rank 18 r.opseq with addr := s.connN r rank 40 8, last := true }

/-- Grant members that have become senders their first windows. -/
def State.grantAll (s : State) (g : Nat) (ms : List Nat) : State := ms.foldl (fun s m => s.sendCGrant g m) s

/-- Grant each ring predecessor its first window (13 R351). -/
def State.firstGrants (s : State) (g : Nat) : State :=
  let r := s.group g
  let rings := s.rings r
  s.grantAll g ((List.range (r.top + 1)).flatMap fun l => predecessors rings l).eraseDups

/-- GROUP_ACTIVATE (13 R351). -/
def State.activateGroup (s : State) (g : Nat) : State :=
  let r := s.group g
  if r.state = 1 ∧ r.fld 128 8 ≤ s.now then (s.setGroupState g 2).firstGrants g else s

/-! ## Partial sums (13 R356, R357) -/

/-- The wire format of a level: the group's for reductions of floating-point data, else the operation's. -/
def wireFmt (r : GroupRun) (d : List Byte) (l : Nat) : Fmt :=
  if isReduction (cqOp d) then (if (cqIn d).code = 8 then plainFmt 8 else fmtOf (r.lvlFmt l)) else cqOut d

/-- This member's own contribution of an element as it stands in SRC. -/
def State.srcElem (s : State) (d : List Byte) (i : Nat) : Elem := s.elemAt (cqSrc d + i * (cqIn d).size) (cqIn d).size

/-- This member's own contribution of an element, in the format of DST. -/
def State.ownElem (s : State) (d : List Byte) (i : Nat) : Elem :=
  let e := s.srcElem d i
  { e with code := (convert (cqIn d) (cqOut d) 0 e.code).code }

/-- The NaN events of converting this member's own elements (03 R509). -/
def State.ownNans (s : State) (d : List Byte) : Nat :=
  sumNat ((List.range (cqCount d)).map fun i => (convert (cqIn d) (cqOut d) 0 (s.srcElem d i).code).nans)

/-- The partial of an element: the table of a REDUCE_SCATTER, else DST. -/
def State.partialAt (s : State) (o : CollOp) (i : Nat) : Elem :=
  if cqOp o.request = 2 then
    match Tab.get none o.sums i with
    | some (c, p) => { code := c, poison := p }
    | none => s.ownElem o.request i
  else s.elemAt (cqDst o.request + i * (cqOut o.request).size) (cqOut o.request).size

/-- Store partials of consecutive elements. -/
def State.putPartials (s : State) (g : Nat) (o : CollOp) (i : Nat) (es : List Elem) : State :=
  if cqOp o.request = 2 then
    let sums := (es.zip (List.range es.length)).foldl (fun t e => Tab.set none t (i + e.2) (some (e.1.code, e.1.poison))) o.sums
    s.setGroup g { s.group g with op := some { o with sums := sums } }
  else s.writeElems (cqDst o.request + i * (cqOut o.request).size) (cqOut o.request).size es

/-- Add a wire element to a partial: SUM, MAX or MIN, in FP32 or INT32 (13 R357). -/
def combine (rop : Nat) (f : Fmt) (a b : Nat) : Coded :=
  let x := decodeNum f a
  let y := decodeNum f b
  let v := if rop = 0 then x.add y else if rop = 1 then x.max y else x.min y
  arith f 0 (x.isNan || y.isNan) v

/-! ## Coding of a packet's elements (13 R357, R360) -/

/-- Elements of a packet: whole blocks for a scaled format (the spec leaves the cut of a chunk into packets open). -/
def packetElems (f : Fmt) (block : Nat) : Nat := if f.isFp8 then max 1 (4096 / (block + 4)) * block else 4096 / f.size

/-- Elements of a chunk. -/
def chunkElems (r : GroupRun) (f : Fmt) (block : Nat) : Nat := max (packetElems f block) (r.chunkBytes / f.size)

/-- Split a list into runs of n. -/
def runsOf {α : Type} (n : Nat) : Nat → List α → List (List α)
  | 0, _ => []
  | fuel + 1, xs => if xs.isEmpty then [] else xs.take n :: runsOf n fuel (xs.drop n)

/-- The wire bytes of elements given in a format, with NaN and saturation events. -/
def encodeElems (src f : Fmt) (block : Nat) (draw : Nat → Nat) (codes : List Nat) : List Byte × Nat × Nat :=
  if f.isFp8 then
    let blocks := runsOf block (codes.length + 1) codes
    let scales := blocks.map fun b => blockScale f.code (b.map (decodeNum src))
    let cs := (codes.zip (List.range codes.length)).map fun e =>
      narrowScaled f (scales.getD (e.2 / block) 0) (draw e.2) (decodeNum src e.1)
    (scales.flatMap (leBytes 4) ++ cs.flatMap (fun c => leBytes 1 c.code), sumNat (cs.map (·.nans)), sumNat (cs.map (·.sats)))
  else
    let cs := (codes.zip (List.range codes.length)).map fun e => convert src f (draw e.2) e.1
    (cs.flatMap (fun c => leBytes f.size c.code), sumNat (cs.map (·.nans)), sumNat (cs.map (·.sats)))

/-- Elements of a payload in a wire format. -/
def payloadElems (f : Fmt) (block : Nat) (bytes : List Byte) : Nat :=
  if f.isFp8 then
    let full := bytes.length / (block + 4)
    full * block + (bytes.length - full * (block + 4) - 4)
  else bytes.length / f.size

/-- The elements of a payload, in a result format, with NaN and saturation events. -/
def decodeElems (f dst : Fmt) (block : Nat) (bytes : List Byte) : List Nat × Nat × Nat :=
  let n := payloadElems f block bytes
  let base := if f.isFp8 then 4 * ceilDiv n block else 0
  let cs := (List.range n).map fun i =>
    let c := byteFld bytes (base + i * f.size) f.size
    if f.isFp8 then widenScaled f dst (byteFld bytes (4 * (i / block)) 4) 0 c else convert f dst 0 c
  (cs.map (·.code), sumNat (cs.map (·.nans)), sumNat (cs.map (·.sats)))

/-- Split an element range into runs of at most n. -/
def splitRange (n : Nat) : Nat → Nat → Nat → List (Nat × Nat)
  | 0, _, _ => []
  | fuel + 1, start, count =>
    if count = 0 then [] else (start, min n count) :: splitRange n fuel (start + min n count) (count - min n count)

/-! ## Sending (13 R361, R363) -/

/-- Code a packet's elements, as `read` gives them: its payload, and whether one is poisoned. Each element is coded once, with fresh draws, and its
events are counted (03 R85, R509); where `keep` says so, the member's partial takes the decoded value (13 R357). -/
def State.codePiece (s : State) (g level : Nat) (src f : Fmt) (block : Nat) (read : Nat → Elem) (keep : Bool) (p : Nat × Nat) :
    State × List Byte × Bool :=
  let es := (List.range p.2).map fun i => read (p.1 + i)
  let (bytes, nans, sats) := encodeElems src f block s.draw16 (es.map (·.code))
  let s := (s.drawnN p.2).setGroup g ((s.group g).countEvents level nans sats)
  let s := match keep, (s.group g).op with
    | true, some o => s.putPartials g o p.1
        (((decodeElems f src block bytes).1.zip es).map fun e => { code := e.1, poison := e.2.poison })
    | _, _ => s
  (s, bytes, es.any (·.poison))

/-- The packets of each chunk of an element range. -/
def chunkPieces (r : GroupRun) (f : Fmt) (block : Nat) (range : Nat × Nat) : List (List (Nat × Nat)) :=
  (splitRange (chunkElems r f block) (range.2 + 1) range.1 range.2).map fun c => splitRange (packetElems f block) (c.2 + 1) c.1 c.2

/-- Put the chunks of elements in line for a member. -/
def State.queueChunks (s : State) (g level phase step path rank : Nat) (src f : Fmt) (block : Nat)
    (read : Nat → Elem) (offset : Nat) (range : Nat × Nat) (keep : Bool := false) : State :=
  (chunkPieces (s.group g) f block range).foldl (fun s pieces =>
    let made := pieces.foldl (fun (acc : State × List Packet) p =>
      let (s, bytes, poison) := acc.1.codePiece g level src f block read keep p
      let pkt := { s.collPacket g (s.group g) rank 16 (s.group g).opseq with
        code := level + phase * 4, step := step, addr := p.1 - range.1 + offset, data := path + bytes.length * 2 ^ 32
        payload := bytes, poison := poison, last := pieces.getLast? == some p }
      (s, acc.2 ++ [pkt])) (s, [])
    made.1.setGroup g { made.1.group g with ready := (made.1.group g).ready ++ [(level, rank, made.2)] }) s

/-- Replace an owner's part by the decoded value of its coded value where nothing is sent (13 R357). -/
def State.recodePart (s : State) (g level : Nat) (src f : Fmt) (block : Nat) (read : Nat → Elem) (range : Nat × Nat) : State :=
  (chunkPieces (s.group g) f block range).flatten.foldl (fun s p => (s.codePiece g level src f block read true p).1) s

/-- Window bytes of a chunk. -/
def chunkSize (ps : List Packet) : Nat := sumNat (ps.map fun p => p.payload.length)

/-- Bytes of a peer's grant that are not used, the counts wrapping (13 R361, 12 R312). -/
def State.sendWindow (s : State) (r : GroupRun) (rank : Nat) : Nat := diff64 (s.connN r rank 24 8) (s.connN r rank 32 8)

/-- The window covers a chunk, and in DIRECT at most 8 destinations are in flight (13 R352, R361). -/
def State.mayChunk (s : State) (g rank : Nat) (ps : List Packet) : Bool :=
  let r := s.group g
  let busy := (r.inFlight.map (·.1)).eraseDups
  decide (chunkSize ps ≤ s.sendWindow r rank)
    && (busy.contains rank || decide (busy.length < 8) || (match ps with | p :: _ => p.code / 4 != 2 | [] => false))

/-- Send a packet of a connection: it takes the next PSN and is kept until acknowledged. -/
def State.sendChunkPkt (s : State) (g rank : Nat) (p : Packet) : State :=
  let r := s.group g
  let psn := s.connN r rank 8 4
  let p := { p with psn := psn }
  let s := s.setConn r rank 8 4 ((psn + 1) % 2 ^ 32)
  let c := r.link rank
  let c := if r.inFlight.any fun e => e.1 == rank then c else { c with progress := s.clock }
  (s.setGroup g { r.setLink rank c with inFlight := r.inFlight ++ [(rank, p)] }).inject p

/-- Send every chunk whose window covers it, in order for each member (13 R361, R364). -/
def State.sendReady (s : State) (g : Nat) : State :=
  let all := (s.group g).ready
  let s := s.setGroup g { s.group g with ready := [] }
  all.foldl (fun s e =>
    let r := s.group g
    if (r.ready.any fun x => x.2.1 == e.2.1) || !s.mayChunk g e.2.1 e.2.2 then s.setGroup g { r with ready := r.ready ++ [e] }
    else
      let n := chunkSize e.2.2
      let s := s.setConn r e.2.1 32 8 (s.connN r e.2.1 32 8 + n)
      let s := s.setGroup g ((s.group g).stat e.1 0 n)
      e.2.2.foldl (fun s p => s.sendChunkPkt g e.2.1 p) s) s

/-- Replace the running operation. -/
def State.setOp (s : State) (g : Nat) (o : CollOp) : State := s.setGroup g { s.group g with op := some o }

/-- Enter the current step: what it sends is coded and put in line; what it receives is awaited. In the first step of a ring's all-gather
the owner's part takes the decoded value of its coded value (13 R357). -/
def State.enterStep (s : State) (g : Nat) : State :=
  match (s.group g).op with
  | none => s
  | some o =>
    match o.steps with
    | [] => s
    | st :: _ =>
      let r := s.group g
      let f := wireFmt r o.request st.level
      let block := r.lvlBlock st.level
      let s := s.setOp g { o with awaiting := st.recv }
      let keep := st.first && isReduction (cqOp o.request) && !(f.same (cqOut o.request))
      let here := s
      let read := fun i => here.partialAt o i
      let s := match st.toRank with
        | none => if keep then st.send.foldl (fun (s : State) x => s.recodePart g st.level (cqOut o.request) f block read x) s else s
        | some peer =>
          st.send.foldl (fun (s : State) (x : Nat × Nat) => s.queueChunks g st.level st.phase st.step st.path peer (cqOut o.request) f block
            read x.1 x keep) s
      s.sendReady g

/-! ## Starting an operation (13 R352–R356, R366) -/

/-- Copy this member's own elements into place. -/
def State.copyElems (s : State) (src dst size n : Nat) : State := s.writeElems dst size (s.readElems src size n)

/-- Send the blocks of a DIRECT exchange. -/
def State.sendDirect (s : State) (g : Nat) (o : CollOp) : State :=
  let r := s.group g
  let d := o.request
  let f := cqIn d
  (directTargets r d).foldl (fun s m =>
    let b := s.sendBlock d m
    s.queueChunks g 0 2 0 0 m f f 1024 (fun i => s.elemAt (cqSrc d + i * f.size) f.size) 0 b) s

/-- The final ranges that ROOT takes for a member in BROADCAST; the spec does not say how ROOT learns them. -/
def rootRanges (g rank count : Nat) : List (Nat × Nat) :=
  ((Config.finalRange g rank count).map fun e => (min e.1 count, min e.2 (count - min e.1 count))).filter fun e => e.2 != 0

/-- The data part of a DIRECT exchange: the own block is copied, the others are sent and awaited (13 R352, R353). -/
def State.startDirect (s : State) (g : Nat) (o : CollOp) : State :=
  let r := s.group g
  let d := o.request
  let size := (cqOut d).size
  let total := sumNat ((List.range r.n).map fun m => s.rCount r d m)
  let receives := ownBlock r d || !(directSources r d).isEmpty
  let bad := isVector (cqOp d) && receives && decide (cqCount d < (if cqOp d = 10 then s.rCount r d (cqRoot d) else total))
  let mine := s.sendBlock d r.rank
  let here := s.recvBlock r d r.rank
  let s := if ownBlock r d && !bad then s.copyElems (cqSrc d + mine.1 * size) (cqDst d + here.1 * size) size mine.2 else s
  let recv := (directSources r d).map fun m => s.recvBlock r d m
  let s := s.setOp g { o with steps := [directStep recv], mismatch := bad, counting := false, counts := [] }
  let s := s.enterStep g
  ((s.grantAll g (s.directOpen g)).sendDirect g o).sendReady g

/-- The members to which this member sends a count, with the count, and those from which it awaits one (13 R353). -/
def State.countPlan (s : State) (r : GroupRun) (d : List Byte) : List (Nat × Nat) × List Nat :=
  match cqOp d with
  | 6 => (r.others.map fun m => (m, s.sCount d m), r.others)
  | 8 => if cqRoot d = r.rank then ([], r.others) else ([(cqRoot d, s.sCount d (cqRoot d))], [])
  | _ => if cqRoot d = r.rank then (r.others.map fun m => (m, s.sCount d m), []) else ([], [cqRoot d])

/-- Start a -v operation: the counts are exchanged first (13 R353). -/
def State.startCounts (s : State) (g : Nat) (o : CollOp) : State :=
  let r := s.group g
  let plan := s.countPlan r o.request
  let s := if ownBlock r o.request then s.memWriteN (cqAux o.request + 4 * (r.n + r.rank)) 4 (s.sCount o.request r.rank) else s
  let s := s.setOp g { o with counting := true, counts := plan.2 }
  let s := plan.1.foldl (fun s e =>
    s.sendChunkPkt g e.1 { s.collPacket g r e.1 19 o.seq with code := 8, data := e.2, last := true }) s
  if plan.2.isEmpty then s.startDirect g { o with counting := true } else s

/-- Start BROADCAST: ROOT scatters the final ranges; then all-gather (13 Table 13-7). -/
def State.startBroadcast (s : State) (g : Nat) (o : CollOp) : State :=
  let r := s.group g
  let d := o.request
  let f := cqOut d
  let rings := s.rings r
  let gather := rings.reverse.flatMap fun x => gatherSteps rings (cqCount d) x
  let mine := finalRange rings r.top (cqCount d)
  if cqRoot d = r.rank then
    let s := s.copyElems (cqSrc d) (cqDst d) f.size (cqCount d)
    let s := s.setOp g { o with steps := directStep [] :: gather }
    let s := s.enterStep g
    let s := r.others.foldl (fun s m =>
      (rootRanges g m (cqCount d)).foldl (fun s x =>
        s.queueChunks g 0 2 0 0 m f f 1024 (fun i => s.elemAt (cqSrc d + i * f.size) f.size) x.1 x) s) s
    s.sendReady g
  else
    let s := (s.setOp g { o with steps := directStep mine :: gather }).enterStep g
    s.grantAll g (s.directOpen g)

/-- The ring steps of a reduction or an all-gather. -/
def State.ringSteps (s : State) (r : GroupRun) (d : List Byte) : List CollStep :=
  let rings := s.rings r
  let up := rings.flatMap fun x => scatterSteps rings (cqCount d) x
  let down := rings.reverse.flatMap fun x => gatherSteps rings (cqCount d) x
  match cqOp d with
  | 1 => up ++ down
  | 2 => up
  | _ => down

/-- Payload bytes of a step, and its wire bytes with 64 header bytes a packet. -/
def stepBytes (r : GroupRun) (d : List Byte) (st : CollStep) : Nat × Nat :=
  let f := wireFmt r d st.level
  let block := r.lvlBlock st.level
  let ps := st.send.flatMap fun x => splitRange (packetElems f block) (x.2 + 1) x.1 x.2
  let bytes := sumNat (ps.map fun p => p.2 * f.size + (if f.isFp8 then 4 * ceilDiv p.2 block else 0))
  (bytes, bytes + 64 * ps.length)

/-- The length of a step's window; a replacement that sends nothing takes none (13 R366). -/
def stepLen (r : GroupRun) (st : CollStep) : Nat := if st.toRank.isNone then 0 else r.stepNs st.level

/-- Admission of a class 1 operation at t (13 R366): the refusal, or the state with its bookings and the finish mark. -/
def State.admitSteps (s : State) (r : GroupRun) (d : List Byte) (m : Nat) (acc : List (Nat × Nat × Nat)) :
    List CollStep → Except Nat (State × List (Nat × Nat × Nat) × Nat)
  | [] => if byteFld d 48 8 < m then .error 0x12 else .ok (s, acc, m)
  | st :: rest =>
    let stop := m + stepLen r st
    match st.toRank with
    | none => State.admitSteps s r d stop acc rest
    | some peer =>
      match s.routePort (s.memberNgi r peer) with
      | none => .error 0x13
      | some p =>
        let bytes := stepBytes r d st
        if s.sendWindow r peer < bytes.1 then .error 0x11
        else
          match s.bookSlots (r.fld 16 4) p 0 (stop - r.pathNs st.level - 300 - ceilDiv bytes.1 1500) s.horizon 16384 (ceilDiv m 25) bytes.2 with
          | none => .error 0x12
          | some l => State.admitSteps (s.book l) r d stop (acc ++ l) rest

/-- End the operation at once with a status. -/
def State.endOp (s : State) (g : Nat) (o : CollOp) (status : Nat) : State :=
  s.setOp g { o with status := some status, stamp := s.now, tideQ := s.tideQ, steps := [], awaiting := [] }

/-- Start a request that keeps R354 (13 R355, R356, R366). -/
def State.runColl (s : State) (g : Nat) (o : CollOp) : State :=
  let r := s.group g
  let d := o.request
  let op := cqOp d
  if op ≤ 3 then
    let steps := s.ringSteps r d
    let go := fun (s : State) (o : CollOp) =>
      let s := s.setOp g { o with steps := steps }
      let s := if isReduction op then s.setGroup g ((s.group g).countEvents 0 (s.ownNans d) 0) else s
      let s := if op = 1 then s.writeElems (cqDst d) (cqOut d).size ((List.range (cqCount d)).map fun i => s.ownElem d i) else s
      s.enterStep g
    if r.class1 then
      if !s.admits || cqDeadline d ≤ s.now || cqAux d < s.now + 1000 then (s.quayCount (groupQuay g) 1 1).endOp g o 0x10
      else match s.admitSteps r d (cqAux d) [] steps with
        | .error c => (s.quayCount (groupQuay g) (refusalCount c) 1).endOp g o c
        | .ok (t, l, m) => go (t.quayCount (groupQuay g) 0 1) { o with admitted := true, slots := l, finish := m }
    else go s o
  else if op = 4 then s.startBroadcast g o
  else if isVector op then s.startCounts g o
  else s.startDirect g o

/-- The request at the head of a group's ring. -/
def State.collHead (s : State) (g : Nat) : ReadResult :=
  let r := s.group g
  s.memRead (r.fld 40 8 + 64 * (r.sqHead % r.sqN)) 64

/-- The kind of the head request: its OP, and ALLREDUCE for one that is unreadable, poisoned or reserved. -/
def State.collKind (s : State) (g : Nat) : Nat :=
  let m := s.collHead g
  let op := cqOp m.data
  if !m.ok || m.poison || op = 0 || 10 < op then 1 else op

/-- A channel of SRC or DST of an operation takes no access now (10 R263). -/
def State.cqWaits (s : State) (r : GroupRun) (d : List Byte) : Bool :=
  s.hbmWaits (cqSrc d) (cqSrcBytes r d) || s.hbmWaits (cqDst d) (cqDstBytes r d)

/-- The head request may start (13 R355, 12 R318); it waits for the memory that it reads (10 R263). -/
def State.collReady (s : State) (g : Nat) (m : ReadResult) : Bool :=
  let r := s.group g
  let d := m.data
  r.state == 2 && r.op.isNone && r.sqHead != r.sqTail && !s.safe && !s.quayHeld (groupQuay g)
    && decide (diff32 r.cqTail r.cqHead < r.cqN) && !s.hbmWaits (r.fld 40 8 + 64 * (r.sqHead % r.sqN)) 64
    && (!m.ok || m.poison || !cqOk r d || !s.cqWaits r d)
    && (!m.ok || m.poison || !cqOk r d || !cqWait d || !s.trigEnabled (byteFld d 60 4) || s.trigWait (byteFld d 60 4) (byteFld d 56 4))

/-- Start the head request of a group where it is of the command's kind (13 R352–R355). -/
def State.startColl (s : State) (g kind : Nat) : State :=
  let r := s.group g
  let m := s.collHead g
  if r.state = 2 && s.collReady g m && s.collKind g = kind then
    let s := s.setGroup g ((r.put 140 4 (r.sqHead + 1)).put 152 4 (r.opseq + 1))
    let o : CollOp := { index := r.sqHead, request := m.data, start := s.now, seq := r.opseq + 1 }
    if !m.ok then s.endOp g { o with request := List.replicate 64 0 } 2
    else if m.poison then s.endOp g { o with request := List.replicate 64 0, poison := true } 1
    else if !cqOk r m.data || (cqWait m.data && !s.trigEnabled (byteFld m.data 60 4)) then s.endOp g o 1
    else if !s.cqMapped r m.data then s.endOp g o 2
    else if s.vecOverlap r m.data then s.endOp g o 1
    else s.runColl g o
  else s

/-! ## Receiving (13 R355–R362) -/

/-- A stray chunk: discarded and counted (13 R350, R351). -/
def State.stray (s : State) (quay : Nat) : State := s.addSat (.collective quay) 0x060 0 32 1

/-- Remove an element range from the ranges awaited. -/
def takeRange (x : Nat × Nat) : List (Nat × Nat) → List (Nat × Nat)
  | [] => []
  | e :: es =>
    if e.1 ≤ x.1 ∧ x.1 + x.2 ≤ e.1 + e.2 then
      ([(e.1, x.1 - e.1), (x.1 + x.2, e.1 + e.2 - (x.1 + x.2))].filter fun y => y.2 != 0) ++ es
    else e :: takeRange x es

/-- A range is awaited. -/
def awaits (x : Nat × Nat) (rs : List (Nat × Nat)) : Bool :=
  rs.any fun e => decide (e.1 ≤ x.1) && decide (x.1 + x.2 ≤ e.1 + e.2) && decide (0 < x.2)

/-- The element range of DST that a chunk packet of the current step fills. -/
def State.chunkRange (s : State) (r : GroupRun) (o : CollOp) (st : CollStep) (c : Staged) : Nat × Nat :=
  let n := payloadElems (wireFmt r o.request st.level) (if st.phase = 2 then 1024 else r.lvlBlock st.level) c.pkt.payload
  let base := if st.phase = 2 && cqOp o.request != 4 then (s.recvBlock r o.request c.source).1 else 0
  (base + c.pkt.addr, n)

/-- A chunk packet belongs to the current step. -/
def inStep (o : CollOp) (st : CollStep) (c : Staged) : Bool :=
  bits c.pkt.dq 16 8 == o.seq % 256 && c.pkt.code == st.level + st.phase * 4 && c.pkt.step == st.step
    && c.pkt.data % 2 ^ 24 == st.path && (st.frRank.isNone || st.frRank == some c.source)

/-- Free the staging of a chunk packet; once the ungranted bytes reach an eighth of the window they are granted (13 R361, R362, 12 R325). -/
def State.freeChunk (s : State) (g : Nat) (c : Staged) : State :=
  let r := s.group g
  let s := s.setConn r c.source 48 8 (s.connN r c.source 48 8 + c.pkt.payload.length)
  let k := r.link c.source
  let s := s.setGroup g (r.setLink c.source { k with freeFrom := some (k.freeFrom.getD s.clock) })
  let n := s.ungranted g c.source
  if n ≠ 0 ∧ s.windowOf g c.source / 8 ≤ n then s.sendCGrant g c.source else s

/-- The timers of a connection's grants: 2 µs after the first byte freed and not granted, and the latest grant again every 100 µs (12 R325). -/
def State.grantTimer (s : State) (g rank : Nat) : State :=
  let c := (s.group g).link rank
  if (c.freeFrom.any (fun t => decide (t + 2000 ≤ s.clock)) && s.ungranted g rank != 0) || c.granted.any fun t => decide (t + 100_000 ≤ s.clock) then
    s.sendCGrant g rank
  else s

/-- Reduce or copy a chunk packet into the range that it fills (13 R357). -/
def State.absorb (s : State) (g : Nat) (o : CollOp) (st : CollStep) (c : Staged) (x : Nat × Nat) : State :=
  let r := s.group g
  let d := o.request
  let f := wireFmt r d st.level
  let out := cqOut d
  let (codes, nans, sats) := decodeElems f out (if st.phase = 2 then 1024 else r.lvlBlock st.level) c.pkt.payload
  let old := (List.range x.2).map fun i => s.partialAt o (x.1 + i)
  let sums := (codes.zip old).map fun e => combine (cqRop d) out e.2.code e.1
  let es := if st.phase = 0 then
      (sums.zip old).map fun e => { code := e.1.code, poison := e.2.poison || c.poison : Elem }
    else codes.map fun k => { code := k, poison := c.poison : Elem }
  let n2 := if st.phase = 0 then sumNat (sums.map (·.nans)) else 0
  let s2 := if st.phase = 0 then sumNat (sums.map (·.sats)) else 0
  let s := s.setGroup g (r.countEvents st.level (nans + n2) (sats + s2))
  s.putPartials g o x.1 es

/-- The operation has done its part: its final range is written and it is stamped (13 R368). -/
def State.finishOp (s : State) (g : Nat) (o : CollOp) : State :=
  let r := s.group g
  let d := o.request
  let s := if cqOp d = 2 then
    (finalRange (s.rings r) r.top (cqCount d)).foldl (fun s x =>
      s.writeElems (cqDst d + x.1 * (cqOut d).size) (cqOut d).size ((List.range x.2).map fun i => s.partialAt o (x.1 + i))) s
    else s
  s.endOp g o (if o.mismatch then 0x21 else if o.poison then 3 else 0)

/-- A non-root of GATHER or GATHERV completes when its sends are acknowledged (13 R368). -/
def GroupRun.sendsDone (r : GroupRun) : Bool := r.ready.isEmpty && r.inFlight.isEmpty

/-- Take up the staged chunks of the current step and go on to the next while a step has all it awaits (13 R356, R362). -/
def State.advance (s : State) (g : Nat) : Nat → State
  | 0 => s
  | fuel + 1 =>
    let r := s.group g
    match r.op with
    | none => s
    | some o =>
      if o.status.isSome || o.counting || s.safe then s
      else match o.steps with
        | [] =>
          if [7, 8].contains (cqOp o.request) && cqRoot o.request != r.rank && !r.sendsDone then s else s.finishOp g o
        | st :: rest =>
          if o.awaiting.isEmpty then
            State.advance ((s.setOp g { o with steps := rest, done := o.done + 1 }).enterStep g) g fuel
          else
            match r.staging.find? fun c => inStep o st c with
            | none => s
            | some c =>
              let s := s.setGroup g { r with staging := r.staging.erase c }
              let x := s.chunkRange r o st c
              if awaits x o.awaiting then
                let before := s.directOpen g
                let o := { o with awaiting := takeRange x o.awaiting, poison := o.poison || c.poison }
                let s := s.setOp g o
                let s := (if o.mismatch then s else s.absorb g o st c x).freeChunk g c
                State.advance (s.grantAll g ((s.directOpen g).filter fun m => !before.contains m)) g fuel
              else State.advance ((s.freeChunk g c).stray (groupQuay g)) g fuel

/-- Fuel for `advance`: every round takes up a packet or ends a step. -/
def GroupRun.fuel (r : GroupRun) : Nat :=
  r.staging.length + (match r.op with | some o => o.steps.length | none => 0) + 2

/-- A staged chunk of the running operation that none of its steps left expects (13 R350). -/
def GroupRun.unexpected (r : GroupRun) (c : Staged) : Bool :=
  match r.op with
  | some o => !o.counting && c.pkt.tkind == 16 && bits c.pkt.dq 16 8 == o.seq % 256 && !o.steps.any fun st => inStep o st c
  | none => false

/-- Discard the staged chunks that the running operation does not expect. -/
def State.dropUnexpected (s : State) (g : Nat) : State :=
  let r := s.group g
  let s := s.setGroup g { r with staging := r.staging.filter fun c => !r.unexpected c }
  (r.staging.filter r.unexpected).foldl (fun s c => (s.freeChunk g c).stray (groupQuay g)) s

/-- The group goes on as far as what has arrived lets it. -/
def State.progressGroup (s : State) (g : Nat) : State :=
  let s := s.dropUnexpected g
  s.advance g (s.group g).fuel

/-- Acknowledge a member's packets, with the cumulative PSN (13 R361, 12 R324). -/
def State.sendCAck (s : State) (g rank : Nat) : State :=
  let r := s.group g
  let s := s.setGroup g (r.setLink rank { r.link rank with unacked := 0, ackFrom := none })
  s.inject { s.collPacket g r rank 17 r.opseq with psn := s.connN r rank 16 4, addr := s.now, last := true }

/-- Count an accepted packet: a LAST one or the 64th is acknowledged at once (12 R324). -/
def State.countCAck (s : State) (g rank : Nat) (last : Bool) : State :=
  let r := s.group g
  let c := r.link rank
  let s := s.setGroup g (r.setLink rank { c with unacked := c.unacked + 1, ackFrom := some (c.ackFrom.getD s.clock) })
  if last || decide (64 ≤ c.unacked + 1) then s.sendCAck g rank else s

/-! ## Staging (13 R362) -/

/-- The first address of the staging area of a level. -/
def GroupRun.stageBase (r : GroupRun) (l : Nat) : Nat := r.fld 56 8 + sumNat ((List.range l).map r.stage)

/-- The lowest place in a level's staging area that holds n bytes beside what is staged there; its start where no place does.
DESIGN CHOICE (log 85): the spec gives the area, not the place. -/
def GroupRun.stagePlace (r : GroupRun) (l n : Nat) : Nat :=
  let used := (r.staging.filter fun c => c.pkt.tkind == 16 && c.pkt.code % 4 == l).map fun c => (c.addr, c.addr + c.pkt.payload.length)
  let fits := fun (a : Nat) => decide (a + n ≤ r.stageBase l + r.stage l) && used.all fun u => decide (a + n ≤ u.1) || decide (u.2 ≤ a)
  match leastBy id ((r.stageBase l :: used.map (·.2)).filter fits) with
  | some a => a
  | none => r.stageBase l

/-- The memory that an arriving packet of a quay's group lands in takes no access now (10 R263). -/
def State.chunkWaits (s : State) (quay : Nat) : Bool :=
  match s.arrived.find? fun e => e.1 == quay with
  | some e =>
    let r := s.group (e.2.dq % 4096)
    (r.op.any fun o => s.cqWaits r o.request)
      || (e.2.tkind == 16 && s.hbmWaits (r.stagePlace (e.2.code % 4) e.2.payload.length) e.2.payload.length)
  | none => false

/-- A chunk lands in its level's staging area. -/
def State.stageChunk (s : State) (g : Nat) (c : Staged) : State :=
  let r := s.group g
  let l := c.pkt.code % 4
  let a := r.stagePlace l c.pkt.payload.length
  let r := { r with staging := r.staging ++ [{ c with addr := a }] }
  let kib := ceilDiv (r.stageUsed l) 1024
  let r := if r.fld (176 + 24 * l) 4 < kib then r.put (176 + 24 * l) 4 kib else r
  (s.setGroup g r).memWrite a c.pkt.payload c.poison

/-- Perform a packet that is next in its connection's order: a chunk lands in staging, a count in RCOUNT (13 R353, R355,
R357, R362). -/
def State.landPkt (s : State) (g rank : Nat) (p : Packet) : State :=
  let r := s.group g
  let seq := bits p.dq 16 8
  let c : Staged := { source := rank, pkt := p, poison := p.poison }
  if p.tkind = 19 then
    match r.op with
    | some o =>
      if o.counting && o.counts.contains rank && seq == o.seq % 256 then
        let s := s.memWriteN (cqAux o.request + 4 * (r.n + rank)) 4 (p.data % 2 ^ 32)
        let o := { o with counts := o.counts.filter (· != rank) }
        if o.counts.isEmpty then (s.startDirect g o).progressGroup g else s.setOp g o
      else if (seq + 256 - r.opseq % 256) % 256 = 1 then s.setGroup g { r with staging := r.staging ++ [c] }
      else s.stray (groupQuay g)
    | none =>
      if (seq + 256 - r.opseq % 256) % 256 = 1 then s.setGroup g { r with staging := r.staging ++ [c] } else s.stray (groupQuay g)
  else
    let ahead := (seq + 256 - r.opseq % 256) % 256
    let live : Bool := match r.op with | some o => o.status.isNone | none => false
    if (ahead = 0 ∧ live) ∨ ahead = 1 then (s.stageChunk g c).progressGroup g else s.freeChunk g c

/-- Counts that arrived before their operation started. -/
def State.takeCounts (s : State) (g : Nat) : State :=
  let early := (s.group g).staging.filter fun c => c.pkt.tkind == 19
  let s := s.setGroup g { s.group g with staging := (s.group g).staging.filter fun c => c.pkt.tkind != 19 }
  early.foldl (fun s c => s.landPkt g c.source c.pkt) s

/-- Start the head request, and take up what had arrived for it (13 R355). -/
def State.beginColl (s : State) (g kind : Nat) : State := ((s.startColl g kind).takeCounts g).progressGroup g

/-- Perform the packets that follow in order from those held. -/
def State.drainHeld (s : State) (g rank : Nat) : Nat → State
  | 0 => s
  | fuel + 1 =>
    let r := s.group g
    let rx := s.connN r rank 16 4
    match r.held.find? fun p => p.sq == rank && p.psn == rx with
    | none => s
    | some p =>
      let s := (s.setGroup g { r with held := r.held.erase p }).setConn r rank 16 4 ((rx + 1) % 2 ^ 32)
      State.drainHeld ((s.landPkt g rank p).countCAck g rank p.last) g rank fuel

/-- A CHUNK or C_COUNT arrives (13 R351, R355, R361). -/
def State.recvColl (s : State) (quay : Nat) (p : Packet) : State :=
  let g := p.dq % 4096
  let r := s.group g
  let rank := p.sq % 2 ^ 18
  if r.state ≠ 2 ∨ bits p.dq 12 4 ≠ r.epoch ∨ p.tag ≠ r.fld 2 2 ∨ r.n ≤ rank then s.stray quay
  else
    let ahead := diff32 p.psn (s.connN r rank 16 4)
    if ahead < 512 then
      (if r.held.any fun q => q.sq == rank && q.psn == p.psn then s else (s.setGroup g { r with held := r.held ++ [p] }).drainHeld g rank 513)
    else if 2 ^ 31 ≤ ahead ∧ p.last then s.sendCAck g rank
    else s

/-- A C_ACK or C_GRANT arrives (13 R361). -/
def State.recvCAck (s : State) (p : Packet) : State :=
  let g := p.dq % 4096
  let r := s.group g
  let rank := p.sq % 2 ^ 18
  if r.state ≠ 2 ∨ bits p.dq 12 4 ≠ r.epoch ∨ r.n ≤ rank then s
  else
    let old := s.connN r rank 12 4
    if diff32 p.psn old = 0 ∨ diff32 (s.connN r rank 8 4) old < diff32 p.psn old then s
    else
      let s := s.setConn r rank 12 4 p.psn
      let keep := r.inFlight.filter fun e => !(e.1 == rank && decide (diff32 e.2.psn old < diff32 p.psn old))
      let r := r.setLink rank { r.link rank with progress := s.clock, retries := 0 }
      ((s.setGroup g { r with inFlight := keep }).sendReady g).progressGroup g

def State.recvCGrant (s : State) (p : Packet) : State :=
  let g := p.dq % 4096
  let r := s.group g
  let rank := p.sq % 2 ^ 18
  if r.state ≠ 2 ∨ bits p.dq 12 4 ≠ r.epoch ∨ r.n ≤ rank then s
  else if 2 ^ 63 ≤ diff64 p.addr (s.connN r rank 24 8) then s
  else (s.setConn r rank 24 8 p.addr).sendReady g

/-! ## Completion, loss and quiesce (13 R367–R369) -/

/-- The elements that RESULT counts (13 R368). -/
def State.collResult (s : State) (r : GroupRun) (d : List Byte) : Nat :=
  if cqOp d = 2 ∨ cqOp d = 3 then sumNat ((finalRange (s.rings r) r.top (cqCount d)).map (·.2)) else 0

/-- The operation is late: past DEADLINE in class 0, past the finish mark on a promise that stands in class 1 (13 R365–R367). -/
def collLate (r : GroupRun) (o : CollOp) : Bool :=
  if r.class1 then o.admitted && o.void == 0 && decide (o.finish < o.stamp)
  else cqDeadline o.request != 0 && decide (cqDeadline o.request < o.stamp)

/-- Write the record of the operation that has ended, its signal and the statistics (13 R348, R368). -/
def State.completeColl (s : State) (g : Nat) : State :=
  let r := s.group g
  match r.op with
  | none => s
  | some o =>
    match o.status with
    | none => s
    | some st =>
      let i := r.cqTail
      let late := collLate r o
      let flags := phaseOf i r.cqN + (if o.void ≠ 0 then 2 else 0) + (if late then 4 else 0) + (if o.tideQ then 8 else 0)
        + (if o.poison then 16 else 0)
      let res := if st = 0 ∨ st = 3 then s.collResult r o.request else 0
      let s := s.memWrite (r.fld 48 8 + 32 * (i % r.cqN))
        (recordBytes st o.void flags (byteFld o.request 40 4) o.stamp res o.index)
      let s := s.setGroup g { (s.group g).put 144 4 (i + 1) with op := none }
      let s := if late && r.class1 then (s.quayCount (groupQuay g) 6 1).report 0x1A none g else s
      let s := if cqSig o.request then s.sendAdd (byteFld o.request 44 4 % 2 ^ 17) 1 2 else s
      let s := if st = 1 ∨ st = 2 ∨ st = 7 then (s.setGroup g ((s.group g).put 156 4 st)).setGroupState g 3 else s
      s.writeGroupStats g

/-- Quiesce a group that is not DISABLED: the operation ends with SHRUNK, requests, staging and connections go (13 R369). -/
def State.quietGroup (s : State) (g : Nat) : State :=
  let s := s.voidGroupOp g 7 (fun _ => true)
  let s := match (s.group g).op with
    | some o => (if o.status.isNone then s.endOp g o 0x20 else s).completeColl g
    | none => s
  let r := s.group g
  let s := s.setGroup g { r.put 140 4 r.sqTail with staging := [], ready := [], inFlight := [], held := [], conns := [] }
  (s.setGroupState g 4).writeGroupStats g

/-- QUIESCE (13 R351, R367, R369). -/
def State.quiesceGroup (s : State) (g : Nat) : State :=
  let r := s.group g
  if r.state = 1 ∨ r.state = 2 ∨ r.state = 3 then (s.quietGroup g).gctlStatus g 2 true false 0
  else s.gctlStatus g 2 false true 7

/-- DISABLE (13 R351). -/
def State.disableGroup (s : State) (g : Nat) : State :=
  if (s.group g).state = 4 then ((s.setGroupState g 0).setGroup g {}).gctlStatus g 3 true false 0
  else s.gctlStatus g 3 false true 7

/-- A write to GCTL (13 R351, R371): a reserved CMD, a group of the other quay, or a quay that is not NORMAL discards it with CFG_REJECT; the other
quay's group is reported as refused too. -/
def State.writeGctl (s : State) (quay v : Nat) : State :=
  let g := v % 4096
  let cmd := bits v 12 3
  if cmd = 0 ∨ 3 < cmd ∨ s.domainState (464 + quay) ≠ 0 then s.reject (.collective quay)
  else if groupQuay g ≠ quay then (s.reject (.collective quay)).gctlStatusAt quay g cmd false true 7
  else match cmd with
    | 1 => s.armGroup g
    | 2 => s.quiesceGroup g
    | _ => s.disableGroup g

/-- A group bell (13 R352, 14 R386): selector 0 SQ_TAIL, 1 CQ_HEAD, under the limits of R314; 2 and 3 are discarded. -/
def State.groupBell (s : State) (g sel idx : Nat) : State :=
  let r := s.group g
  if r.context.isEmpty then s
  else match sel with
    | 0 => if r.sqN < diff32 idx r.cqHead then s else s.setGroup g (r.put 136 4 idx)
    | 1 => if diff32 r.cqTail r.cqHead < diff32 idx r.cqHead then s else s.setGroup g (r.put 148 4 idx)
    | _ => s

/-- The end of the current step's window (13 R366). -/
def stepEnd (r : GroupRun) (o : CollOp) (all : List CollStep) : Nat :=
  cqAux o.request + sumNat ((all.take (o.done + 1)).map (stepLen r))

/-- STEP_WINDOW_END (13 R367). -/
def State.windowEnd (s : State) (g : Nat) : State :=
  let r := s.group g
  match r.op with
  | some o =>
    if o.promised && !o.awaiting.isEmpty && decide (stepEnd r o (s.ringSteps r o.request) ≤ s.now) then s.voidGroupOp g 8 (fun _ => true) else s
  | none => s

/-- The retransmission timeout of a group: the greater of 50 µs and four round trips of the first port toward the peer
(13 R361). -/
def State.collRto (s : State) (r : GroupRun) (rank : Nat) : Nat :=
  match s.upPorts (s.routeEntry s.bank (s.memberNgi r rank)) with
  | p :: _ => max 50000 (4 * s.fldAt (.port p) 0x040 0 32)
  | [] => 50000

/-- A connection has exhausted its retransmissions: the operation that has not ended ends with PEER_LOST, and the group is FAILED (13 R368). -/
def State.losePeer (s : State) (g : Nat) : State :=
  let s := s.report 0x19 none g
  let s := s.setGroup g { s.group g with inFlight := [], ready := [] }
  let s := match (s.group g).op with
    | some o => if o.status.isNone then s.endOp g o 7 else s
    | none => s
  (s.setGroup g ((s.group g).put 156 4 7)).setGroupState g 3

/-- The packet as it is sent again: that of an operation whose promise is void goes on as class 0 (13 R367). -/
def GroupRun.again (r : GroupRun) (p : Packet) : Packet := { p with vc := groupVc r.sendsClass1 false, guar := r.sendsClass1, retx := true }

/-- The retransmission timer of a connection (13 R361, 12 R324): the packets not acknowledged are sent again, and the seventh time without an
answer the peer is lost. -/
def State.connTimer (s : State) (g rank : Nat) : State :=
  let r := s.group g
  let c := r.link rank
  if r.state = 2 && !s.safe && decide (c.progress + s.collRto r rank ≤ s.clock) then
    if 7 ≤ c.retries then s.losePeer g
    else
      let mine := r.inFlight.filter fun x => x.1 == rank
      let s := ((s.voidGroupOp g 3 (fun _ => true)).report 0x18 none g).quayCount (groupQuay g) 7 mine.length
      let r := (s.group g).setLink rank { c with retries := c.retries + 1, progress := s.clock }
      mine.foldl (fun s x => s.inject (r.again x.2)) (s.setGroup g r)
  else s

/-- The retransmission timers of a group. -/
def State.collTimer (s : State) (g : Nat) : State :=
  (((s.group g).inFlight.map (·.1)).eraseDups).foldl (fun s m => s.connTimer g m) s

/-- The timers of the answers that a group owes its connections: a C_ACK 5 µs after the first packet that it has not acknowledged, and the
grants (13 R361, 12 R324, R325). -/
def State.answerTimers (s : State) (g : Nat) : State :=
  if (s.group g).state ≠ 2 ∨ s.safe then s
  else (Tab.keys (s.group g).conns).foldl (fun (s : State) m =>
    let s := if ((s.group g).link m).ackFrom.any fun t => decide (t + 5000 ≤ s.clock) then s.sendCAck g m else s
    s.grantTimer g m) s

/-! ## Booking again (12 R331, 13 R367) -/

/-- Wire bytes of a group's chunks that have not started on a port. -/
def State.groupUnsent (s : State) (g p : Nat) : Nat :=
  let waiting := (s.port p).egress.filter fun w => w.port == 16 && w.pkt.tkind == 16 && w.pkt.dq % 4096 == g
  sumNat (((s.group g).ready.flatMap (·.2.2) ++ waiting.map (·.pkt)).map fun k => k.payload.length + 64)

/-- Book the steps that are left, each in its own window: the current one for what is not yet sent of it. -/
def State.rebookSteps (s : State) (g : Nat) (r : GroupRun) (d : List Byte) (current : Bool) (m : Nat) (acc : List (Nat × Nat × Nat)) :
    List CollStep → Option (State × List (Nat × Nat × Nat))
  | [] => some (s, acc)
  | st :: rest =>
    let stop := m + stepLen r st
    match st.toRank with
    | none => State.rebookSteps s g r d false stop acc rest
    | some peer =>
      match s.routePort (s.memberNgi r peer) with
      | none => none
      | some p =>
        let bytes := stepBytes r d st
        let need := if current then s.groupUnsent g p else bytes.2
        match s.bookSlots (r.fld 16 4) p 0 (stop - r.pathNs st.level - 300 - ceilDiv bytes.1 1500) s.horizon 16384
            (ceilDiv (max m s.now) 25) need with
        | none => none
        | some l => State.rebookSteps (s.book l) g r d false stop (acc ++ l) rest

/-- Book a group's operation again: it keeps its promise where every step left fits, else the promise is void with a cause. -/
def State.rebookGroup (s : State) (cause g : Nat) : State :=
  let r := s.group g
  match r.op with
  | none => s
  | some o =>
    let free := s.unbook (o.slots.filter fun e => decide (s.now ≤ e.2.1 * 25))
    let m := cqAux o.request + sumNat (((s.ringSteps r o.request).take o.done).map (stepLen r))
    match free.rebookSteps g r o.request true m [] o.steps with
    | some (t, l) => t.setGroup g { r with op := some { o with slots := l } }
    | none => free.voidGroupOp g cause (fun _ => true)

/-- Book again, in order of deadline, every admitted operation that has bytes to send on the ports that satisfy a test. -/
def State.rebook (s : State) (cause : Nat) (ports : Nat → Bool) : State :=
  let queued := s.quays.flatMap fun e =>
    (e.2.ops.filter fun o => o.promised && ports o.port).map fun o => (o.deadline, fun (t : State) => t.rebookOp cause e.1 o)
  let grouped := s.groups.filterMap fun e =>
    match e.2.op with
    | some o => if o.promised && o.slots.any (fun t => ports t.1) then some (cqDeadline o.request, fun (t : State) => t.rebookGroup cause e.1)
        else none
    | none => none
  (sortBy (fun e => e.1) (queued ++ grouped)).foldl (fun t e => e.2 t) s

/-- A lane leaves the active set: the width of the port falls, and where the port stays up what is booked on it is booked
again (11 R286, 12 R331). -/
def State.dropLane (s : State) (p lane : Nat) : State :=
  let t := s.loseLane p lane
  if t.portWidth p < s.portWidth p && (t.portState p == 2 || t.portState p == 3) then t.rebook 2 (· == p) else t

end Sys2Proof.Machine
end

