-- ==== Sys2Proof/Machine/Links.lean ====
section
/-! DEFINITION. The link and router commands (11). -/

namespace Sys2Proof.Machine

/-! ## Training and states -/

/-- 100 ms have passed since the last attempt began, or none has failed since the port left service (11 R284). -/
def State.mayRetry (s : State) (p : Nat) : Bool :=
  match (s.port p).tried with
  | none => true
  | some t => decide (t + 100_000_000 ≤ s.clock)

/-- PORT_TRAINING (11 R284, R308): an enabled port in DOWN begins to train, and again 100 ms after a failed attempt. Whether it may is judged with its
committed fields in force. -/
def portTraining (p : Nat) (s : State) : State :=
  if s.portState p = 0 && (s.committed p).mayTrain p && s.mayRetry p then s.startTraining p else s

def execPortTraining (port : Fin 16) (s : State) : Host.Outcome State Fault Refusal := .next (portTraining port.val s)

/-- A training attempt failed: DOWN, with RTT_LIMIT where the round trip was the cause (11 R284). -/
def trainingFailed (p : Nat) (rttLimit : Bool) (s : State) : State :=
  let s := (s.setPortState p 0).setLanes p 0
  if rttLimit then s.putBit (.port p) 0x048 3 true else s

/-- SYNC received: the peer's capacities become credits and the cumulative counts are zero (11 R289); a node that
receives zero capacity for every data VC treats the port as limited (14 R399). -/
def syncPort (p : Nat) (caps : List Nat) (s : State) : State :=
  let zero := [2, 3, 4, 5, 6, 7].all fun v => caps.getD v 0 == 0
  let s := s.voidCredits p
  let s := s.setPort p { s.port p with
    credits := (List.range 8).foldl (fun t v => Tab.set 0 t v (caps.getD v 0 * 256)) ([] : Tab Nat)
    syncSent := true, syncSeen := true, zeroCap := zero }
  s.showLimited p

/-- The port enters UP with its trained lanes, its frames counted anew (11 R274, R275, R277, R284). -/
def enterUp (p lanes rtt : Nat) (h : Hello) (caps : List Nat) (s : State) : State :=
  let s := s.takeHello p h
  let wanted := s.portCfg p 1 || h.light
  let light := s.portCfg p 1 && h.light && sameTray s.selfNgi h.ngi.toNat && decide (rtt ≤ 3000) && !s.portCfg p 2
  let s := if wanted && !light then (s.putBit (.port p) 0x048 2 true).lifeAdd (0x5000 + 32 * p + 16) 4 1 else s
  let retry := decide (rtt ≤ 3000) && !s.portCfg p 2
  let s := ((s.setPortState p 2).setLanes p lanes).putN (.port p) 0x040 rtt
  let s := (s.putBit (.port p) 0x008 3 light).putBit (.port p) 0x008 4 retry
  let s := s.setPort p { s.port p with
    rxFrames := 0, txFrames := 0, ackFseq := 0, filling := {}, replay := [], resend := [], nak := false, badRun := 0, tried := none }
  syncPort p caps s

/-- PORT_UP (11 R284): the attempt ends with UP, or with DOWN. -/
def portUpOutcome (p : Nat) (o : Training) (s : State) : State :=
  let lanes := o.lanes.toNat &&& s.fldAt (.port p) 0x000 16 8
  if s.portState p ≠ 1 then s
  else if 700_000 < o.rttNs then trainingFailed p true s
  else match o.hello with
    | none => trainingFailed p false s
    | some h =>
      if popcount8 lanes < s.fldAt (.port p) 0x000 8 4 ∨ popcount8 lanes = 0 then trainingFailed p false s
      else enterUp p lanes o.rttNs h (o.caps.map (·.toNat)) s

def execPortUp (port : Fin 16) (outcome : Training) (s : State) : Host.Outcome State Fault Refusal :=
  .next (portUpOutcome port.val outcome s)

/-- RETRAIN (11 R284). -/
def execRetrain (port : Fin 16) (s : State) : Host.Outcome State Fault Refusal := .next (s.retrainPort port.val)

/-- RETUNE (11 R286): the named lane leaves the active set to be retuned; one that has left it already is retuned too. -/
def retuneLane (p lane : Nat) (s : State) : State :=
  if (s.lanes p).testBit lane || ((s.portState p == 2 || s.portState p == 3) && (s.fldAt (.port p) 0x000 16 8).testBit lane) then
    (s.setPort p { s.port p with retuning := lane :: (s.port p).retuning.filter (· != lane) }).dropLane p lane
  else s

def execRetune (port : Fin 16) (lane : Fin 8) (s : State) : Host.Outcome State Fault Refusal :=
  .next (retuneLane port.val lane.val s)

/-- LANE_DROP (11 R286): only an UP or HOLD port has lanes to lose. -/
def execLaneDrop (port : Fin 16) (lane : Fin 8) (s : State) : Host.Outcome State Fault Refusal :=
  .next (s.dropLane port.val lane.val)

/-- LANE_REJOIN (11 R286): a retuned lane that may be used is active again. -/
def laneRejoin (p lane : Nat) (s : State) : State :=
  let r := s.port p
  if r.retuning.contains lane then
    let s := (s.setPort p { r with retuning := r.retuning.filter (· != lane) }).lifeAdd (0x5000 + 32 * p + 12) 4 1
    if (s.portState p == 2 || s.portState p == 3) && (s.fldAt (.port p) 0x000 16 8).testBit lane && !(s.lanes p).testBit lane
    then s.setLanes p (s.lanes p + 2 ^ lane) else s
  else s

def execLaneRejoin (port : Fin 16) (lane : Fin 8) (s : State) : Host.Outcome State Fault Refusal :=
  .next (laneRejoin port.val lane.val s)

/-- The cause of an entry into DOWN holds (11 R285). -/
def causeHolds (p : Nat) (c : DownCause) (s : State) : Bool :=
  match c with
  | .lockLost => true
  | .noControlSlot => true
  | .badFrames => decide (8 ≤ (s.port p).badRun)
  | .basinLost => s.basinLost p

/-- PORT_DOWN (11 R285); a lost basin takes a port in HOLD down too (11 R294). -/
def portDown (p : Nat) (c : DownCause) (s : State) : State :=
  if (s.portUp p || (c == .basinLost && s.portState p == 3)) && causeHolds p c s then s.linkDown p else s

def execPortDown (port : Fin 16) (cause : DownCause) (s : State) : Host.Outcome State Fault Refusal :=
  .next (portDown port.val cause s)

/-- FENCE received (11 R283): a port in TRAINING, UP or HOLD enters PEER_FENCED and the router treats it as down. One that is FENCING itself goes on
(log 80), and DOWN receives nothing (Table 11-6). -/
def fencePort (p : Nat) (s : State) : State :=
  if s.portState p = 0 then s
  else (if s.portState p ≤ 3 then s.dropPort p 5 else s).putBit (.port p) 0x048 6 true

def execFence (port : Fin 16) (_ngi : BitVec 18) (s : State) : Host.Outcome State Fault Refusal := .next (fencePort port.val s)

/-- HELLO received on an UP port (17 R460): NEIGHBOUR is updated, and a change of the limited status retrains. -/
def helloPort (p : Nat) (h : Hello) (s : State) : State :=
  if s.portUp p then
    let t := (s.takeHello p h).showLimited p
    if t.portLimited p = s.portLimited p then t else t.retrainPort p
  else s

def execHello (port : Fin 16) (hello : Hello) (s : State) : Host.Outcome State Fault Refusal := .next (helloPort port.val hello s)

/-! ## Frames and control slots -/

/-- The symbol errors of a codeword are more than the FEC mode corrects (11 R273). -/
def codewordBad (light : Bool) (errs : Nat) : Bool := if light then errs != 0 else decide (15 < errs)

/-- A good frame (11 R274, R276, R279): the flits of its data slots enter the receiver, from FIRST_HDR on where it resynchronises. What its control
slots carry arrives as commands of their own. -/
def takeFrame (p : Nat) (f : FrameBody) (s : State) : State :=
  let r := s.port p
  let n := r.rxFrames + (frameSeq f + 4096 - r.rxFrames % 4096) % 4096
  let data := dataSlots (s.portWidth p) n f.slots
  let data := if r.resync then data.filter fun e => decide (frameFirst f ≤ e.2) else data
  let s := s.setPort p { r with resync := r.resync && frameFirst f == 63, badRun := 0, nak := false, rxFrames := n + 1 }
  data.foldl (fun s e => s.takeFlit p e.1) (s.flushSpills p)

/-- A bad frame: discarded, NAKed where retry is in use, else lost with every packet that had a flit in it (11 R274). -/
def badFrame (p : Nat) (f : FrameBody) (s : State) : State :=
  let r := s.port p
  let s := (s.addWrap (.port p) 0x058 0 64 1).lifeAdd (0x5000 + 32 * p + 20) 8 1
  if s.portRetry p then s.setPort p { r with nak := true, badRun := r.badRun + 1 }
  else
    let data := (dataSlots (s.portWidth p) r.rxFrames f.slots).filter fun e => decide (frameFirst f ≤ e.2)
    let s := s.setPort p { r with resync := true, badRun := r.badRun + 1, rxFrames := r.rxFrames + 1 }
    (s.dropPartial p).addWrap (.port p) 0x068 0 64 (countStarts 0 (data.map (·.1)) + (if r.partial_.isEmpty then 0 else 1))

/-- FRAME_RECEIVE (11 R273, R274, R276). With retry a good frame out of sequence is discarded until the replay of the bad one arrives. -/
def frameReceive (p : Nat) (f : Frame) (s : State) : State :=
  let light := s.bitAt (.port p) 0x008 3
  let r := s.port p
  if !s.portUp p then s
  else if codewordBad light f.symErrs0 || codewordBad light f.symErrs1 || !frameCrcOk f.body then badFrame p f.body s
  else
    let s := s.addWrap (.port p) 0x050 0 64 ((if f.symErrs0 = 0 then 0 else 1) + (if f.symErrs1 = 0 then 0 else 1))
    if s.portRetry p && frameSeq f.body != r.rxFrames % 4096 then s.setPort p { r with badRun := 0 } else takeFrame p f.body s

def execFrameReceive (port : Fin 16) (frame : Frame) (s : State) : Host.Outcome State Fault Refusal :=
  .next (frameReceive port.val frame s)

/-- The peer acknowledges frames up to ACK_FSEQ; with NAK the later ones are sent again (11 R274, R280). -/
def ackFrames (p : Nat) (nak : Bool) (ack : Nat) (s : State) : State :=
  let r := s.port p
  if s.portRetry p then
    let left := r.replay.filter fun e => decide ((e.fseq + 4096 - (ack + 1) % 4096) % 4096 < 2048)
    let s := s.setPort p { r with replay := left, ackFseq := ack, resend := if nak then left else r.resend }
    if nak && !left.isEmpty then s.addWrap (.port p) 0x060 0 64 1 else s
  else s

/-- CREDIT received (11 R289). -/
def creditPort (p : Nat) (nak sync : Bool) (ack : Nat) (freed : List Nat) (s : State) : State :=
  if s.portState p ≠ 2 ∧ s.portState p ≠ 3 then s
  else if sync then syncPort p freed s
  else
    let s := ackFrames p nak ack s
    let r := s.port p
    let add := fun v => (freed.getD v 0 + 65536 - Tab.get 0 r.seen v) % 65536
    s.setPort p { r with
      credits := (List.range 8).foldl (fun t v => Tab.set 0 t v (Tab.get 0 t v + add v)) r.credits
      seen := (List.range 8).foldl (fun t v => Tab.set 0 t v (freed.getD v 0)) r.seen }

def execCredit (port : Fin 16) (nak : Bool) (sync : Bool) (ackFseq : BitVec 12) (freed : List (BitVec 16)) (s : State) :
    Host.Outcome State Fault Refusal :=
  .next (creditPort port.val nak sync ackFseq.toNat (freed.map (·.toNat)) s)

/-- AUDIT received (11 R290): on a port without retry the flits that did not arrive count as freed. -/
def auditPort (p : Nat) (nak : Bool) (ack : Nat) (sent : List Nat) (s : State) : State :=
  if s.portState p ≠ 2 ∧ s.portState p ≠ 3 then s
  else
    let s := ackFrames p nak ack s
    if s.portRetry p then s
    else
      let r := s.port p
      let lost := fun v => (sent.getD v 0 + 65536 - Tab.get 0 r.received v % 65536) % 65536
      let any := (List.range 8).any fun v => lost v != 0
      let s := s.setPort p { r with
        freed := (List.range 8).foldl (fun t v => Tab.set 0 t v (Tab.get 0 t v + lost v)) r.freed
        received := (List.range 8).foldl (fun t v => Tab.set 0 t v (Tab.get 0 t v + lost v)) r.received }
      if any then s.putBit (.port p) 0x048 4 true else s

def execAudit (port : Fin 16) (nak : Bool) (ackFseq : BitVec 12) (sent : List (BitVec 16)) (s : State) :
    Host.Outcome State Fault Refusal :=
  .next (auditPort port.val nak ackFseq.toNat (sent.map (·.toNat)) s)

/-- CONTROL_SLOT_SEND (11 R277, R280, R283, R289, 17 R460): the data slots before the port's next control slot carry IDLE flits, and the control slot
what is due. In TRAINING there are no frames. -/
def controlSlot (p : Nat) (s : State) : State :=
  if s.framing p then (s.idleFill p).putControl p false else s.nextControl p

def execControlSlotSend (port : Fin 16) (s : State) : Host.Outcome State Fault Refusal := .next (controlSlot port.val s)

/-! ## Routing -/

/-- EGRESS_PACKET_START (11 R274, R279, R288): a frame of a replay goes first, else the packet that R288 chooses. -/
def egressStart (p : Nat) (s : State) : State :=
  if !s.portUp p then s
  else match (s.port p).resend with
    | f :: rest => s.replayFrame p f rest
    | [] => match s.chooseEgress p with
      | some c => s.startChoice p c
      | none => s

def execEgressPacketStart (port : Fin 16) (s : State) : Host.Outcome State Fault Refusal := .next (egressStart port.val s)

/-- UNICAST (11 R300, R306, R307): the packet at the head of an input VC is dropped, delivered, queued for a port that has credit for it beside
what is queued there, or waits. -/
def unicast (p vc : Nat) (s : State) : State :=
  match takeHead vc false (s.port p).input with
  | none => s
  | some (w, rest) =>
    match w.bad with
    | some c => (s.popInput p rest w).dropPkt c w.pkt p
    | none =>
      if s.hostPort p then (s.popInput p rest w).toBridge w.pkt
      else match s.routePkt w.pkt w.bank with
        | .drop c => (s.popInput p rest w).dropPkt c w.pkt p
        | .deliver q => (s.popInput p rest w).deliverPkt q p
        | .send q o =>
          if q.len ≤ s.spare o q.vc && s.portUp o then
            let s := if q.vc = 7 && w.pkt.vc ≠ 7 then s.countEscape p w.pkt.vc else s
            (s.takeInput p rest).sendOn { w with pkt := q } o
          else s

def execUnicast (port : Fin 16) (vc : Fin 8) (s : State) : Host.Outcome State Fault Refusal := .next (unicast port.val vc.val s)

/-- REPL[BLOCK].PORTMASK_p (11 Registers). -/
def State.portMask (s : State) (block p : Nat) : Nat := s.regN .routeTable (0x80_0000 + block * 0x80 + p * 8)

/-- The copies of a multicast packet wait on the other ports for credit (11 R302, R305, R307). -/
def multicastCopies (w : Waiting) (s : State) : State :=
  allPorts.foldl (fun s p =>
    let sub := w.pkt.mask &&& s.portMask w.pkt.block p
    let copy := { w with pkt := { w.pkt with mask := sub } }
    if p = w.port ∨ sub = 0 ∨ s.hostPort p then s
    else if s.mayCross copy.pkt p then s.queuePkt p copy
    else s.dropPkt 3 copy.pkt w.port) s

/-- A multicast packet is replicated: its input buffer is freed when the last copy has started (11 R305). -/
def State.replicate (s : State) (p : Nat) (w : Waiting) : State :=
  let w := { w with copy := some (s.port p).copies }
  let s := multicastCopies w (s.setPort p { s.port p with copies := (s.port p).copies + 1 })
  let s := if w.pkt.block = s.selfNgi / 64 && w.pkt.mask.testBit (s.selfNgi % 64) then s.deliverPkt w.pkt p else s
  s.release w

/-- MULTICAST (11 R305, R307). -/
def multicast (p vc : Nat) (s : State) : State :=
  match takeHead vc true (s.port p).input with
  | none => s
  | some (w, rest) =>
    match w.bad with
    | some c => (s.popInput p rest w).dropPkt c w.pkt p
    | none =>
      if s.hostPort p then (s.popInput p rest w).toBridge w.pkt
      else if w.pkt.ttl = 0 then (s.popInput p rest w).dropPkt 0 w.pkt p
      else if vc ≠ 4 ∧ vc ≠ 5 then (s.popInput p rest w).dropPkt 4 w.pkt p
      else (s.takeInput p rest).replicate p w

def execMulticast (port : Fin 16) (vc : Fin 8) (s : State) : Host.Outcome State Fault Refusal := .next (multicast port.val vc.val s)

/-- A packet has waited ESC_WAIT ns without room and may escape (11 R303). -/
def State.escapes (s : State) (room : Nat → Nat → Nat) (w : Waiting) : Bool :=
  mayEscape w.pkt && w.bad.isNone && decide (w.since + s.fldAt .router 0x008 0 16 ≤ s.clock) && s.blocked room w

/-- A waiting packet moves to VC7 and is routed by it (11 R303). -/
def State.escapePkt (s : State) (w : Waiting) : State :=
  (s.countEscape w.port w.pkt.vc).forward { w with pkt := (s.phased w.pkt).escaped, since := s.clock }

/-- The first packet of a VC in a port's egress queue, where it escapes: the node's own packets wait there (11 R303). -/
def egressEscape (p vc : Nat) (s : State) : State :=
  match (s.port p).egress.find? fun w => w.pkt.vc == vc with
  | some w =>
    if decide (s.credits p vc < w.pkt.len) && s.escapes s.credits w then
      (s.setPort p { s.port p with egress := removeFirst w (s.port p).egress }).escapePkt w
    else s
  | none => s

/-- ESCAPE (11 R303): a packet that has waited ESC_WAIT ns without credit moves to VC7: the head of the input VC, or else the first packet of the VC in
the port's egress queue. -/
def escape (p vc : Nat) (s : State) : State :=
  match takeHead vc false (s.port p).input with
  | some (w, rest) =>
    if !s.hostPort p && s.escapes s.spare w then (s.takeInput p rest).escapePkt w else egressEscape p vc s
  | none => egressEscape p vc s

def execEscape (port : Fin 16) (vc : Fin 8) (s : State) : Host.Outcome State Fault Refusal := .next (escape port.val vc.val s)

/-- The first packet of a VC that has flits in the basin, and the input with a function's answer in its place. -/
def fillHead (vc : Nat) (f : Waiting → List Waiting) : List Waiting → Option (Waiting × List Waiting)
  | [] => none
  | w :: ws =>
    if w.inVc = vc ∧ w.inBasin ≠ 0 then some (w, f w ++ ws)
    else match fillHead vc f ws with
      | some (x, rest) => some (x, w :: rest)
      | none => none

/-- The oldest basin flit of a VC moves on die: of the oldest packet with flits there, or of the one that still arrives (11 R293). -/
def fillFlit (p vc : Nat) (s : State) : State :=
  let r := s.port p
  let s := s.setPort p { r with
    filled := Tab.set 0 r.filled vc (Tab.get 0 r.filled vc + 1), basin := Tab.set 0 r.basin vc (Tab.get 0 r.basin vc - 1)
    onDie := Tab.set 0 r.onDie vc (Tab.get 0 r.onDie vc + 1) }
  let s := match fillHead vc (fun w => [{ w with inBasin := w.inBasin - 1 }]) r.input with
    | some (_, input) => s.takeInput p input
    | none => s.setPort p { s.port p with partDeep := r.partDeep - 1 }
  s.showBasin p vc

/-- The oldest basin flit of a VC reads poisoned: its packet is discarded with its credits returned, one that still arrives when it is whole
(11 R294, 19 R502). -/
def poisonFlit (p vc : Nat) (s : State) : State :=
  let r := s.port p
  let s := s.putBit (.port p) 0x048 5 true
  match fillHead vc (fun _ => []) r.input with
  | some (w, input) => ((s.takeInput p input).discardFlits p vc w.pkt.len w.inBasin false).addWrap (.port p) 0x068 0 64 1
  | none => fillFlit p vc (s.setPort p { r with partBad := true })

/-- BASIN_FILL (11 R293, R294, 19 R502): one flit, as room frees; it waits while its channel does. -/
def basinFill (p vc : Nat) (s0 : State) : State :=
  let s := s0.flushSpills p
  let r := s.port p
  let a := s.basinFlit p vc (Tab.get 0 r.filled vc)
  if Tab.get 0 r.basin vc = 0 ∨ s.onDieCap p vc ≤ Tab.get 0 r.onDie vc ∨ s.hbmWaits a 32 then s
  else if (s.memRead a 32).poison then poisonFlit p vc s
  else fillFlit p vc s

def execBasinFill (port : Fin 16) (vc : Fin 8) (s : State) : Host.Outcome State Fault Refusal := .next (basinFill port.val vc.val s)

/-! ## Registers with commands of their own -/

/-- A read of a register whose field clears as it is read: the value is the answer (00 R13). -/
def State.readClear (s : State) (b : Block) (off lo len : Nat) : State :=
  let w := s.reg b off
  (s.putReg b off (setFld w lo len 0)).answers 0 (leBytes 8 w.toNat)

/-- BASIN_OCC_READ (11 BASIN_OCC_v, 19 R502). -/
def execBasinOccRead (port : Fin 16) (vc : Fin 8) (s : State) : Host.Outcome State Fault Refusal :=
  let w := s.reg (.port port.val) (0x1C0 + 8 * vc.val)
  .next ((s.putReg (.port port.val) (0x1C0 + 8 * vc.val) (setFld w 32 32 (fld w 0 32))).answers 0 (leBytes 8 w.toNat))

/-- DROP_COUNT_READ (11 R304). -/
def execDropCountRead (cause : Fin 5) (s : State) : Host.Outcome State Fault Refusal :=
  .next (s.readClear .router (0x040 + 8 * cause.val) 0 32)

/-- The value of a register after a write of one width, the other half kept (00 R12). -/
def mergeHalf (old : Word) (wide high : Bool) (value : Word) : Word :=
  if wide then value
  else if high then setFld old 32 32 (fld value 0 32) else setFld old 0 32 (fld value 0 32)

/-- A write to RTR_BANK (11 R299, R309). -/
def State.writeBank (s : State) (wide high : Bool) (v : Word) : State :=
  s.putN .router 0x000 (fld (mergeHalf (s.reg .router 0x000) wide high v) 0 1)

def execRtrBankWrite (wide : Bool) (high : Bool) (value : Word) (s : State) : Host.Outcome State Fault Refusal :=
  .next (s.writeBank wide high value)

/-- A write to the route-table window (11 R298): one that would change an active-bank entry is discarded whole. The
router block's CFG_REJECT records it. -/
def State.writeRoute (s : State) (word : Nat) (wide high : Bool) (v : Word) : State :=
  let a := blockBase .routeTable + 8 * word
  let old := s.getReg a
  let new := mergeHalf old wide high v &&& 0x0FFF_FFFF_0FFF_FFFF
  if word / 131072 = s.bank ∧ new ≠ old then s.reject .router else s.setReg a new

def execRouteTableWrite (word : Fin 262144) (wide : Bool) (high : Bool) (value : Word) (s : State) :
    Host.Outcome State Fault Refusal :=
  .next (s.writeRoute word.val wide high value)

/-- A write to TAG_FILTER (11 R306). -/
def State.writeTagFilter (s : State) (k : Nat) (wide high : Bool) (v : Word) : State :=
  let a := blockBase .router + 0x1_0000 + 8 * k
  s.setLagged a (mergeHalf (s.getReg a) wide high v)

def execTagFilterWrite (word : Fin 1024) (wide : Bool) (high : Bool) (value : Word) (s : State) :
    Host.Outcome State Fault Refusal :=
  .next (s.writeTagFilter word.val wide high value)

end Sys2Proof.Machine
end

