-- ==== Sys2Proof/Machine/MxeOps.lean ====
section
/-! DEFINITION. The Matrix Engines: descriptor checks, passes, the accumulator bank, drains and summaries (05 R119–R142). -/

namespace Sys2Proof.Machine

/-! ## The descriptor (05 Table 5-3) -/

def mxA (d : List Byte) : Nat := byteFld d 8 4
def mxB (d : List Byte) : Nat := byteFld d 12 4
def mxC (d : List Byte) : Nat := byteFld d 16 4
def mxSum (d : List Byte) : Nat := byteFld d 20 4
def mxLda (d : List Byte) : Nat := byteFld d 24 4
def mxLdb (d : List Byte) : Nat := byteFld d 28 4
def mxLdc (d : List Byte) : Nat := byteFld d 32 4
def mxM (d : List Byte) : Nat := byteFld d 36 2 + 1
def mxN (d : List Byte) : Nat := byteFld d 38 2 + 1
def mxK (d : List Byte) : Nat := byteFld d 40 2 + 1
def mxFmtA (d : List Byte) : Fmt := fmtOf (byteFld d 42 2)
def mxFmtB (d : List Byte) : Fmt := fmtOf (byteFld d 44 2)
def mxFmtC (d : List Byte) : Fmt := fmtOf (byteFld d 46 2)
/-- CTRL: 0 TRANS_A, 1 TRANS_B, 2 ACC_MODE, 3 BANK, 4 OUT_EN, 5 SUM_EN. -/
def mxCtrl (d : List Byte) (i : Nat) : Bool := (byteFld d 48 2).testBit i
def mxRow (d : List Byte) : Nat := byteFld d 50 2
def mxTrig (d : List Byte) : Nat := byteFld d 56 4
def mxTrigInc (d : List Byte) : Nat := byteFld d 60 4
def mxNt (d : List Byte) : Nat := ceilDiv (mxN d) 64
def mxKt (d : List Byte) : Nat := ceilDiv (mxK d) 64

/-- MALFORMED (05 R134). -/
def mxMalformed (d : List Byte) : Bool :=
  let out := mxCtrl d 4
  !(fmtOk (byteFld d 42 2) false && decide ((mxFmtA d).code ≤ 1) && fmtOk (byteFld d 44 2) false && decide ((mxFmtB d).code ≤ 1)
    && fmtOk (byteFld d 46 2) true && decide ((mxFmtC d).code ≤ 2)
    && mxA d % 64 == 0 && mxB d % 64 == 0 && mxLda d % 64 == 0 && mxLdb d % 64 == 0
    && (!out || (mxC d % 64 == 0 && mxLdc d % 64 == 0 && decide (mxN d * (mxFmtC d).size ≤ mxLdc d)))
    && (!mxCtrl d 5 || (mxSum d % 32 == 0 && out))
    && (mxCtrl d 3 || decide (mxRow d % 1024 + mxNt d * mxM d ≤ 1024))
    && (!mxCtrl d 3 || (!mxCtrl d 2 && mxRow d % 1024 == 0 && out))
    && (!(mxTrig d).testBit 31 || decide (mxTrig d % 2 ^ 17 ≤ 131_071))
    && mxA d < 2 ^ 22 && mxB d < 2 ^ 22 && mxC d < 2 ^ 22 && mxSum d < 2 ^ 22
    && bits (byteFld d 48 2) 6 10 == 0 && mxRow d < 1024 && zeroAt d 52 4 && bits (mxTrig d) 17 14 == 0 && zeroAt d 64 64)

/-- The bytes of a matrix of rows × cols elements from its first to its last. -/
def spanOf (rows cols ld size : Nat) : Nat := (rows - 1) * ld + cols * size

/-- The span of A. -/
def mxSpanA (d : List Byte) : Nat :=
  if mxCtrl d 0 then spanOf (mxK d) (mxM d) (mxLda d) (mxFmtA d).size else spanOf (mxM d) (mxK d) (mxLda d) (mxFmtA d).size
/-- The span of B. -/
def mxSpanB (d : List Byte) : Nat :=
  if mxCtrl d 1 then spanOf (mxN d) (mxK d) (mxLdb d) (mxFmtB d).size else spanOf (mxK d) (mxN d) (mxLdb d) (mxFmtB d).size
/-- The span of C, empty without an output. -/
def mxSpanC (d : List Byte) : Nat := if mxCtrl d 4 then spanOf (mxM d) (mxN d) (mxLdc d) (mxFmtC d).size else 0
/-- The span of the summary. -/
def mxSpanS (d : List Byte) : Nat := if mxCtrl d 5 then 32 else 0

/-- The end of the engine area of a well (04 R107). -/
def engineEnd : Nat := 0x2C_0000

/-- The end of the MXE carve-out (04 R107). -/
def State.mxCarve (s : State) (c : Nat) : Nat := s.fldAt (.core c) 0x010 0 6 * 65536

/-- Why an MXE refuses a descriptor: 0 for none (05 R134, R135). -/
def State.mxRefusal (s : State) (c : Nat) (d : List Byte) : Nat :=
  if mxMalformed d then 0x01
  else if engineEnd < mxA d + mxSpanA d ∨ engineEnd < mxB d + mxSpanB d
      ∨ (mxCtrl d 4 ∧ s.mxCarve c < mxC d + mxSpanC d) ∨ (mxCtrl d 5 ∧ s.mxCarve c < mxSum d + 32) then 0x02
  else if overlaps (mxC d) (mxSpanC d) (mxA d) (mxSpanA d) || overlaps (mxC d) (mxSpanC d) (mxB d) (mxSpanB d)
      || overlaps (mxSum d) (mxSpanS d) (mxA d) (mxSpanA d) || overlaps (mxSum d) (mxSpanS d) (mxB d) (mxSpanB d)
      || overlaps (mxSum d) (mxSpanS d) (mxC d) (mxSpanC d) then 0x80
  else 0

/-! ## The bank (05 R126–R131) -/

/-- An element of the bank of engine e of core c. -/
def accKey (c e row col : Nat) : Nat := 65536 * (2 * c + e) + 64 * row + col
def State.accAt (s : State) (c e row col : Nat) : Nat := (Tab.get 0 s.acc (accKey c e row col)).toNat
def State.setAcc (s : State) (c e row col v : Nat) : State :=
  { s with acc := Tab.set 0 s.acc (accKey c e row col) (BitVec.ofNat 32 v) }

/-- The poison mark of a bank row. -/
def State.rowMarked (s : State) (c e row : Nat) : Bool := Tab.get false s.accPoison (1024 * (2 * c + e) + row)
def State.markRow (s : State) (c e row : Nat) (b : Bool) : State :=
  { s with accPoison := Tab.set false s.accPoison (1024 * (2 * c + e) + row) b }

/-- A unit of work: the first row of C, the rows, the n-tile and its first bank row (05 R127, R128). -/
structure MxUnit where
  m0   : Nat
  rows : Nat
  nt   : Nat
  bank : Nat
  deriving DecidableEq, Repr

/-- The units of a descriptor in order. -/
def mxUnits (d : List Byte) : List MxUnit :=
  if mxCtrl d 3 then
    let mb := min (mxM d) 512
    (List.range (ceilDiv (mxM d) mb)).flatMap fun b =>
      (List.range (mxNt d)).map fun nt =>
        { m0 := b * mb, rows := min mb (mxM d - b * mb), nt := nt, bank := (b * mxNt d + nt) % 2 * 512 }
  else
    (List.range (mxNt d)).map fun nt => { m0 := 0, rows := mxM d, nt := nt, bank := mxRow d + nt * mxM d }

/-- The bank rows of a descriptor's region. -/
def mxRegion (d : List Byte) : List Nat := (mxUnits d).flatMap fun u => (List.range u.rows).map fun i => u.bank + i

/-- Columns of an n-tile. -/
def mxCols (d : List Byte) (nt : Nat) : Nat := min 64 (mxN d - 64 * nt)

/-! ## Arithmetic (05 R122–R125) -/

/-- The exact sum of the terms of a pass; −0 only where every term is −0 (05 R124). -/
def sumTerms : List Num → Num
  | [] => .fin false 0 1
  | x :: xs => xs.foldl Num.add x

/-- The accumulator after a pass (05 R122, Table 5-2). -/
def passResult (c : Option Nat) (products : List Num) : Nat :=
  (place FP32 true 0 (sumTerms ((c.map (decodeNum FP32)).toList ++ products))).code

/-- Element (m, k) of A (05 Table 5-4). -/
def State.mxElemA (s : State) (c : Nat) (d : List Byte) (m k : Nat) : Elem :=
  let a := (mxFmtA d).size
  s.elemAt (wellBase c + mxA d + (if mxCtrl d 0 then k * mxLda d + m * a else m * mxLda d + k * a)) a

/-- Element (k, n) of B. -/
def State.mxElemB (s : State) (c : Nat) (d : List Byte) (k n : Nat) : Elem :=
  let b := (mxFmtB d).size
  s.elemAt (wellBase c + mxB d + (if mxCtrl d 1 then n * mxLdb d + k * b else k * mxLdb d + n * b)) b

/-- Load the tile (kt, nt) of B (05 R119, R120). -/
def State.loadTile (s : State) (c : Nat) (d : List Byte) (kt nt : Nat) : MxTile :=
  (List.range (min 64 (mxK d - 64 * kt))).map fun i => (List.range (mxCols d nt)).map fun j =>
    let e := s.mxElemB c d (64 * kt + i) (64 * nt + j)
    (e.code, e.poison)

/-- The element of a tile at row k and column n. -/
def MxTile.at (t : MxTile) (k n : Nat) : Elem := let e := (t.getD k []).getD n (0, false); { code := e.1, poison := e.2 }

/-- The products of a pass for column j of row m, the tile of K rows from 64 × kt in the weight register, and whether
poisoned data was read. -/
def State.mxProducts (s : State) (c : Nat) (d : List Byte) (m j kt : Nat) (tile : MxTile) : List Num × Bool :=
  let es := (List.range tile.length).map fun i => (s.mxElemA c d m (64 * kt + i), MxTile.at tile i j)
  (es.map fun e => (decodeNum (mxFmtA d) e.1.code).mul (decodeNum (mxFmtB d) e.2.code), es.any fun e => e.1.poison || e.2.poison)

/-- The order in which a unit takes its K tiles, which the MXE chooses (05 R125). -/
def State.tileOrder (s : State) (d : List Byte) (u : MxUnit) : List Nat :=
  sortBy (fun kt => Config.order (s.draws + u.m0 * mxNt d + u.nt) kt) (List.range (mxKt d))

/-- The accumulator of column j of row m after the passes of a unit, each with its tile, and whether it took a poisoned term. -/
def State.mxElement (s : State) (c : Nat) (d : List Byte) (passes : List (Nat × MxTile)) (start : Option Nat) (m j : Nat) : Elem :=
  let r := passes.foldl (fun (acc : Option Nat × Bool) p =>
    let (ps, p) := s.mxProducts c d m j p.1 p.2
    (some (passResult acc.1 ps), acc.2 || p)) (start, false)
  { code := r.1.getD 0, poison := r.2 }

/-! ## A descriptor's work -/

/-- What a descriptor has counted: NaN and infinite outputs, saturation and NaN events, the largest finite output, and whether
poisoned data was read. -/
structure MxTally where
  nanOut : Nat := 0
  infOut : Nat := 0
  sats   : Nat := 0
  nans   : Nat := 0
  most   : Num := .fin false 0 1
  poison : Bool := false
  deriving DecidableEq, Repr

/-- Count one output element. -/
def MxTally.add (t : MxTally) (f : Fmt) (v : Coded) : MxTally :=
  let x := decodeNum f v.code
  { t with nanOut := t.nanOut + (if x.isNan then 1 else 0), infOut := t.infOut + (if x.isInf then 1 else 0)
           sats := t.sats + v.sats, nans := t.nans + v.nans, most := if x.isFin then t.most.max x.abs else t.most }

/-- Drain one row of a unit (05 R136): the elements converted and written. -/
def State.drainRow (s : State) (c : Nat) (d : List Byte) (u : MxUnit) (i : Nat) (es : List Elem) (t : MxTally) :
    State × MxTally :=
  let f := mxFmtC d
  let m := u.m0 + i
  let vs := es.zipIdx.map fun e => (convert FP32 f (s.draw16 (m * mxN d + 64 * u.nt + e.2)) e.1.code, e.1.poison)
  let out := vs.map fun v => ({ code := v.1.code, poison := v.2 } : Elem)
  (s.writeElems (wellBase c + mxC d + m * mxLdc d + 64 * u.nt * f.size) f.size out, vs.foldl (fun t v => t.add f v.1) t)

/-- One row of a unit: its passes, the bank row, the poison mark and the drain. -/
def State.mxRow (s : State) (c e : Nat) (d : List Byte) (passes : List (Nat × MxTile)) (u : MxUnit) (t : MxTally) (i : Nat) :
    State × MxTally :=
  let row := u.bank + i
  let accum := mxCtrl d 2
  let marked := accum && s.rowMarked c e row
  let es := (List.range (mxCols d u.nt)).map fun j =>
    let x := s.mxElement c d passes (if accum then some (s.accAt c e row j) else none) (u.m0 + i) j
    { x with poison := x.poison || marked }
  let t := { t with poison := t.poison || es.any Elem.poison }
  let s := if accum then s else s.markRow c e row false
  let s := if mxCtrl d 3 then (List.range 64).foldl (fun (s : State) j => s.setAcc c e row j 0) s
    else es.zipIdx.foldl (fun (s : State) x => s.setAcc c e row x.2 x.1.code) s
  if mxCtrl d 4 then s.drainRow c d u i es t else (s, t)

/-- A tile enters the weight shadow register, and moves to the weight register (05 R120). -/
def State.setTile (s : State) (c e : Nat) (tile : MxTile) : State :=
  { s with weights := Tab.set {} s.weights (2 * c + e) { weight := tile, shadow := tile } }

/-- One unit: its passes, each of which leaves its tile in the weight register (05 R120). -/
def State.mxUnit (s : State) (c e : Nat) (d : List Byte) (t : MxTally) (u : MxUnit) : State × MxTally :=
  let passes := (s.tileOrder d u).map fun kt => (kt, s.loadTile c d kt u.nt)
  let r := (List.range u.rows).foldl (fun (a : State × MxTally) i => a.1.mxRow c e d passes u a.2 i) (s, t)
  match passes.getLast? with
  | some p => (r.1.setTile c e p.2, r.2)
  | none => r

/-- The summary (05 R137). A summary of poisoned outputs is written poisoned. -/
def State.writeSummary (s : State) (c : Nat) (d : List Byte) (t : MxTally) : State :=
  if mxCtrl d 5 then
    s.memWrite (wellBase c + mxSum d)
      (leBytes 4 (sat32 t.nanOut) ++ leBytes 4 (sat32 t.infOut) ++ leBytes 4 (sat32 t.sats)
        ++ leBytes 4 (place FP32 true 0 t.most).code ++ List.replicate 16 0) t.poison
  else s

/-- Weight-load, row and drain cycles of a descriptor (05 Tables 5-1, 5-9, R140); a row of a partial n-tile drains in the cycles
of the bytes that it holds (log 72). -/
def mxCycles (d : List Byte) : Nat × Nat × Nat :=
  let r := if (mxFmtA d).code = 1 ∧ (mxFmtB d).code = 1 then 1 else 4
  let b := (mxFmtB d).size
  let passes := (mxUnits d).flatMap fun u => (List.range (mxKt d)).map fun kt => (u, min 64 (mxK d - 64 * kt))
  let load := sumNat (passes.map fun p =>
    (if mxCtrl d 1 then mxCols d p.1.nt * ceilDiv (p.2 * b) 128 else p.2 * ceilDiv (mxCols d p.1.nt * b) 128)
      + (if mxCtrl d 0 then 64 else 0))
  let rows := sumNat (passes.map fun p => p.1.rows * r)
  let drain := if mxCtrl d 4 then sumNat ((mxUnits d).map fun u => u.rows * ceilDiv (mxCols d u.nt * (mxFmtC d).size) 128) else 0
  (load, rows, drain)

/-- Add a descriptor's cycles while CNT_EN is 1; those of BUSY and STALL depend on the neighbours and are free values. -/
def State.countMx (s : State) (c e : Nat) (d : List Byte) : State :=
  let b : Block := .mxe c e
  if s.bitAt b 0x00 2 then
    let (load, rows, drain) := mxCycles d
    let s := (s.addWrap b 0x20 0 64 (Config.freeWord s.draws).toNat).addWrap b 0x28 0 64 rows
    let s := (s.addWrap b 0x30 0 64 load).addWrap b 0x38 0 64 drain
    (s.addWrap b 0x40 0 64 (Config.freeWord (s.draws + 1)).toNat).drawnN 2
  else s

/-- Add NaN and saturation events to a conversion register, each saturating. -/
def State.countEvents (s : State) (b : Block) (off nans sats : Nat) : State := (s.addSat b off 0 32 nans).addSat b off 32 32 sats

/-- The MXE runs its current descriptor (05 R119–R137). -/
def State.runMxe (s : State) (c e : Nat) : State :=
  match (s.queue c e).current with
  | none => s
  | some x =>
    let d := x.desc
    let status := s.mxRefusal c d
    if status ≠ 0 then s.endCurrent c e status
    else
      let (s, t) := (mxUnits d).foldl (fun (a : State × MxTally) u => a.1.mxUnit c e d a.2 u) (s, {})
      let s := if t.poison then (mxRegion d).foldl (fun (s : State) r => s.markRow c e r true) s else s
      let s := ((s.writeSummary c d t).countEvents (.mxe c e) 0x18 t.nans t.sats).countMx c e d
      (s.drawnN (mxM d * mxN d)).endCurrent c e (if t.poison then 0x03 else 0)

/-- The add of a completed descriptor, after its increment (05 R138). -/
def State.mxAdd (s : State) (d : List Byte) : State :=
  if (mxTrig d).testBit 31 then s.sendAdd (mxTrig d % 2 ^ 17) (mxTrigInc d) 1 else s

/-- Descriptors that end with ABORTED leave every element of their regions NaN (05 R131). -/
def State.abortMxe (s : State) (c e : Nat) : State :=
  ((s.queue c e).running.filter fun x => s.mxRefusal c x.desc == 0 && headerOk e x.desc).foldl (fun (s : State) x =>
    (mxRegion x.desc).foldl (fun (s : State) r =>
      (List.range 64).foldl (fun (s : State) j => s.setAcc c e r j (fpNan 0)) s) s) s

end Sys2Proof.Machine
end

