-- ==== Sys2Proof/Machine/Transc.lean ====
section
/-! DEFINITION. The transcendental functions of the Flow Engine (06 R156): their values to 200 binary places, and a result
within the bound of 03 Table 3-10. -/

namespace Sys2Proof.Machine

/-! ## Fixed point with 256 fraction bits -/

/-- One, and the product and quotient of two numbers. -/
def fxOne : Int := 2 ^ 256
def fxMul (a b : Int) : Int := a * b / fxOne
def fxDiv (a b : Int) : Int := if b = 0 then 0 else a * fxOne / b

/-- n ÷ d with a sign. -/
def fxOf (neg : Bool) (n d : Nat) : Int := (if neg then -(n : Int) else (n : Int)) * fxOne / (d : Int)

/-- Σ x^(2k+1) ÷ (2k+1), the signs alternating where `alt`. -/
def oddSeries (alt : Bool) (terms : Nat) (x : Int) : Int :=
  let sq := fxMul x x
  ((List.range terms).foldl (fun (a : Int × Int) k =>
    let t := a.2 / ((2 * k + 1 : Nat) : Int)
    (if alt && k % 2 == 1 then a.1 - t else a.1 + t, fxMul a.2 sq)) (0, x)).1

/-- ln 2 = 2 artanh (1 ÷ 3). -/
def fxLn2 : Int := 2 * oddSeries false 90 (fxOne / 3)

/-- π by Machin's formula. -/
def fxPi : Int := 16 * oddSeries true 120 (fxOne / 5) - 4 * oddSeries true 60 (fxOne / 239)

/-- Square root of a non-negative number. -/
def trSqrt (a : Int) : Int := ((a.toNat * 2 ^ 256).sqrt : Nat)

/-- e^r for |r| ≤ 1. -/
def expSmall (r : Int) : Int :=
  ((List.range 80).foldl (fun (a : Int × Int) k => (a.1 + a.2, fxMul a.2 r / ((k + 1 : Nat) : Int))) (0, fxOne)).1

/-- e^x as a number m and an exponent: m × 2^k, for |x| ≤ 1000. -/
def fxExp (x : Int) : Int × Int :=
  let k := x / fxLn2
  (expSmall (x - k * fxLn2), k)

/-- e^x in fixed point. -/
def fxExpAt (x : Int) : Int :=
  let (m, k) := fxExp x
  if 0 ≤ k then m * 2 ^ k.toNat else m / 2 ^ (-k).toNat

/-- erf x for |x| ≤ 7. -/
def fxErf (x : Int) : Int :=
  let sq := fxMul x x
  let s := ((List.range 400).foldl (fun (a : Int × Int) k =>
    let t := a.2 / ((2 * k + 1 : Nat) : Int)
    (if k % 2 = 1 then a.1 - t else a.1 + t, fxMul a.2 sq / ((k + 1 : Nat) : Int))) (0, x)).1
  fxDiv (2 * s) (trSqrt fxPi)

/-- A fixed-point number as a value. -/
def fxNum (a : Int) : Num := .fin (decide (a < 0)) a.natAbs (2 ^ 256)

/-! ## The functions on finite, non-zero arguments -/

/-- The magnitude of the argument is above a bound. -/
def above (n d bound : Nat) : Bool := decide (bound * d < n)

/-- f(x), to about 200 binary places; NaN where the function is not defined. -/
def transcValue (op : Nat) (neg : Bool) (n d : Nat) : Num :=
  let x := fxOf neg n d
  match op with
  | 0 =>
    if above n d 1000 then (if neg then .fin false 1 (2 ^ 1400) else .fin false (2 ^ 1400) 1)
    else (let (m, k) := fxExp x; scaled false m.toNat (k - 256))
  | 1 =>
    if neg then .nan
    else
      let e := log2Quot n d
      let (p, q) := overPow n d e
      let m := fxOf false p q
      fxNum (e * fxLn2 + 2 * oddSeries false 90 (fxDiv (m - fxOne) (m + fxOne)))
  | 2 =>
    if neg then .nan
    else
      -- 1 ÷ √(n ÷ d) with 256 significant bits
      let e := log2Quot n d / 2
      let (p, q) := overPow n d (2 * e)
      let r := (q * 2 ^ 512 / p).sqrt
      scaled false r (-256 - e)
  | 3 =>
    if above n d 100 then .fin neg 1 1
    else (let y := fxExpAt (2 * x); fxNum (fxDiv (y - fxOne) (y + fxOne)))
  | 4 =>
    if above n d 1000 then (if neg then .fin false 1 (2 ^ 1400) else .fin false 1 1)
    else
      let (m, k) := fxExp (-x)
      -- 1 ÷ (1 + m × 2^k)
      if 0 ≤ k then .fin false (2 ^ 256) (2 ^ 256 + m.toNat * 2 ^ k.toNat)
      else .fin false (2 ^ 256 * 2 ^ (-k).toNat) (2 ^ 256 * 2 ^ (-k).toNat + m.toNat)
  | _ => if above n d 7 then .fin neg 1 1 else fxNum (fxErf x)

/-- The special inputs of 06 Table 6-8; none for a finite, non-zero argument. -/
def transcSpecial (op : Nat) : Num → Option Num
  | .nan => some .nan
  | .inf neg => some (match op with
    | 0 => if neg then .fin false 0 1 else .inf false
    | 1 => if neg then .nan else .inf false
    | 2 => if neg then .nan else .fin false 0 1
    | 3 => .fin neg 1 1
    | 4 => if neg then .fin false 0 1 else .fin false 1 1
    | _ => .fin neg 1 1)
  | .fin neg n _ =>
    if n = 0 then some (match op with
      | 0 => .fin false 1 1
      | 1 => .inf true
      | 2 => .inf neg
      | 3 => .fin neg 0 1
      | 4 => .fin false 1 2
      | _ => .fin neg 0 1)
    else none

/-- A finite result code lies within the bound of 03 Table 3-10 of a value: 2 ulp or 2^-24 for FP32, 1 ulp for FP16. -/
def withinBound (f : Fmt) (v : Num) (code : Nat) : Bool :=
  match v, decodeNum f code with
  | .fin a n d, .fin b m e =>
    match (Num.fin a n d).sub (Num.fin b m e) with
    | .fin _ p q =>
      let lp := if n = 0 then (1 - (fpBias f.code : Int) - fpMant f.code) else lastPlace f.code n d
      let (p', q') := overPow p q lp
      (if f.code = 0 then decide (p' ≤ 2 * q') || decide (p * 2 ^ 24 ≤ q) else decide (p' ≤ q'))
    | _ => false
  | _, _ => false

/-- The result of a TRANSC stage: `draw` names the free choice within the bound (06 R156). -/
def transcResult (op : Nat) (src f : Fmt) (draw x : Nat) : Coded :=
  match decodeNum src x with
  | .nan => { code := nanCode f }
  | .inf neg => place f f.sat 0 ((transcSpecial op (.inf neg)).getD .nan)
  | .fin neg n d =>
    match transcSpecial op (.fin neg n d) with
    | some v => place f f.sat 0 v
    | none =>
      let v := transcValue op neg n d
      let rounded := place f f.sat 0 v
      let c := Config.transc op f.code x draw % 2 ^ f.width
      if rounded.sats = 0 && rounded.nans = 0 && withinBound f v c then { code := c } else rounded

end Sys2Proof.Machine
end

