-- ==== Sys2Proof/Machine/FleOps.lean ====
section
/-! DEFINITION. The Flow Engine's chain descriptor: its fields, its checks and its stages' arithmetic (06 R143–R167). -/

namespace Sys2Proof.Machine

/-! ## The descriptor (06 Tables 6-2 to 6-5) -/

/-- The extent of dimension k. -/
def flExt (d : List Byte) (k : Nat) : Nat := byteFld d (8 + 4 * k) 4
def flSum (d : List Byte) : Nat := byteFld d 28 4
def flTrig (d : List Byte) : Nat := byteFld d 32 4
def flTrigInc (d : List Byte) : Nat := byteFld d 36 4

/-- Elements of the tensor. -/
def flCount (d : List Byte) : Nat := flExt d 0 * flExt d 1 * flExt d 2 * flExt d 3 * flExt d 4

/-- A constant's format word and its value. -/
def flKWord (d : List Byte) (j : Nat) : Nat := byteFld d (40 + 2 * j) 2
def flKFmt (d : List Byte) (j : Nat) : Fmt := fmtOf (flKWord d j)
def flK (d : List Byte) (j : Nat) : Nat := byteFld d (176 + 8 * j) 8

/-- The fields of stream j. -/
def stOff (j off : Nat) : Nat := 48 + 32 * j + off
def stBase (d : List Byte) (j : Nat) : Nat := byteFld d (stOff j 0) 4
def stWord (d : List Byte) (j : Nat) : Nat := byteFld d (stOff j 4) 2
def stFmt (d : List Byte) (j : Nat) : Fmt := fmtOf (stWord d j)
def stBcast (d : List Byte) (j : Nat) : Nat := byteFld d (stOff j 6) 1
def stCtrl (d : List Byte) (j : Nat) : Nat := byteFld d (stOff j 7) 1
def stScaled (d : List Byte) (j : Nat) : Bool := (stCtrl d j).testBit 0
def stBlock (d : List Byte) (j : Nat) : Nat := let b := bits (stCtrl d j) 1 4; 2 ^ (if b = 0 then 8 else b)
def stStride (d : List Byte) (j k : Nat) : Int := toSigned 32 (byteFld d (stOff j (8 + 4 * k)) 4)
def stScaleAt (d : List Byte) (j : Nat) : Nat := byteFld d (stOff j 28) 4

/-- A stage word's fields. -/
structure Stage where
  kind : Nat
  op   : Nat
  a    : Nat
  b    : Nat
  c    : Nat
  pred : Bool
  word : Nat
  rsvd : Bool
  deriving DecidableEq, Repr

/-- Stage word t. -/
def stageOf (d : List Byte) (t : Nat) : Stage :=
  let w := byteFld d (208 + 6 * t) 6
  { kind := bits w 0 4, op := bits w 8 8, a := bits w 16 4, b := bits w 20 4, c := bits w 24 4, pred := w.testBit 28
    word := bits w 32 16, rsvd := bits w 4 4 != 0 || bits w 29 3 != 0 }

def Stage.fmt (g : Stage) : Fmt := fmtOf g.word

/-- The first slot from the END on whose reserved bits are not zero (06 R166, 00 R17). -/
def endSlotBad (d : List Byte) (gs : List Stage) : Option Nat :=
  (List.range 8).find? fun t => decide (gs.length ≤ t) && (stageOf d t).rsvd

/-- The stages up to the first END (06 R144). -/
def flStages (d : List Byte) : List Stage := ((List.range 8).map (stageOf d)).takeWhile fun g => g.kind != 0

/-- The result format of a stage: the stream's for a LOAD, FP32 for a scaled one, else the stage's own. -/
def stageFmt (d : List Byte) (g : Stage) : Fmt :=
  if g.kind = 1 then (if stScaled d (g.op % 4) then FP32 else stFmt d (g.op % 4)) else g.fmt

/-- The format of a source code (06 Table 6-5). -/
def srcFmt (d : List Byte) (gs : List Stage) (x : Nat) : Fmt :=
  if x ≤ 7 then (match gs[x]? with | some g => stageFmt d g | none => FP32)
  else if x ≤ 11 then flKFmt d (x - 8)
  else plainFmt 8

/-! ## What a stage reads -/

/-- The sources that a stage reads: A, B, C. -/
def Stage.reads (g : Stage) : Bool × Bool × Bool :=
  match g.kind with
  | 2 | 4 => (true, false, false)
  | 3 => if g.op = 6 ∨ g.op = 7 then (true, false, false) else if g.op = 3 then (true, true, true) else (true, true, false)
  | 5 => if g.op = 5 then (true, false, false) else if g.op = 4 ∨ g.op = 6 then (true, true, true) else (true, true, false)
  | 6 | 7 | 8 => (true, g.pred, false)
  | _ => (false, false, false)

/-- A source code of stage t is allowed (06 Table 6-5, R161). -/
def srcOk (d : List Byte) (gs : List Stage) (t x : Nat) (reduceToo : Bool) : Bool :=
  if x ≤ 7 then
    decide (x < t) && (match gs[x]? with
      | some g => (decide (1 ≤ g.kind) && decide (g.kind ≤ 5)) || (reduceToo && g.kind == 6)
      | none => false)
  else if x ≤ 11 then true
  else x == 12 && decide (flCount d ≤ 2_147_483_648)

/-- The operand and result formats of ARITH and CLAMP (06 Table 6-6). -/
def arithOk (f : Fmt) (op : Nat) (srcs : List Fmt) : Bool :=
  if f.code ≤ 1 then decide (op ≤ 7) && srcs.all fun s => decide (s.code ≤ 1)
  else if f.isFx then decide (op ≤ 8) && srcs.all fun s => decide (5 ≤ s.code)
  else if f.isInt then
    (srcs.all fun s => s.isInt) && (if 9 ≤ op then srcs.all fun s => s.code == f.code else true)
  else false

/-- The formats and the operation of a stage agree with R152–R160. -/
def stageFmtsOk (d : List Byte) (gs : List Stage) (g : Stage) : Bool :=
  let fa := srcFmt d gs g.a
  let fb := srcFmt d gs g.b
  let fc := srcFmt d gs g.c
  let f := g.fmt
  match g.kind with
  | 1 => g.word == 0 && decide (g.op ≤ 3)
  | 2 => fmtOk g.word true && g.op == 0
  | 3 =>
    fmtOk g.word true && decide (g.op ≤ 11)
      && arithOk f g.op (if g.op = 6 ∨ g.op = 7 then [fa] else if g.op = 3 then [fa, fb, fc] else [fa, fb])
  | 4 => fmtOk g.word true && decide (g.op ≤ 5) && decide (fa.code ≤ 1) && decide (f.code ≤ 1) && f.rnd == 0
  | 5 =>
    fmtOk g.word true &&
      (if g.op = 4 then f.same fa && f.same fb
       else if g.op = 6 then arithOk f 4 [fa, fb, fc]
       else decide (g.op ≤ 5) && f.code == 10)
  | 6 =>
    fmtOk g.word true && decide (g.op % 8 ≤ 4) && g.op / 8 != 0
      && (if fa.code ≤ 1 then decide (f.code ≤ 1) else decide (5 ≤ fa.code) && decide (5 ≤ f.code))
  | 7 => g.word == 0 && g.op == 0
  | 8 =>
    g.word == 0 && decide (g.op ≤ 3)
      && (if stScaled d (g.op % 4) then decide (fa.code ≤ 1) else fa.same (stFmt d (g.op % 4)))
  | _ => false

/-- Stage t breaks a rule (06 R166). -/
def stageBad (d : List Byte) (gs : List Stage) (t : Nat) (g : Stage) : Bool :=
  let (ra, rb, rc) := g.reads
  let named := (gs.take t).any fun h => (h.kind == 1 || h.kind == 8) && (g.kind == 1 || g.kind == 8) && h.op == g.op
  g.rsvd || decide (8 < g.kind)
    || (g.pred && decide (g.kind < 6))
    || (if ra then !srcOk d gs t g.a (g.kind == 8) else g.a != 15)
    || (if rb then !srcOk d gs t g.b false else g.b != 15)
    || (if rc then !srcOk d gs t g.c false else g.c != 15)
    || !stageFmtsOk d gs g || named
    || (g.kind == 8 && stBcast d (g.op % 4) != 0)
    || (g.kind == 7 && decide (2 ≤ ((gs.take t).filter fun h => h.kind == 7).length))

/-- A stream that a stage names breaks a rule (06 Table 6-3, R149, R152, R166). -/
def streamBad (d : List Byte) (j : Nat) (store : Bool) : Bool :=
  let b := bits (stCtrl d j) 1 4
  let size := (stFmt d j).size
  let sc := stScaled d j
  !(fmtOk (stWord d j) store && decide (stBase d j < 2 ^ 22) && decide (stBcast d j < 32) && decide (stCtrl d j < 32)
    && (b == 0 || (decide (5 ≤ b) && decide (b ≤ 10))) && decide (stScaleAt d j < 2 ^ 22)
    && (if sc then (stFmt d j).isFp8 && stBcast d j == 0 && stScaleAt d j % 4 == 0 else stScaleAt d j == 0)
    && stBase d j % size == 0
    && (List.range 5).all fun k => (stBcast d j).testBit k || byteFld d (stOff j (8 + 4 * k)) 4 % size == 0)

/-- A constant that a stage names breaks a rule. -/
def constBad (d : List Byte) (j : Nat) : Bool := !fmtOk (flKWord d j) false || decide (2 ^ (flKFmt d j).width ≤ flK d j)

/-- The constants that the stages name. -/
def namedConsts (gs : List Stage) : List Nat :=
  (List.range 4).filter fun j => gs.any fun g =>
    let (ra, rb, rc) := g.reads
    (ra && g.a == 8 + j) || (rb && g.b == 8 + j) || (rc && g.c == 8 + j)

/-- A field outside the stage words breaks a rule (06 R166). -/
def flFieldBad (d : List Byte) (gs : List Stage) : Bool :=
  let exts := (List.range 5).map (flExt d)
  (exts.any fun e => e == 0 || decide (16_777_216 < e)) || decide (4_294_967_295 < flCount d)
    || gs.isEmpty || !(gs.any fun g => g.kind == 7 || g.kind == 8)
    || decide (2 ^ 22 ≤ flSum d) || ((gs.any fun g => g.kind == 7) && flSum d % 64 != 0)
    || bits (flTrig d) 17 14 != 0
    || (gs.any fun g => (g.kind == 1 || g.kind == 8) && decide (g.op ≤ 3) && streamBad d g.op (g.kind == 8))
    || (namedConsts gs).any (constBad d)

/-- Stages of each kind in the pool (06 Table 6-1). -/
def poolOf (kind : Nat) : Nat :=
  match kind with
  | 1 | 8 => 4
  | 2 => 3
  | 3 => 4
  | 4 | 5 | 7 => 2
  | _ => 1

/-- Stage t is one more than the pool holds (06 R143). -/
def overPool (gs : List Stage) (t : Nat) (g : Stage) : Bool :=
  let same := fun (h : Stage) => if g.kind = 1 ∨ g.kind = 8 then h.kind == 1 || h.kind == 8 else h.kind == g.kind
  decide (poolOf g.kind ≤ ((gs.take t).filter same).length)

/-! ## Spans (06 R167) -/

/-- Dimensions that a STORE of a REDUCE result takes as 0 (06 R161). -/
def reducedDims (gs : List Stage) (g : Stage) : Nat :=
  if g.kind = 8 ∧ g.a ≤ 7 then (match gs[g.a]? with | some h => if h.kind = 6 then h.op / 8 else 0 | none => 0) else 0

/-- Lowest and one past the highest offset of a stream's elements, the dimensions of `skip` taken as 0. -/
def streamSpan (d : List Byte) (j skip : Nat) : Int × Int :=
  let r := (List.range 5).foldl (fun (a : Int × Int) k =>
    if (stBcast d j).testBit k || skip.testBit k then a
    else
      let e := ((flExt d k - 1 : Nat) : Int) * stStride d j k
      (a.1 + min 0 e, a.2 + max 0 e)) (0, 0)
  (stBase d j + r.1, stBase d j + r.2 + ((stFmt d j).size : Nat))

/-- What a span belongs to. -/
structure Span where
  stage : Nat
  store : Bool
  lo    : Int
  hi    : Int
  /-- The stream of a LOAD or STORE span. -/
  elems : Option Nat := none
  deriving DecidableEq, Repr

/-- The spans of a stage: stream, scale array, summary record. -/
def stageSpans (d : List Byte) (gs : List Stage) (t : Nat) (g : Stage) : List Span :=
  if g.kind = 1 ∨ g.kind = 8 then
    let j := g.op % 4
    let (lo, hi) := streamSpan d j (reducedDims gs g)
    { stage := t, store := g.kind == 8, lo := lo, hi := hi, elems := some j } ::
      (if stScaled d j then
        [{ stage := t, store := g.kind == 8, lo := stScaleAt d j, hi := stScaleAt d j + (4 * ceilDiv (flCount d) (stBlock d j) : Nat) }]
       else [])
  else if g.kind = 7 then
    let k := ((gs.take t).filter fun h => h.kind == 7).length
    [{ stage := t, store := true, lo := flSum d + 64 * k, hi := flSum d + 64 * k + 64 }]
  else []

/-- All spans of a chain. -/
def flSpans (d : List Byte) (gs : List Stage) : List Span := gs.zipIdx.flatMap fun e => stageSpans d gs e.2 e.1

/-- The FLE carve-out of a core (04 R107). -/
def State.flCarve (s : State) (c : Nat) : Nat × Nat :=
  let lo := s.fldAt (.core c) 0x010 0 6 * 65536
  (lo, lo + s.fldAt (.core c) 0x010 8 6 * 65536)

/-- A span leaves the area that it must lie in. -/
def State.spanOut (s : State) (c : Nat) (p : Span) : Bool :=
  let (lo, hi) := s.flCarve c
  if p.store then decide (p.lo < (lo : Int)) || decide ((hi : Int) < p.hi) else decide (p.lo < 0) || decide ((engineEnd : Int) < p.hi)

/-- Two streams name one tensor: an update in place (06 R167). -/
def inPlace (d : List Byte) (p q : Span) : Bool :=
  match p.elems, q.elems with
  | some i, some j =>
    p.store != q.store && stBase d i == stBase d j && stWord d i == stWord d j && stCtrl d i == stCtrl d j
      && stBcast d i == 0 && stBcast d j == 0 && (List.range 5).all fun k => stStride d i k == stStride d j k
  | _, _ => false

/-- Two spans share a byte and are no update in place. -/
def clash (d : List Byte) (p q : Span) : Bool := decide (p.lo < q.hi) && decide (q.lo < p.hi) && !inPlace d p q

/-- The first span that intersects one before it. -/
def firstClash (d : List Byte) : List Span → List Span → Option Nat
  | _, [] => none
  | before, p :: ps => if before.any fun q => clash d q p then some p.stage else firstClash d (before ++ [p]) ps

/-- Why the FLE refuses a descriptor, and FAIL_STAGE, 8 for a field outside the stage words; 0 for none (06 R143, R166, R167). -/
def State.flRefusal (s : State) (c : Nat) (d : List Byte) : Nat × Nat :=
  let gs := flStages d
  let spans := flSpans d gs
  match ((gs.zipIdx.find? fun e => stageBad d gs e.2 e.1).map (·.2)).or (endSlotBad d gs) with
  | some t => (0x01, t)
  | none =>
    if !headerOk 2 d || flFieldBad d gs then (0x01, 8)
    else match gs.zipIdx.find? fun e => overPool gs e.2 e.1 with
      | some e => (0x81, e.2)
      | none => match spans.find? fun p => s.spanOut c p with
        | some p => (0x02, p.stage)
        | none => match firstClash d [] spans with
          | some t => (0x80, t)
          | none => (0, 15)

/-! ## Stage results (06 R152–R157) -/

/-- A value in the chain with its tags, and the events of the stage that gave it (06 R164, R165). -/
structure FlVal where
  code   : Nat := 0
  sat    : Bool := false
  poison : Bool := false
  nans   : Nat := 0
  sats   : Nat := 0
  deriving DecidableEq, Repr

/-- A coded result with the tags of its sources. -/
def FlVal.of (v : Coded) (srcs : List FlVal) : FlVal :=
  { code := v.code, sat := v.sats != 0 || srcs.any FlVal.sat, poison := srcs.any FlVal.poison, nans := v.nans, sats := v.sats }

/-- A predicate is true (06 Table 6-5). -/
def truePred (f : Fmt) (code : Nat) : Bool := let v := decodeNum f code; !v.isNan && !v.isZero

/-- The value of an ARITH operation before rounding (06 Table 6-7). -/
def arithValue (op : Nat) (x y z : Num) : Num :=
  match op with
  | 0 => x.add y
  | 1 => x.sub y
  | 2 => x.mul y
  | 3 => (x.mul y).add z
  | 4 => x.max y
  | 5 => x.min y
  | 6 => x.abs
  | 7 => x.neg
  | _ => if y.isZero then .nan else x.div y

/-- An ARITH stage's result (06 R155). -/
def arithStage (f : Fmt) (op r : Nat) (srcs : List (Fmt × Nat)) : Coded :=
  let n := fun i => match srcs[i]? with | some e => decodeNum e.1 e.2 | none => Num.fin false 0 1
  let code := fun i => (srcs.getD i (FP32, 0)).2
  match op with
  | 9 => { code := code 0 &&& code 1 }
  | 10 => { code := code 0 ||| code 1 }
  | 11 => { code := code 0 ^^^ code 1 }
  | _ => arith f r (srcs.any fun e => (decodeNum e.1 e.2).isNan) (arithValue op (n 0) (n 1) (n 2))

/-- A SELECT/COMPARE stage's result (06 Table 6-9). -/
def selectStage (f : Fmt) (op r : Nat) (a b c : Fmt × Nat) : Coded :=
  let x := decodeNum a.1 a.2
  let y := decodeNum b.1 b.2
  let flag := fun (t : Bool) => ({ code := if t then 1 else 0 } : Coded)
  match op with
  | 0 => flag (x.eq y)
  | 1 => flag (!x.eq y)
  | 2 => flag (x.lt y)
  | 3 => flag (x.le y)
  | 4 => { code := if truePred c.1 c.2 then a.2 else b.2 }
  | 5 => flag x.isNan
  | _ =>
    let z := decodeNum c.1 c.2
    arith f r (x.isNan || y.isNan || z.isNan) ((x.max y).min z)

end Sys2Proof.Machine
end

