-- ==== Sys2Proof/Machine/FleRun.lean ====
section
/-! DEFINITION. The Flow Engine's walk of a tensor: loads, stages, stores, reductions and summaries (06 R144–R171). -/

namespace Sys2Proof.Machine

/-! ## Elements and addresses (06 R145, R149) -/

/-- The index of dimension k of the element with a linear index. -/
def flCoord (d : List Byte) (i k : Nat) : Nat :=
  i / ((List.range k).foldl (fun n j => n * flExt d j) 1) % flExt d k

/-- The node address of a stream's element, the dimensions of `skip` taken as 0. -/
def flAddr (c : Nat) (d : List Byte) (j skip i : Nat) : Nat :=
  let off := (List.range 5).foldl (fun (a : Int) k =>
    if (stBcast d j).testBit k || skip.testBit k then a else a + (flCoord d i k : Nat) * stStride d j k) (stBase d j : Int)
  wellBase c + off.toNat

/-- The linear index of an element with the reduced dimensions taken as 0. -/
def flRep (d : List Byte) (mask i : Nat) : Nat :=
  (List.range 5).foldl (fun n k =>
    if mask.testBit k then n else n + flCoord d i k * (List.range k).foldl (fun m j => m * flExt d j) 1) 0

/-- The vector width (06 R170). -/
def flWidth (d : List Byte) (gs : List Stage) : Nat :=
  let ws := (gs.flatMap fun g =>
      if g.kind = 1 ∨ g.kind = 8 then [(stFmt d (g.op % 4)).width, if g.kind = 1 then (stageFmt d g).width else 0]
      else if g.kind ≤ 6 then [g.fmt.width] else [])
    ++ (namedConsts gs).map fun j => (flKFmt d j).width
  let w := ws.foldl max 0
  if w ≤ 16 then 128 else if w ≤ 32 then 64 else 32

/-- The vectors of the tensor: the linear index of the first element, and the count (06 R145, R150). -/
def flVectors (d : List Byte) (v : Nat) : List (Nat × Nat) :=
  (List.range (flCount d / flExt d 0)).flatMap fun r =>
    (List.range (ceilDiv (flExt d 0) v)).map fun k => (r * flExt d 0 + k * v, min v (flExt d 0 - k * v))

/-! ## The chain on one element (06 R152–R157) -/

/-- The value of a source code for an element, from the results of the earlier stages. -/
def flSource (d : List Byte) (vals : List FlVal) (i x : Nat) : FlVal :=
  if x ≤ 7 then vals.getD x {} else if x ≤ 11 then { code := flK d (x - 8) } else { code := i % 2 ^ 32 }

/-- A LOAD stage's result (06 R152). -/
def State.flLoad (s : State) (c : Nat) (d : List Byte) (j i : Nat) : FlVal :=
  let f := stFmt d j
  let e := s.elemAt (flAddr c d j 0 i) f.size
  if stScaled d j then
    let k := s.elemAt (wellBase c + stScaleAt d j + 4 * (i / stBlock d j)) 4
    let v := widenScaled f FP32 k.code 0 e.code
    FlVal.of v [{ code := e.code, poison := e.poison || k.poison }]
  else { code := e.code, poison := e.poison }

/-- The result of stage t for an element; nothing for a REDUCE, SUMMARY or STORE. -/
def State.flStage (s : State) (c : Nat) (d : List Byte) (gs : List Stage) (i : Nat) (vals : List FlVal) (t : Nat) (g : Stage) :
    FlVal :=
  let (ra, rb, rc) := g.reads
  let a := flSource d vals i g.a
  let b := flSource d vals i g.b
  let z := flSource d vals i g.c
  let fa := srcFmt d gs g.a
  let fb := srcFmt d gs g.b
  let fz := srcFmt d gs g.c
  let srcs := (if ra then [a] else []) ++ (if rb then [b] else []) ++ (if rc then [z] else [])
  let draw := 8 * i + t
  let r := s.draw16 draw
  match g.kind with
  | 1 => s.flLoad c d (g.op % 4) i
  | 2 => FlVal.of (convert fa g.fmt r a.code) srcs
  | 3 => FlVal.of (arithStage g.fmt g.op r
      ((if ra then [(fa, a.code)] else []) ++ (if rb then [(fb, b.code)] else []) ++ (if rc then [(fz, z.code)] else []))) srcs
  | 4 => FlVal.of (transcResult g.op fa g.fmt (s.draws + draw) a.code) srcs
  | 5 => FlVal.of (selectStage g.fmt g.op r (fa, a.code) (fb, b.code) (fz, z.code)) srcs
  | _ => {}

/-- The results of all stages for an element. -/
def State.flElement (s : State) (c : Nat) (d : List Byte) (gs : List Stage) (i : Nat) : List FlVal :=
  gs.zipIdx.foldl (fun (vals : List FlVal) e => vals ++ [s.flStage c d gs i vals e.2 e.1]) []

/-- The predicate of a stage for an element; true without one. -/
def flPred (d : List Byte) (gs : List Stage) (g : Stage) (vals : List FlVal) (i : Nat) : Bool :=
  !g.pred || truePred (srcFmt d gs g.b) (flSource d vals i g.b).code

/-! ## Reductions (06 R158–R161) -/

/-- A contributing element of a REDUCE: its SRC_A value with the tags of every source read for it (06 R164). -/
def flContrib (d : List Byte) (g : Stage) (vals : List FlVal) (i : Nat) : FlVal :=
  let a := flSource d vals i g.a
  let b := flSource d vals i g.b
  if g.pred then { a with sat := a.sat || b.sat, poison := a.poison || b.poison } else a

/-- What a group with no contributing element gives (06 R160). -/
def emptyGroup (f : Fmt) (op : Nat) : Nat :=
  if op = 1 then (if f.isFp then infCode f true else limitCode f true)
  else if op = 2 then (if f.isFp then infCode f false else limitCode f false)
  else 0

/-- The FP32 accumulation of a group's values, squared where `sq` (06 R159). -/
def accumulate (sq : Bool) (xs : List Num) : Num :=
  let step := fun (a x : Num) => decodeNum FP32 (place FP32 true 0 (if sq then a.add (x.mul x) else a.add x)).code
  match xs with
  | [] => .fin false 0 1
  | x :: rest => rest.foldl step (if sq then decodeNum FP32 (place FP32 true 0 (x.mul x)).code else x)

/-- An accumulation that became infinite without an infinite input overflowed: it rounds as a finite value too large for any
format. -/
def overflowed (xs : List Num) (v : Num) : Num :=
  match v with
  | .inf neg => if xs.any Num.isInf then v else .fin neg (2 ^ 300) 1
  | _ => v

/-- The value of a group before its last rounding; `xs` in the order that the engine chose. -/
def groupValue (op : Nat) (fp : Bool) (xs : List Num) : Num :=
  match op with
  | 0 => if fp then overflowed xs (accumulate false xs) else sumNum xs
  | 4 => if fp then overflowed xs (accumulate true xs) else sumNum (xs.map fun x => x.mul x)
  | 1 => (xs.drop 1).foldl Num.max (xs.headD .nan)
  | 2 => (xs.drop 1).foldl Num.min (xs.headD .nan)
  | _ => ((xs.drop 1).map Num.abs).foldl Num.max (xs.headD .nan).abs

/-- The result of a group (06 R158–R160). -/
def reduceGroup (src f : Fmt) (op r : Nat) (vals : List FlVal) : FlVal :=
  if vals.isEmpty then { code := emptyGroup f op }
  else
    let xs := vals.map fun v => decodeNum src v.code
    FlVal.of (arith f r (xs.any Num.isNan) (groupValue op src.isFp xs)) vals

/-! ## Stores (06 R153, R164) -/

/-- An element to be stored: its address and value. -/
structure FlWrite where
  addr : Nat
  val  : FlVal
  deriving DecidableEq, Repr

/-- Write the elements that one vector stores in a well: a line that receives a poisoned element is poisoned, and one written
whole without is clean (06 R164, 04 R511). -/
def State.writeLines (s : State) (size : Nat) (ws : List FlWrite) : State :=
  let s := ws.foldl (fun (s : State) w => s.putBytes w.addr (leBytes size w.val.code)) s
  let lines := (ws.map fun w => w.addr / 64).eraseDups
  lines.foldl (fun (s : State) l =>
    let mine := ws.filter fun w => w.addr / 64 == l
    if mine.any fun w => w.val.poison then s.putPoison (64 * l) true
    else if (List.range 64).all fun b => mine.any fun w => decide (w.addr ≤ 64 * l + b) && decide (64 * l + b < w.addr + size) then
      s.putPoison (64 * l) false
    else s) s

/-- The block scale of element i of a scaled STORE, over its block's values (06 R153); of a REDUCE result, over the groups of the
block's linear indices (log 67). -/
def storeScale (d : List Byte) (j : Nat) (src : Fmt) (val : Nat → FlVal) (i : Nat) : FlVal :=
  let b := stBlock d j
  let ks := (List.range (min b (flCount d - i / b * b))).map fun k => i / b * b + k
  { code := blockScale (stFmt d j).code (ks.map fun k => decodeNum src (val k).code), poison := ks.any fun k => (val k).poison }

/-- What a STORE stage writes for element i: copied, or narrowed with its block's scale. -/
def State.storeVal (s : State) (d : List Byte) (j t : Nat) (src : Fmt) (val : Nat → FlVal) (i : Nat) : FlVal :=
  if stScaled d j then
    FlVal.of (narrowScaled (stFmt d j) (storeScale d j src val i).code (s.draw16 (8 * i + t)) (decodeNum src (val i).code)) [val i]
  else { val i with nans := 0, sats := 0 }

/-- What a chain has counted. -/
structure FlTally where
  nans   : Nat := 0
  sats   : Nat := 0
  deriving DecidableEq, Repr

def FlTally.add (t : FlTally) (vs : List FlVal) : FlTally :=
  { nans := t.nans + sumNat (vs.map FlVal.nans), sats := t.sats + sumNat (vs.map FlVal.sats) }

/-- A STORE stage of element values: its writes vector by vector, then its scales. -/
def State.runStore (s0 : State) (c : Nat) (d : List Byte) (gs : List Stage) (t : Nat) (g : Stage) (vals : Nat → List FlVal)
    (s : State) (tally : FlTally) : State × FlTally :=
  let j := g.op % 4
  let src := srcFmt d gs g.a
  let val := fun i => flSource d (vals i) i g.a
  let size := (stFmt d j).size
  let step := fun (acc : State × FlTally) (v : Nat × Nat) =>
    let is := ((List.range v.2).map fun k => v.1 + k).filter fun i => flPred d gs g (vals i) i
    let out := is.map fun i => s0.storeVal d j t src val i
    let ws := (is.zip out).map fun e => ({ addr := flAddr c d j 0 e.1, val := e.2 } : FlWrite)
    (acc.1.writeLines size ws, acc.2.add out)
  let r := (flVectors d (flWidth d gs)).foldl step (s, tally)
  if stScaled d j then
    ((List.range (ceilDiv (flCount d) (stBlock d j))).foldl (fun (s : State) b =>
      let v := storeScale d j src val (b * stBlock d j)
      s.memWrite (wellBase c + stScaleAt d j + 4 * b) (leBytes 4 v.code) v.poison) r.1, r.2)
  else r

/-- The groups of a REDUCE: the element with the reduced indices 0, and the group's elements in linear order (06 R158). -/
def flGroups (d : List Byte) (mask : Nat) : List (Nat × List Nat) :=
  let all := List.range (flCount d)
  (all.filter fun i => flRep d mask i == i).map fun r => (r, all.filter fun i => flRep d mask i == r)

/-- The result of the group of an element for the REDUCE stage t, in the order that the engine chose (06 R158–R161). -/
def State.groupResult (s0 : State) (d : List Byte) (gs : List Stage) (t : Nat) (h : Stage) (vals : Nat → List FlVal) (rep : Nat) : FlVal :=
  let mine := (List.range (flCount d)).filter fun i => flRep d (h.op / 8) i == rep
  let is := sortBy (fun i => Config.order (s0.draws + rep) i) (mine.filter fun i => flPred d gs h (vals i) i)
  reduceGroup (srcFmt d gs h.a) h.fmt (h.op % 8) (s0.draw16 (8 * rep + t)) (is.map fun i => flContrib d h (vals i) i)

/-- The events of a chain's REDUCE stages: each group's once, whichever STOREs take it (06 R165). -/
def State.reduceEvents (s0 : State) (d : List Byte) (gs : List Stage) (vals : Nat → List FlVal) (tally : FlTally) : FlTally :=
  gs.zipIdx.foldl (fun (tl : FlTally) e =>
    if e.1.kind = 6 then tl.add ((flGroups d (e.1.op / 8)).map fun r => s0.groupResult d gs e.2 e.1 vals r.1) else tl) tally

/-- A STORE of a REDUCE result: one element per group, in the order in which the groups end (06 R161). The predicate of such a
STORE is that of the group's last element. -/
def State.runReduce (s0 : State) (c : Nat) (d : List Byte) (gs : List Stage) (t : Nat) (g h : Stage) (vals : Nat → List FlVal)
    (s : State) (tally : FlTally) : State × FlTally :=
  let mask := h.op / 8
  let groups := sortBy (fun e => e.2.getLastD 0) (flGroups d mask)
  let j := g.op % 4
  let val := fun i => s0.groupResult d gs g.a h vals (flRep d mask i)
  groups.foldl (fun (acc : State × FlTally) e =>
    let last := e.2.getLastD 0
    let v := val e.1
    let tally := acc.2
    if flPred d gs g (vals last) last then
      let o := s0.storeVal d j t h.fmt val e.1
      let s := acc.1.writeLines (stFmt d j).size [{ addr := flAddr c d j mask e.1, val := { o with poison := v.poison } }]
      let s := if stScaled d j then
          let k := storeScale d j h.fmt val e.1
          s.memWrite (wellBase c + stScaleAt d j + 4 * (e.1 / stBlock d j)) (leBytes 4 k.code) k.poison
        else s
      (s, tally.add [o])
    else (acc.1, tally)) (s, tally)

/-! ## Summaries (06 R162, R163) -/

/-- The least index of a list that qualifies; 0xFFFF_FFFF for none. -/
def firstIndex (is : List Nat) (p : Nat → Bool) : Nat := (is.find? p).getD 0xFFFF_FFFF

/-- The MIN, MAX and SUM fields and SUM_SAT over the values that are no NaN. -/
def summaryFields (f : Fmt) (codes : List Nat) (order : Nat → Nat) : Nat × Nat × Nat × Bool :=
  let good := codes.filter fun x => !(decodeNum f x).isNan
  if good.isEmpty then (0, 0, 0, false)
  else if f.isFp then
    let xs := good.map (decodeNum f)
    let picked := (sortBy (fun e => order e.2) xs.zipIdx).map (·.1)
    let fp := fun (v : Num) => (place FP32 true 0 v).code
    (fp ((xs.drop 1).foldl Num.min (xs.headD .nan)), fp ((xs.drop 1).foldl Num.max (xs.headD .nan)), fp (accumulate false picked), false)
  else
    let xs := good.map (toSigned f.width)
    let least := (xs.drop 1).foldl min (xs.headD 0)
    let most := (xs.drop 1).foldl max (xs.headD 0)
    let sum := xs.foldl (· + ·) 0
    let lim : Int := (2 ^ 63 - 1 : Nat)
    (ofSigned 64 least, ofSigned 64 most, ofSigned 64 (max (-lim) (min lim sum)), decide (lim < sum) || decide (sum < -lim))

/-- The sum of an FP SUMMARY becomes NaN from opposite infinities: one NaN event (03 R509). -/
def State.summaryNans (s0 : State) (d : List Byte) (gs : List Stage) (g : Stage) (vals : Nat → List FlVal) : Nat :=
  let f := srcFmt d gs g.a
  let codes := (List.range (flCount d)).map fun i => (flSource d (vals i) i g.a).code
  if f.isFp && (decodeNum FP32 (summaryFields f codes (Config.order s0.draws)).2.2.1).isNan then 1 else 0

/-- A summary record over the first `n` elements (06 Table 6-10), without its SEQ. An element that is a NaN does not count as
saturated, whatever its tag (09 R244, log 74). -/
def State.summaryRecord (s0 : State) (d : List Byte) (gs : List Stage) (g : Stage) (vals : Nat → List FlVal) (n : Nat) : List Byte :=
  let is := List.range n
  let val := fun i => flSource d (vals i) i g.a
  let f := srcFmt d gs g.a
  let isNan := fun i => (decodeNum f (val i).code).isNan
  let isInf := fun i => (decodeNum f (val i).code).isInf
  let (lo, hi, sum, sat) := summaryFields f (is.map fun i => (val i).code) (Config.order s0.draws)
  let empty := is.all isNan
  let pois := is.any fun i => (val i).poison
  let flags := (if sat then 1 else 0) + (if empty then 2 else 0) + (if pois then 4 else 0) + f.code * 2 ^ 4 + f.frac * 2 ^ 8
  let isSat := fun i => (val i).sat && !isNan i
  leBytes 8 n ++ leBytes 4 (sat32 (is.filter isNan).length) ++ leBytes 4 (sat32 (is.filter isSat).length)
    ++ leBytes 4 (sat32 (is.filter isInf).length) ++ leBytes 4 (firstIndex is isNan) ++ leBytes 4 (firstIndex is isSat)
    ++ leBytes 4 (if g.pred then firstIndex is fun i => flPred d gs g (vals i) i else 0xFFFF_FFFF)
    ++ leBytes 8 lo ++ leBytes 8 hi ++ leBytes 8 sum ++ leBytes 4 flags ++ leBytes 4 0

/-! ## Vector cycles (06 R170) -/

/-- The 64-byte lines that a stream's elements of one vector touch. -/
def streamLines (d : List Byte) (resident : Bool) (j first n : Nat) : Nat :=
  let size := (stFmt d j).size
  let a := flAddr 0 d j 0 first
  if resident && decide (flExt d 0 ≤ first) then 0
  else if (stBcast d j).testBit 0 then 1
  else if stStride d j 0 = (size : Nat) then (a + n * size - 1) / 64 - a / 64 + 1
  else n

/-- The lines of a scale array that one vector first touches. -/
def scaleLines (d : List Byte) (j first n : Nat) : Nat :=
  if stScaled d j then
    let line := fun i => (stScaleAt d j + 4 * (i / stBlock d j)) / 64
    line (first + n - 1) - line first + (if first ≠ 0 ∧ line (first - 1) = line first then 0 else 1)
  else 0

/-- Lines that a STORE writes for one vector; of a REDUCE result, those of the groups that end in it. -/
def storeLines (d : List Byte) (gs : List Stage) (g : Stage) (first n : Nat) : Nat :=
  let mask := reducedDims gs g
  let j := g.op % 4
  if mask = 0 then streamLines d false j first n
  else
    let ends := (List.range n).filter fun k =>
      (List.range 5).all fun m => !mask.testBit m || flCoord d (first + k) m + 1 == flExt d m
    let size := (stFmt d j).size
    if stStride d j 0 = (size : Nat) then
      (ends.flatMap fun k => let a := flAddr 0 d j mask (first + k); [a / 64, (a + size - 1) / 64]).eraseDups.length
    else ends.length

/-- Σ c_v of a descriptor. -/
def State.vecCycles (s : State) (c : Nat) (d : List Byte) (gs : List Stage) : Nat :=
  let resident := fun j => s.bitAt (.fle c) 0x00 0 && stBcast d j == 0x1E && decide (flExt d 0 * (stFmt d j).size ≤ 4096)
  sumNat ((flVectors d (flWidth d gs)).map fun v =>
    let lin := sumNat ((gs.filter fun g => g.kind == 1).map fun g =>
      streamLines d (resident (g.op % 4)) (g.op % 4) v.1 v.2 + scaleLines d (g.op % 4) v.1 v.2)
    let lout := sumNat ((gs.filter fun g => g.kind == 8).map fun g => storeLines d gs g v.1 v.2 + scaleLines d (g.op % 4) v.1 v.2)
    max 1 (max (ceilDiv lin 4) (ceilDiv lout 4)))

/-- Add a descriptor's counts while CNT_EN is 1; BUSY and STALL cycles depend on the neighbours and are free values. -/
def State.countFle (s : State) (c : Nat) (d : List Byte) (gs : List Stage) : State :=
  let b : Block := .fle c
  if s.bitAt b 0x00 2 then
    let s := (s.addWrap b 0x20 0 64 (Config.freeWord s.draws).toNat).addWrap b 0x28 0 64 (s.vecCycles c d gs)
    let s := (s.addWrap b 0x30 0 64 (Config.freeWord (s.draws + 1)).toNat).addWrap b 0x38 0 64 (flCount d)
    s.drawnN 2
  else s

/-! ## A descriptor -/

/-- One STORE stage. -/
def State.runStores (s0 : State) (c : Nat) (d : List Byte) (gs : List Stage) (vals : Nat → List FlVal)
    (acc : State × FlTally) (e : Stage × Nat) : State × FlTally :=
  if e.1.kind ≠ 8 then acc
  else match (if e.1.a ≤ 7 then gs[e.1.a]? else none) with
    | some h => if h.kind = 6 then s0.runReduce c d gs e.2 e.1 h vals acc.1 acc.2 else s0.runStore c d gs e.2 e.1 vals acc.1 acc.2
    | none => s0.runStore c d gs e.2 e.1 vals acc.1 acc.2

/-- The summary records over the first `n` elements: the j-th SUMMARY stage's at SUM_ADDR + 64 × j. They are written when the
descriptor ends, with the SEQ of that moment (06 R162, R168). -/
def State.summaries (s0 : State) (c : Nat) (d : List Byte) (gs : List Stage) (vals : Nat → List FlVal) (n : Nat) : List LateWrite :=
  (gs.filter fun g => g.kind == 7).zipIdx.map fun e =>
    { addr := wellBase c + flSum d + 64 * e.2, data := s0.summaryRecord d gs e.1 vals n }

/-- The running FLE descriptors end with ABORTED: their summary records are written with the values reached (06 R168). One that the
engine has not run yet has reached no element (log 73). -/
def State.abortFle (s : State) (c : Nat) : State :=
  (s.queue c 2).running.foldl (fun (s : State) x =>
    if x.done.isSome then s.endSummaries c 2 x
    else if (s.flRefusal c x.desc).1 ≠ 0 then s
    else s.endSummaries c 2 { x with writes := s.summaries c x.desc (flStages x.desc) (fun _ => []) 0 }) s

/-- The FLE runs its current descriptor, or refuses it (06 R143–R168). -/
def State.runFle (s : State) (c : Nat) : State :=
  match (s.queue c 2).current with
  | none => s
  | some x =>
    let d := x.desc
    let (status, stage) := s.flRefusal c d
    if status ≠ 0 then (s.putFld (.fle c) 0x08 16 4 stage).endCurrent c 2 status
    else
      let gs := flStages d
      let vals := fun i => s.flElement c d gs i
      let is := List.range (flCount d)
      let tally : FlTally := is.foldl (fun (t : FlTally) i => t.add (vals i)) {}
      let pois := is.any fun i => (gs.zip (vals i)).any fun e => e.1.kind == 1 && e.2.poison
      let (t, tally) := gs.zipIdx.foldl (s.runStores c d gs vals) (s, tally)
      let tally := s.reduceEvents d gs vals tally
      let nans := tally.nans + sumNat ((gs.filter fun g => g.kind == 7).map fun g => s.summaryNans d gs g vals)
      let t := (t.countEvents (.fle c) 0x18 nans tally.sats).countFle c d gs
      (t.drawnN (8 * flCount d)).endCurrent c 2 (if pois then 0x03 else 0) (s.summaries c d gs vals (flCount d))

/-- The add of a completed chain, after its increment (06 R168). -/
def State.flAdd (s : State) (d : List Byte) : State :=
  if (flTrig d).testBit 31 then s.sendAdd (flTrig d % 2 ^ 17) (flTrigInc d) 1 else s

end Sys2Proof.Machine
end

