-- ==== Sys2Proof/Machine/PowerOps.lean ====
section
/-! DEFINITION. Power modes, their transitions, sleep and wake (01 R27–R37, 18 R473–R486). -/

namespace Sys2Proof.Machine

/-- Arithmetic clock, PD ceiling and VDD_CD of a mode: 0 PERF, 1 BAL, 2 EFF (01 Table 1-4). -/
def modeClock : Nat → Nat
  | 0 => 1200 | 1 => 1000 | _ => 800
def modeCeiling : Nat → Nat
  | 0 => 2600 | 1 => 2200 | _ => 1800
def modeMv : Nat → Nat
  | 0 => 800 | 1 => 720 | _ => 650
/-- Sustained package power of a mode, in mW (01 Table 1-7). -/
def modeLimit : Nat → Nat
  | 0 => 2_000_000 | 1 => 1_450_000 | _ => 1_100_000

/-- Mode in force, transition under way and its target (18 PWR_STATUS). -/
def State.mode (s : State) : Nat := s.fldAt .power 0x000 0 2
def State.inTransition (s : State) : Bool := s.bitAt .power 0x000 2
def State.modeTarget (s : State) : Nat := if s.inTransition then s.fldAt .power 0x000 3 2 else s.mode

/-- The fused trim of CD n (0–3) or the PD (4) added to a voltage (18 R473). -/
def trimmed (n mv : Nat) : Nat := mv + 5 * (Config.trimStep n % 17) - 30

/-- Write the VDD_CD setpoints (18 R473, R474). -/
def State.writeSetpoints (s : State) (mv : Nat → Nat) : State :=
  { s with power := { s.power with
      setpoints := (List.range 4).foldl (fun t n => Tab.set 0 t n (mv n)) s.power.setpoints } }

/-- The CD setpoints of a mode. -/
def State.modeSetpoints (s : State) (m : Nat) : State := s.writeSetpoints fun n => trimmed n (modeMv m)

/-- Start a transition toward a mode (01 R32, 18 R483, R484): a falling clock falls at once, a rising one waits for the
read-backs. -/
def State.startMode (s : State) (m : Nat) : State :=
  let clock := min s.power.clock (modeClock m)
  let ceiling := min s.power.ceiling (modeCeiling m)
  let s := { s with power := { s.power with clock := clock, ceiling := ceiling, waiting := true } }
  ((s.modeSetpoints m).putBit .power 0x000 2 true).putFld .power 0x000 3 2 m

/-- A forced change voids the promise of the engine work whose deadline lies after its mark and whose admission took a higher
clock (01 R36, 18 R483). -/
def State.voidByClock (s : State) (m mark : Nat) : State :=
  s.voidWork fun w => decide (mark < w.deadline) && decide (modeClock m < w.clock)

/-- A forced change to a mode at a mark (01 R36, 15 R403, 18 R483): nothing changes where the mode is already the target. -/
def State.forceMode (s : State) (m mark : Nat) : State :=
  if s.modeTarget = m then s else (s.voidByClock m mark).startMode m

/-- A forced change to EFF: it counts as a protective reaction in the lifetime record (01 R31). -/
def State.protectMode (s : State) (m mark : Nat) : State :=
  if s.modeTarget = m then s else (s.forceMode m mark).lifeAdd 0x0138 4 1

/-- The first multiple of 1 000 ns after now (15 R403). -/
def State.nextMicro (s : State) : Nat := (s.now / 1000 + 1) * 1000

/-- A thermal source forces EFF at the next multiple of 1 000 ns (15 R403): the change waits for that mark. -/
def State.markEff (s : State) : State :=
  if s.modeTarget = 2 then s
  else { s with harbour := { s.harbour with modes := s.harbour.modes ++ [{ value := 2, forced := true, mark := s.nextMicro }] } }

/-- Package power step-down: PERF to BAL, BAL to EFF, and LIMIT_STEP where it has acted (18 R478). -/
def State.stepDown (s : State) : State :=
  if s.modeTarget < 2 then (s.protectMode (s.modeTarget + 1) s.now).putBit .power 0x008 2 true else s

/-- Latest deadline of admitted engine work (01 R35). -/
def State.lastDeadline (s : State) : Nat := (s.work.map (·.deadline)).foldl max 0

/-! ## Schedule entries as power-mode changes (01 R34, R35, 02 R61) -/

def SchedEntry.action (e : SchedEntry) : Nat := fld e.w0 0 8
def SchedEntry.valid (e : SchedEntry) : Bool := bit e.w0 8
def SchedEntry.sForm (e : SchedEntry) : Bool := bit e.w0 9
def SchedEntry.every (e : SchedEntry) : Bool := bit e.w0 10
def SchedEntry.dropLate (e : SchedEntry) : Bool := bit e.w0 11
def SchedEntry.forced (e : SchedEntry) : Bool := bit e.w0 12
/-- STATE: 0 EMPTY, 1 ARMED, 2 FIRED, 3 FIRED_LATE, 4 DROPPED_LATE, 5 MALFORMED, 6 REFUSED, 7 TARGET_OFFLINE. -/
def SchedEntry.state (e : SchedEntry) : Nat := fld e.w0 16 8
def SchedEntry.setState (e : SchedEntry) (v : Nat) : SchedEntry := { e with w0 := setFld e.w0 16 8 v }
def SchedEntry.period (e : SchedEntry) : Nat := fld e.w0 32 32
def SchedEntry.when_ (e : SchedEntry) : Nat := e.w1.toNat
def SchedEntry.wStep (e : SchedEntry) : Nat := fld e.w1 0 32
def SchedEntry.phase (e : SchedEntry) : Nat := fld e.w1 32 32

/-- The step registers in force (02 Table 2-9). -/
def State.stepNo (s : State) : Nat := s.fldAt .tide 0x020 0 32
def State.stepBase (s : State) : Nat := s.regN .tide 0x028
def State.stepNext (s : State) : Nat := s.fldAt .tide 0x030 0 32
def State.stepMark (s : State) : Nat := s.regN .tide 0x038
def State.stepPeriod (s : State) : Nat := s.fldAt .tide 0x040 0 32
def State.stepValid (s : State) : Bool := s.bitAt .tide 0x008 12

/-- The mark of an entry as R61 projects it from the step registers; none where none can be projected. -/
def State.projected (s : State) (e : SchedEntry) : Option Nat :=
  if !e.sForm then some e.when_
  else
    let next := if s.stepMark ≠ 0 then some (s.stepMark + e.phase) else none
    if e.every then
      (if s.stepValid && e.fired != some s.stepNo then some (s.stepBase + e.phase) else next)
    else if s.stepValid && s.stepNo == e.wStep then some (s.stepBase + e.phase)
    else if s.stepMark ≠ 0 ∧ reached32 e.wStep s.stepNext ∧ (s.stepPeriod ≠ 0 ∨ e.wStep = s.stepNext) then
      some (s.stepMark + diff32 e.wStep s.stepNext * s.stepPeriod + e.phase)
    else none
where
  diff32 (a b : Nat) : Nat := (a + 2 ^ 32 - b % 2 ^ 32) % 2 ^ 32

/-- The scheduled power-mode changes: mark and mode, from accepted commands and ARMED entries other than one (01 R34); an
entry whose mark cannot be projected counts from now. A change that a thermal source forces has no command. -/
def State.modeMarks (s : State) (skip : Option Nat) : List (Nat × Nat) :=
  ((s.harbour.modes.filter fun m => !m.msg.isEmpty).map fun m => (m.mark, m.value)) ++
    ((s.sched.filter fun e => e.2.state == 1 && e.2.action == 4 && some e.1 != skip).map fun e =>
      ((s.projected e.2).getD s.now, fld e.2.w2 0 8))

/-- The lowest arithmetic clock in force or scheduled up to a deadline (01 R34). -/
def State.lowestClock (s : State) (deadline : Nat) : Nat :=
  ((s.modeMarks none).filter fun e => decide (e.1 ≤ deadline)).foldl (fun c e => min c (modeClock e.2))
    (min s.power.clock (modeClock s.modeTarget))

/-- The arithmetic clock that will be in force just before a mark (01 R35). -/
def State.clockBefore (s : State) (mark : Nat) (skip : Option Nat) : Nat :=
  let l := sortBy (fun e => e.1) ((s.modeMarks skip).filter fun e => decide (e.1 < mark))
  match l.getLast? with
  | some e => modeClock e.2
  | none => modeClock s.modeTarget

/-- A change is refused under R35. -/
def State.modeRefused (s : State) (m mark : Nat) (skip : Option Nat) : Bool :=
  decide (modeClock m < s.clockBefore mark skip) && decide (mark < s.lastDeadline)

/-- The change would set the clock below what the admission of work with a later deadline took (02 R64). -/
def State.modeHurts (s : State) (m : Nat) : Bool :=
  s.work.any fun w => decide (s.now < w.deadline) && decide (modeClock m < w.clock)

/-- PWR_BRAKE_N is low and the change is to a higher clock (18 R481). -/
def State.brakeBlocks (s : State) (m : Nat) : Bool := !s.power.brakeN && decide (modeClock s.modeTarget < modeClock m)

/-! ## Sleep (01 Table 1-9, 11 R287, 18 R485) -/

/-- The UP ports go into HOLD, or the HOLD ports back to UP (11 R287). -/
def State.holdPorts (s : State) (hold : Bool) : State :=
  allPorts.foldl (fun s p =>
    if hold && s.portState p == 2 then s.setPortState p 3
    else if !hold && s.portState p == 3 then s.setPortState p 2 else s) s

/-- Enter DOZE (18 R485). -/
def State.enterDoze (s : State) : State :=
  let s := (s.holdPorts true).writeSetpoints fun _ => 550
  { s with power := { s.power with depth := 2 } }

/-- A wake returns the node from IDLE or DOZE to awake; from DOZE with the brake on, in EFF (01 Table 1-9, 18 R485). -/
def State.wakeNode (s : State) : State :=
  if s.power.depth = 1 then { s with power := { s.power with depth := 0 } }
  else if s.power.depth = 2 then
    let s := (s.holdPorts false).modeSetpoints s.modeTarget
    let s := { s with power := { s.power with depth := 0 }, acc := [], accPoison := [] }
    if s.power.brakeN then s else s.protectMode 2 s.now
  else s

/-- A comparator wakes the node: from DEEP once SLP_DEEP_N has been low for its 30 ms (02 R65, R66, 18 R486). -/
def State.wakeFrom (s : State) : State :=
  if s.power.depth = 3 then { s with power := { s.power with wakeHeld := true } } else s.wakeNode

end Sys2Proof.Machine
end

