-- ==== Sys2Proof/Machine/SvMath.lean ====
section
/-! DEFINITION. The solver's arithmetic: one problem of each method, exactly, rounded as chapter 08 says (08 R215–R222). -/

namespace Sys2Proof.Machine

/-! ## Values -/

/-- An FX64 code as a value at `f` fraction bits; the codes here are never FX-NaN. -/
def fxv (f code : Nat) : Num :=
  let i := toSigned 64 code
  .fin (decide (i < 0)) i.natAbs (2 ^ f)

/-- The FX-NaN code of FX64 (03 R80). -/
def fxNan : Nat := 2 ^ 63

/-- A value rounded once into FX64 at a FRAC, with its saturation event (08 R215). -/
def fxRound (rnd f : Nat) (v : Num) : Coded :=
  match v with
  | .fin neg n d => roundFx { code := 5, frac := f, rnd := rnd, sat := true } 0 neg n d
  | .inf neg => { code := limitCode { code := 5, frac := f, rnd := rnd, sat := true } neg, sats := 1 }
  | .nan => { code := 0 }

/-- The internal form: 64 significant bits, unbounded exponent, RNE (08 R215). -/
def internal (v : Num) : Num :=
  match v with
  | .fin neg n d =>
    if n = 0 then .fin false 0 1
    else
      let lp := log2Quot n d - 63
      let nd := overPow n d lp
      scaled neg (roundNat 0 0 nd.1 nd.2) lp
  | v => v

/-- ⌊√n⌋, bit by bit from the highest. -/
def isqrtFrom (n : Nat) : Nat → Nat → Nat
  | 0, r => r
  | k + 1, r => let t := r + 2 ^ k; isqrtFrom n k (if t * t ≤ n then t else r)

def isqrt (n : Nat) : Nat := isqrtFrom n (n.log2 / 2 + 1) 0

/-- 1 ÷ √v in the internal form, from 68 or more bits and a sticky bit. -/
def internalRsqrt (v : Num) : Num :=
  match v with
  | .fin _ n d =>
    let k := 72 + (n.log2 - d.log2) / 2
    let q := d * 4 ^ k
    let s := isqrt (q / n)
    internal (if s * s * n = q then .fin false s (2 ^ k) else .fin false (2 * s + 1) (2 ^ (k + 1)))
  | v => v

/-- √v rounded once at `f` fraction bits. -/
def fxSqrt (rnd f : Nat) (v : Num) : Nat :=
  match v with
  | .fin _ n d =>
    let q := n * 4 ^ f / d
    let s := isqrt q
    if rnd ≠ 2 ∧ s * s + s < q then s + 1 else s
  | _ => 0

/-- The magnitude of an FX64 code. -/
def fxAbs (code : Nat) : Nat := (toSigned 64 code).natAbs

/-- Vectors of codes. -/
def at_ (v : List Nat) (i : Nat) : Nat := v.getD i 0

/-- The sum over a range of exact products. -/
def dotRange (n : Nat) (f : Nat → Num) : Num := (List.range n).foldl (fun a i => a.add (f i)) (.fin false 0 1)

/-- A list of coded values: the codes, and the saturation events. -/
def codesOf (l : List Coded) : List Nat := l.map (·.code)
def satsOf (l : List Coded) : Nat := sumNat (l.map (·.sats))

/-! ## A problem -/

/-- A problem as the feed loads it (08 R210): `rows` holds each row of A as (column, code). -/
structure Problem where
  fa   : Nat
  fx   : Nat
  tol  : Nat
  rows : List (List (Nat × Nat))
  b    : List Nat
  x0   : List Nat := []
  deriving DecidableEq, Repr

/-- Row i of A times a vector of codes. -/
def Problem.rowDot (p : Problem) (row : List (Nat × Nat)) (x : List Nat) : Num :=
  row.foldl (fun a e => a.add ((fxv p.fa e.2).mul (fxv p.fx (at_ x e.1)))) (.fin false 0 1)

/-- A x, each element rounded once to FRAC_X. -/
def Problem.times (p : Problem) (rnd : Nat) (x : List Nat) : List Coded :=
  p.rows.map fun row => fxRound rnd p.fx (p.rowDot row x)

/-- The residual vector b − A x (08 R218). -/
def Problem.residual (p : Problem) (rnd : Nat) (x : List Nat) : List Coded :=
  p.rows.zipIdx.map fun r => fxRound rnd p.fx ((fxv p.fx (at_ p.b r.2)).sub (p.rowDot r.1 x))

/-- RESID: the largest magnitude of a residual vector. -/
def residMax (r : List Nat) : Nat := (r.map fxAbs).foldl max 0

/-- What a problem that is not solved, or has no solution, gives (08 R211, R217, Table 8-7). -/
def illPosed (flags nx sats pivot : Nat) (unsolved : Bool) : Solved :=
  { status := 4, flags := flags ||| (if sats = 0 then 0 else 1), resid := fxNan, sats := sat32 sats, pivot := pivot
    x := List.replicate nx fxNan, unsolved := unsolved }

/-- The end of a direct solve: the residual check and the status (08 R219, Table 8-6). -/
def directEnd (p : Problem) (rnd : Nat) (check : Bool) (x : List Nat) (sats pivot : Nat) : Solved :=
  if check || sats != 0 then
    let r := p.residual rnd x
    let all := sats + satsOf r
    let resid := residMax (codesOf r)
    let met := decide (resid ≤ p.tol)
    { status := if met then (if all = 0 then 1 else 3) else 2, flags := 2 + (if all = 0 then 0 else 1), resid := resid
      sats := sat32 all, pivot := pivot, x := x }
  else { status := 1, pivot := pivot, x := x }

/-! ## LU with partial pivoting (08 R215, R216) -/

/-- The state of an elimination: rows of A, the right-hand side, the pivot reciprocals, the rows taken as pivots, saturations, the least
pivot. -/
structure Elim where
  a    : List (List Nat)
  b    : List Nat
  rs   : List Num := []
  pivs : List Nat := []
  sats : Nat := 0
  pmin : Option Nat := none
  zero : Bool := false
  deriving DecidableEq, Repr

/-- The lowest row from k on whose entry in column k has the largest magnitude. -/
def pivotRow (a : List (List Nat)) (n k : Nat) : Nat :=
  (List.range (n - k)).foldl (fun best i =>
    if fxAbs (at_ (a.getD best []) k) < fxAbs (at_ (a.getD (k + i) []) k) then k + i else best) k

/-- Exchange two elements. -/
def swapAt {α : Type} (d : α) (l : List α) (i j : Nat) : List α := setAt (setAt l i (l.getD j d)) j (l.getD i d)

/-- One elimination step of LU. -/
def luStep (rnd fa fx n : Nat) (e : Elim) (k : Nat) : Elim :=
  if e.zero then e
  else
    let q := pivotRow e.a n k
    let piv := at_ (e.a.getD q []) k
    let pmin := match e.pmin with | some m => min m (fxAbs piv) | none => fxAbs piv
    if piv % 2 ^ 64 = 0 then { e with zero := true, pmin := some 0, pivs := e.pivs ++ [q] }
    else
      let a := swapAt [] e.a k q
      let b := swapAt 0 e.b k q
      let r := internal ((Num.fin false 1 1).div (fxv fa piv))
      let top := a.getD k []
      let step := (List.range n).map fun i =>
        let row := a.getD i []
        if i ≤ k then ((row, at_ b i), 0)
        else
          let l := fxRound rnd 62 ((fxv fa (at_ row k)).mul r)
          let new := (List.range n).map fun j =>
            if j ≤ k then { code := at_ row j : Coded }
            else fxRound rnd fa ((fxv fa (at_ row j)).sub ((fxv 62 l.code).mul (fxv fa (at_ top j))))
          let nb := fxRound rnd fx ((fxv fx (at_ b i)).sub ((fxv 62 l.code).mul (fxv fx (at_ b k))))
          ((codesOf new, nb.code), satsOf new + nb.sats + l.sats)
      { a := step.map (·.1.1), b := step.map (·.1.2), rs := e.rs ++ [r], pivs := e.pivs ++ [q]
        sats := e.sats + sumNat (step.map (·.2)), pmin := some pmin }

/-- One element of a backward substitution: x_i from the elements after it, one rounding (08 R215). -/
def backStep (rnd fa fx n : Nat) (rowOf : Nat → Nat → Nat) (b : List Nat) (rs : List Num) (acc : List Nat × Nat) (i : Nat) :
    List Nat × Nat :=
  let s := dotRange (n - 1 - i) fun j => (fxv fa (rowOf i (i + 1 + j))).mul (fxv fx (at_ acc.1 (i + 1 + j)))
  let c := fxRound rnd fx (((fxv fx (at_ b i)).sub s).mul (rs.getD i (.fin false 0 1)))
  (setAt acc.1 i c.code, acc.2 + c.sats)

/-- A list as a vector of 64 entries. -/
def vec64 {α : Type} (d : α) (l : List α) : List α := (List.range 64).map fun i => l.getD i d

/-- The steps of a direct solve: the state that each of them leaves, the last one last. -/
def stepStates {α : Type} (f : α → Nat → α) (init : α) (n : Nat) : List α :=
  (List.range n).foldl (fun l k => l ++ [f (l.getLast?.getD init) k]) []

/-- LU (08 Table 8-1, method 1). -/
def solveLu (p : Problem) (rnd n : Nat) (check : Bool) : Solved :=
  let start : Elim := { a := p.rows.map fun row => row.map (·.2), b := p.b }
  let states := stepStates (luStep rnd p.fa p.fx n) start n
  let e := states.getLast?.getD start
  let steps := states.map fun t => (t.sats, t.pmin.getD 0)
  let image := (List.range n).flatMap fun j => (List.range n).map fun i => at_ (e.a.getD i []) j
  let regs := fun (x : List Nat) =>
    ({ v0 := vec64 0 ((List.range n).map fun i => at_ (e.a.getD i []) (n - 1)), v1 := vec64 0 x
       v2 := vec64 (.fin false 0 1) e.rs, v3 := vec64 0 p.b, pivots := vec64 0 e.pivs } : LaneRegs)
  if e.zero then { illPosed 0 n e.sats 0 false with steps := steps, image := image, regs := regs e.b }
  else
    let (x, sats) := (List.range n).reverse.foldl
      (backStep rnd p.fa p.fx n (fun i j => at_ (e.a.getD i []) j) e.b e.rs) (List.replicate n 0, e.sats)
    { directEnd p rnd check x sats (e.pmin.getD 0) with
      steps := steps ++ [(sats, e.pmin.getD 0)], image := image, regs := regs x }

/-! ## Cholesky (08 R215, R216) -/

/-- The factor so far: its columns (entries by row), the reciprocal roots, saturations, the least diagonal. -/
structure Chol where
  l    : List (List Nat) := []
  rs   : List Num := []
  sats : Nat := 0
  pmin : Option Nat := none
  bad  : Bool := false
  deriving DecidableEq, Repr

/-- Column j of the factor: each element from the columns before it, one rounding. -/
def cholStep (rnd fa n : Nat) (entry : Nat → Nat → Nat) (c : Chol) (j : Nat) : Chol :=
  if c.bad then c
  else
    let lik := fun i k => fxv fa (at_ (c.l.getD k []) i)
    let d := fxRound rnd fa ((fxv fa (entry j j)).sub (dotRange j fun k => (lik j k).mul (lik j k)))
    if toSigned 64 d.code ≤ 0 then { c with bad := true, sats := c.sats + d.sats }
    else
      let r := internalRsqrt (fxv fa d.code)
      let diag := fxSqrt rnd fa (fxv fa d.code)
      let col := (List.range n).map fun i =>
        if i < j then { code := 0 : Coded }
        else if i = j then { code := diag : Coded }
        else fxRound rnd fa (((fxv fa (entry i j)).sub (dotRange j fun k => (lik i k).mul (lik j k))).mul r)
      { c with l := c.l ++ [codesOf col], rs := c.rs ++ [r], sats := c.sats + d.sats + satsOf col
               pmin := some (match c.pmin with | some m => min m diag | none => diag) }

/-- One element of a forward substitution. -/
def forwardStep (rnd fa fx : Nat) (entry : Nat → Nat → Nat) (b : List Nat) (rs : List Num) (acc : List Nat × Nat) (i : Nat) :
    List Nat × Nat :=
  let s := dotRange i fun k => (fxv fa (entry i k)).mul (fxv fx (at_ acc.1 k))
  let c := fxRound rnd fx (((fxv fx (at_ b i)).sub s).mul (rs.getD i (.fin false 0 1)))
  (acc.1 ++ [c.code], acc.2 + c.sats)

/-- Cholesky (08 Table 8-1, method 2); the rows hold the whole symmetric matrix. -/
def solveChol (p : Problem) (rnd n : Nat) (check : Bool) : Solved :=
  let entry := fun i j => ((p.rows.getD i []).getD j (0, 0)).2
  let states := stepStates (cholStep rnd p.fa n entry) {} n
  let c := states.getLast?.getD {}
  let steps := states.map fun t => (t.sats, t.pmin.getD 0)
  let image := (List.range n).flatMap fun j => ((List.range n).drop j).map fun i =>
    if j < c.l.length then at_ (c.l.getD j []) i else entry i j
  let regs := fun (x : List Nat) =>
    ({ v0 := vec64 0 (c.l.getLast?.getD []), v1 := vec64 0 x, v2 := vec64 (.fin false 0 1) c.rs, v3 := vec64 0 p.b } : LaneRegs)
  if c.bad then { illPosed 0 n c.sats (c.pmin.getD 0) false with steps := steps, image := image, regs := regs p.b }
  else
    let l := fun i k => at_ (c.l.getD k []) i
    let (y, s1) := (List.range n).foldl (forwardStep rnd p.fa p.fx l p.b c.rs) ([], c.sats)
    let (x, s2) := (List.range n).reverse.foldl (backStep rnd p.fa p.fx n (fun i j => l j i) y c.rs) (List.replicate n 0, s1)
    { directEnd p rnd check x s2 (c.pmin.getD 0) with steps := steps ++ [(s2, c.pmin.getD 0)], image := image, regs := regs x }

/-! ## Block-tridiagonal (08 R215, R216) -/

/-- An entry of a 4 × 4 block, which is its rows of exact values. -/
def entry4 (m : List (List Num)) (i j : Nat) : Num := (m.getD i []).getD j (.fin false 0 1)

/-- One step of an exact inversion by partial pivoting: the pair (M, inverse so far), the least pivot. -/
def invStep (st : List (List Num) × List (List Num) × List Num × Bool) (k : Nat) :
    List (List Num) × List (List Num) × List Num × Bool :=
  let (m, v, pivs, bad) := st
  if bad then st
  else
    let q := (List.range (4 - k)).foldl (fun best i =>
      if (entry4 m best k).abs.lt (entry4 m (k + i) k).abs then k + i else best) k
    let piv := entry4 m q k
    if piv.isZero then (m, v, pivs ++ [piv], true)
    else
      let m := swapAt [] m k q
      let v := swapAt [] v k q
      let mk := (m.getD k []).map fun x => x.div piv
      let vk := (v.getD k []).map fun x => x.div piv
      let elim := fun (rows : List (List Num)) (rk : List Num) => (List.range 4).map fun i =>
        if i = k then rk
        else (List.range 4).map fun j => (entry4 rows i j).sub ((entry4 m i k).mul (rk.getD j (.fin false 0 1)))
      (elim m mk, elim v vk, pivs ++ [piv.abs], false)

/-- The identity block. -/
def block1 : List (List Num) :=
  (List.range 4).map fun i => (List.range 4).map fun j => .fin false (if i = j then 1 else 0) 1

/-- The inverse of a block in the internal form and its pivots; none where a pivot is zero. -/
def blockInv (m : List (List Num)) : Option (List (List Num)) × List Num :=
  let (_, v, pivs, bad) := (List.range 4).foldl invStep (m, block1, [], false)
  (if bad then none else some (v.map fun r => r.map internal), pivs)

/-- The product of a block and a vector. -/
def blockVec (m : List (List Num)) (x : List Num) : List Num :=
  (List.range 4).map fun i => dotRange 4 fun j => (entry4 m i j).mul (x.getD j (.fin false 0 1))

/-- The product of two blocks. -/
def blockMul (a b : List (List Num)) : List (List Num) :=
  (List.range 4).map fun i => (List.range 4).map fun j => dotRange 4 fun k => (entry4 a i k).mul (entry4 b k j)

/-- The elimination so far: the inverses, the right-hand sides, saturations, the pivots, ILL_POSED. -/
structure Tri where
  inv  : List (List (List Num)) := []
  b    : List (List Nat) := []
  sats : Nat := 0
  pmin : Option Num := none
  bad  : Bool := false
  deriving DecidableEq, Repr

/-- A block of a problem: column-major codes at 16 × index. -/
def blockAtCodes (fa : Nat) (l : List Nat) (i : Nat) : List (List Num) :=
  (List.range 4).map fun r => (List.range 4).map fun c => fxv fa (at_ l (16 * i + 4 * c + r))

/-- One block row: its diagonal block and right-hand side less what the row before gives, each element rounded once. -/
def triStep (rnd fa fx : Nat) (d e f b : List Nat) (t : Tri) (i : Nat) : Tri :=
  if t.bad then t
  else
    let prev := t.inv.getD (i - 1) []
    let ei := blockAtCodes fa e i
    let m := if i = 0 then [] else blockMul ei prev
    let cross := if i = 0 then [] else blockMul m (blockAtCodes fa f (i - 1))
    let diag := (List.range 4).map fun r => (List.range 4).map fun c =>
      let v := entry4 (blockAtCodes fa d i) r c
      if i = 0 then { code := at_ d (4 * c + r) : Coded } else fxRound rnd fa (v.sub (entry4 cross r c))
    let shift := if i = 0 then [] else blockVec m ((t.b.getD (i - 1) []).map (fxv fx))
    let rhs := (List.range 4).map fun r =>
      let v := at_ b (4 * i + r)
      if i = 0 then { code := v : Coded } else fxRound rnd fx ((fxv fx v).sub (shift.getD r (.fin false 0 1)))
    let (inv, pivs) := blockInv (diag.map fun r => r.map fun c => fxv fa c.code)
    let pmin := pivs.foldl (fun a p => match a with | some x => some (if p.lt x then p else x) | none => some p) t.pmin
    let sats := t.sats + satsOf diag.flatten + satsOf rhs
    match inv with
    | none => { t with bad := true, sats := sats, pmin := pmin }
    | some v => { inv := t.inv ++ [v], b := t.b ++ [codesOf rhs], sats := sats, pmin := pmin }

/-- One block of the backward substitution. -/
def triBack (rnd fa fx n : Nat) (f : List Nat) (t : Tri) (acc : List (List Nat) × Nat) (i : Nat) : List (List Nat) × Nat :=
  let next := (acc.1.headD []).map (fxv fx)
  let cross := if i + 1 = n then [] else blockVec (blockAtCodes fa f i) next
  let rhs := (List.range 4).map fun r => (fxv fx (at_ (t.b.getD i []) r)).sub (cross.getD r (.fin false 0 1))
  let x := (blockVec (t.inv.getD i []) rhs).map (fxRound rnd fx)
  (codesOf x :: acc.1, acc.2 + satsOf x)

/-- Block-tridiagonal (08 Table 8-1, method 3). -/
def solveTri (p : Problem) (rnd n : Nat) (check : Bool) (d e f : List Nat) : Solved :=
  let states := stepStates (triStep rnd p.fa p.fx d e f p.b) {} n
  let t := states.getLast?.getD {}
  let least := fun (t : Tri) => match t.pmin with | some v => (fxRound rnd p.fa v).code | none => 0
  let steps := states.map fun t => (t.sats, least t)
  let blocks := d ++ e ++ f
  if t.bad then { illPosed 0 (4 * n) t.sats (least t) false with steps := steps, image := blocks ++ p.b }
  else
    let (x, sats) := (List.range n).reverse.foldl (triBack rnd p.fa p.fx n f t) ([], t.sats)
    { directEnd p rnd check x.flatten sats (least t) with steps := steps ++ [(sats, least t)], image := blocks ++ x.flatten }

/-! ## Iterative methods (08 R218–R222) -/

/-- An iteration in progress: the iterate, its residual vector, the vectors and scalars of the method. -/
structure Iter where
  x    : List Nat
  r    : List Nat
  sats : Nat
  p    : List Nat := []
  v    : List Nat := []
  rho  : Num := .fin false 1 1
  alpha : Num := .fin false 1 1
  omega : Num := .fin false 1 1
  broken : Bool := false
  deriving DecidableEq, Repr

/-- The exact dot product of two vectors at FRAC_X. -/
def dotFx (fx : Nat) (a b : List Nat) : Num := (a.zip b).foldl (fun s e => s.add ((fxv fx e.1).mul (fxv fx e.2))) (.fin false 0 1)

/-- A vector made element by element, each value rounded once. -/
def vecOf (rnd fx n : Nat) (f : Nat → Num) : List Coded := (List.range n).map fun i => fxRound rnd fx (f i)

/-- A new iterate with its true residual (08 R218). -/
def Problem.moved (q : Problem) (rnd : Nat) (it : Iter) (x : List Coded) (more : Nat) : Iter :=
  let r := q.residual rnd (codesOf x)
  { it with x := codesOf x, r := codesOf r, sats := it.sats + satsOf x + satsOf r + more }

/-- The diagonal reciprocals of Jacobi and SGS; none where a row stores no diagonal entry or a zero (08 R215, R216). -/
def Problem.diagonals (q : Problem) : Option (List Num) :=
  q.rows.zipIdx.foldl (fun acc r =>
    match acc, r.1.find? (fun e => e.1 == r.2) with
    | some l, some e => if e.2 % 2 ^ 64 = 0 then none else some (l ++ [internal ((Num.fin false 1 1).div (fxv q.fa e.2))])
    | _, _ => none) (some [])

/-- One element of Jacobi or SGS: the right-hand side less the other products, times the reciprocal (08 R215). -/
def Problem.relax (q : Problem) (rnd : Nat) (dinv : List Num) (x : List Nat) (i : Nat) : Coded :=
  let row := (q.rows.getD i []).filter fun e => e.1 != i
  fxRound rnd q.fx (((fxv q.fx (at_ q.b i)).sub (q.rowDot row x)).mul (dinv.getD i (.fin false 0 1)))

def Problem.jacobi (q : Problem) (rnd n : Nat) (dinv : List Num) (it : Iter) : Iter :=
  q.moved rnd it ((List.range n).map fun i => q.relax rnd dinv it.x i) 0

/-- One sweep of SGS in an order of the elements. -/
def Problem.sweep (q : Problem) (rnd : Nat) (dinv : List Num) (acc : List Nat × Nat) (order : List Nat) : List Nat × Nat :=
  order.foldl (fun a i => let c := q.relax rnd dinv a.1 i; (setAt a.1 i c.code, a.2 + c.sats)) acc

def Problem.sgs (q : Problem) (rnd n : Nat) (dinv : List Num) (it : Iter) : Iter :=
  let (x, s) := q.sweep rnd dinv (q.sweep rnd dinv (it.x, 0) (List.range n)) (List.range n).reverse
  q.moved rnd it (x.map fun c => { code := c }) s

/-- CG: it breaks down when pᵀAp ≤ 0 (08 R221). -/
def Problem.cg (q : Problem) (rnd n : Nat) (it : Iter) : Iter :=
  let f := q.fx
  let rho := internal (dotFx f it.r it.r)
  let beta := internal (rho.div it.rho)
  let p := if it.p.isEmpty then it.r.map (fun c => ({ code := c } : Coded))
    else vecOf rnd f n fun i => (fxv f (at_ it.r i)).add (beta.mul (fxv f (at_ it.p i)))
  let ap := q.times rnd (codesOf p)
  let pap := dotFx f (codesOf p) (codesOf ap)
  if pap.le (.fin false 0 1) then { it with broken := true, sats := it.sats + satsOf p + satsOf ap }
  else
    let alpha := internal (rho.div pap)
    let x := vecOf rnd f n fun i => (fxv f (at_ it.x i)).add (alpha.mul (fxv f (at_ (codesOf p) i)))
    q.moved rnd { it with p := codesOf p, rho := rho } x (satsOf p + satsOf ap)

/-- BiCGStab with the shadow residual r̂ of the initial guess: it breaks down when ρ or ω becomes zero (08 R221). The spec
states no α where r̂ᵀv is zero: `free` stands for it. -/
def Problem.bicg (q : Problem) (rnd n : Nat) (shadow : List Nat) (free : Num) (it : Iter) : Iter :=
  let f := q.fx
  let rho := internal (dotFx f shadow it.r)
  if rho.isZero then { it with broken := true }
  else
    let beta := internal ((rho.div it.rho).mul (it.alpha.div it.omega))
    let p := if it.p.isEmpty then it.r.map (fun c => ({ code := c } : Coded))
      else vecOf rnd f n fun i => (fxv f (at_ it.r i)).add
        (beta.mul ((fxv f (at_ it.p i)).sub (it.omega.mul (fxv f (at_ it.v i)))))
    let v := q.times rnd (codesOf p)
    let rv := dotFx f shadow (codesOf v)
    let alpha := if rv.isZero then free else internal (rho.div rv)
    let s := vecOf rnd f n fun i => (fxv f (at_ it.r i)).sub (alpha.mul (fxv f (at_ (codesOf v) i)))
    let t := q.times rnd (codesOf s)
    let ts := dotFx f (codesOf t) (codesOf s)
    let more := satsOf p + satsOf v + satsOf s + satsOf t
    if ts.isZero then { it with broken := true, sats := it.sats + more }
    else
      let omega := internal (ts.div (dotFx f (codesOf t) (codesOf t)))
      let x := vecOf rnd f n fun i => ((fxv f (at_ it.x i)).add (alpha.mul (fxv f (at_ (codesOf p) i)))).add
        (omega.mul (fxv f (at_ (codesOf s) i)))
      q.moved rnd { it with p := codesOf p, v := codesOf v, rho := rho, alpha := alpha, omega := omega } x more

/-- Iterate until the residual test is met, the cap is reached or the method breaks down (08 R222); the iterates of the trail
are in order. -/
def iterate (step : Iter → Iter) (tol : Nat) : Nat → Iter → List Iterate → List Iterate × Bool × Nat
  | 0, it, trail => (trail, false, it.sats)
  | cap + 1, it, trail =>
    if residMax it.r ≤ tol then (trail, false, it.sats)
    else
      let next := step it
      if next.broken then (trail, true, next.sats)
      else iterate step tol cap next (trail ++ [{ resid := residMax next.r, sats := next.sats, x := next.x }])

/-- The index of the best iterate: the lowest residual, a tie keeping the earlier (08 R220). -/
def bestOf (trail : List Iterate) : Nat := ((leastBy (fun e => e.1.resid) trail.zipIdx).map (·.2)).getD 0

/-- What an iterative problem reports with the best of the iterates up to now (08 R220, Table 8-7). -/
def iterEnd (trail : List Iterate) (status flags sats : Nat) : Solved :=
  let best := bestOf trail
  let e := trail.getD best { resid := fxNan, sats := 0, x := [] }
  { status := status, flags := flags + 2 + (if sats = 0 then 0 else 1), iters := trail.length - 1, resid := e.resid
    sats := sat32 sats, pivot := best, x := e.x, trail := trail }

/-- An iterative method (08 R222). -/
def solveIter (q : Problem) (rnd n cap : Nat) (method : Nat) (free : Num) : Solved :=
  let dinv := if method ≤ 5 then q.diagonals else some []
  match dinv with
  | none => illPosed 0 n 0 0 false
  | some dinv =>
    let r0 := q.residual rnd q.x0
    let it : Iter := { x := q.x0, r := codesOf r0, sats := satsOf r0 }
    let step := match method with
      | 4 => q.jacobi rnd n dinv
      | 5 => q.sgs rnd n dinv
      | 6 => q.cg rnd n
      | _ => q.bicg rnd n (codesOf r0) free
    let (trail, broken, sats) := iterate step q.tol cap it [{ resid := residMax it.r, sats := it.sats, x := it.x }]
    let met := match trail.getLast? with | some e => decide (e.resid ≤ q.tol) | none => false
    if broken then iterEnd trail 2 4 sats
    else iterEnd trail (if met then (if sats = 0 then 1 else 3) else 2) 0 sats

/-- An iterative problem cut when `k` of its iterates have their residuals: the best of them, or the initial guess with FX-NaN
where there is not one (08 R220, R229). -/
def cutIterAt (v : Solved) (status k : Nat) : Solved :=
  if k = 0 then
    { v with status := status, flags := 0, iters := 0, resid := fxNan, sats := 0, pivot := 0
             x := (v.trail.getD 0 { resid := 0, sats := 0, x := [] }).x }
  else
    let t := v.trail.take k
    { iterEnd t status 0 ((t.getLast?.map (·.sats)).getD 0) with image := v.image, poison := v.poison }

/-- An iterative problem cut before its end after some of its iterations, unless it has ended (08 R222, R229, R232). A stop mark alone may
leave no time for the first residual. -/
def cutIter (v : Solved) (status : Nat) (mark : Bool) (draw : Nat) : Solved :=
  let low := if mark then 0 else 1
  let k := low + draw % (v.trail.length + 1 - low)
  if v.trail.isEmpty ∨ k = v.trail.length then v else cutIterAt v status k

/-- A direct problem cut after some of its steps, with the saturation events and the smallest pivot met up to there; where no pivot
has been met that value is free (08 R211, R222, Table 8-7). -/
def cutDirectAt (v : Solved) (status k free : Nat) : Solved :=
  let e := if k = 0 then (0, free) else v.steps.getD (k - 1) (0, free)
  { v with status := status, flags := if e.1 = 0 then 0 else 1, resid := fxNan, sats := sat32 e.1, pivot := e.2
           x := v.x.map fun _ => fxNan }

/-- A direct problem cut before its end, unless it has ended (08 R222, R232). -/
def cutDirect (v : Solved) (status draw : Nat) : Solved :=
  if v.unsolved ∨ draw % 2 = 1 then v else cutDirectAt v status (draw / 2 % (v.steps.length + 1)) draw

/-- A problem of a segment that has not started ends at once, unless its input check has stopped it: an iterative one keeps its guess, with
its residual where there is time for it (08 R229, R232). -/
def endProblem (v : Solved) (iterative : Bool) (status : Nat) (mark : Bool) (draw : Nat) : Solved :=
  if v.unsolved then v
  else if !iterative then cutDirectAt v status 0 draw
  else if v.trail.isEmpty then v
  else cutIterAt v status (if mark then draw % 2 else 1)

end Sys2Proof.Machine
end

