-- ==== Sys2Proof/Machine/SvOps.lean ====
section
/-! DEFINITION. Solver batches: descriptors, records, admission, crews, the dispatcher (08 R206–R236). -/

namespace Sys2Proof.Machine

/-! ## The batch descriptor (08 Table 8-3) -/

def svMethod (d : List Byte) : Nat := byteFld d 8 1 % 16
def svMode (d : List Byte) (i : Nat) : Bool := (byteFld d 9 1).testBit i
def svRnd (d : List Byte) : Nat := byteFld d 9 1 % 8
def svCheck (d : List Byte) : Bool := svMode d 3
def svOverlap (d : List Byte) : Bool := svMode d 4
def svN (d : List Byte) : Nat := byteFld d 10 2
def svNnz (d : List Byte) : Nat := byteFld d 12 2
def svCap (d : List Byte) : Nat := byteFld d 14 2
def svCount (d : List Byte) : Nat := byteFld d 16 4
def svStride (d : List Byte) : Nat := byteFld d 20 4
def svRec (d : List Byte) : Nat := byteFld d 24 8
def svRes (d : List Byte) : Nat := byteFld d 32 8
def svStatus (d : List Byte) : Nat := byteFld d 40 8
def svDeadline (d : List Byte) : Nat := byteFld d 48 8
def svCrew (d : List Byte) : Nat := byteFld d 56 8
def svLanesMax (d : List Byte) : Nat := byteFld d 64 1
def svTrig (d : List Byte) : Nat := byteFld d 68 4
def svTrigInc (d : List Byte) : Nat := byteFld d 72 4
/-- Pumps that carry the feed. -/
def svPumps (d : List Byte) : Nat := (if svMode d 5 then 1 else 0) + (if svMode d 6 then 1 else 0)
def svIterative (m : Nat) : Bool := decide (4 ≤ m)
/-- Elements of the solution. -/
def svX (d : List Byte) : Nat := if svMethod d = 3 then 4 * svN d else svN d

/-- N and the other limits of a method (08 Table 8-1). -/
def svShapeOk (m n nnz cap : Nat) : Bool :=
  if m = 1 ∨ m = 2 then decide (1 ≤ n) && decide (n ≤ 64) && nnz == 0 && cap == 0
  else if m = 3 then decide (1 ≤ n) && decide (n ≤ 1024) && nnz == 0 && cap == 0
  else if 4 ≤ m ∧ m ≤ 7 then
    decide (1 ≤ n) && decide (n ≤ 1024) && decide (1 ≤ nnz) && decide (nnz ≤ 8192) && decide (1 ≤ cap) && decide (cap ≤ 65535)
  else false

/-- Words of the lane image per lane (08 Table 8-2). -/
def svWords (m n nnz : Nat) : Nat :=
  let sparse := nnz + ceilDiv nnz 2 + ceilDiv (n + 1) 2
  match m with
  | 1 => n * n
  | 2 => n * (n + 1) / 2
  | 3 => 52 * n
  | 4 => sparse + 5 * n
  | 5 => sparse + 5 * n
  | 6 => sparse + 6 * n
  | _ => sparse + 9 * n

/-- Lanes and whether overlap is in use, for a carve-out of `bytes` (08 R206). -/
def svLanes (m n nnz bytes : Nat) (overlap : Bool) (most : Nat) : Nat × Bool :=
  let foot := 8 * svWords m n nnz
  let top := min 64 (if most = 0 then 64 else most)
  if overlap && decide (2 * foot ≤ bytes) then (min top (bytes / (2 * foot)), true) else (min top (bytes / foot), false)

/-- The SV carve-out of a core: its node address, after the carve-outs of the MXEs and the FLE, and its bytes (04 R107). -/
def State.svBase (s : State) (c : Nat) : Nat := wellBase c + (s.fldAt (.core c) 0x010 0 6 + s.fldAt (.core c) 0x010 8 6) * 65536
def State.svBytes (s : State) (c : Nat) : Nat := s.fldAt (.core c) 0x010 16 6 * 65536

/-! ## Problem records (08 Tables 8-4, 8-5) -/

/-- A section's bytes padded to 64. -/
def pad64 (n : Nat) : Nat := ceilDiv n 64 * 64

/-- Sections of a record before b, in bytes. -/
def svSections (m n nnz : Nat) : List Nat :=
  match m with
  | 1 => [8 * n * n]
  | 2 => [8 * (n * (n + 1) / 2)]
  | 3 => [128 * n, 128 * n, 128 * n]
  | _ => [8 * nnz, 4 * nnz, 4 * (n + 1)]

/-- Offset of b in a record, of x, and the record's length. -/
def svOffsets (d : List Byte) : Nat × Nat × Nat :=
  let b := 64 + sumNat ((svSections (svMethod d) (svN d) (svNnz d)).map pad64)
  let x := b + pad64 (8 * svX d)
  (b, x, x + pad64 (8 * svX d))

/-- Bytes of a record that the feed reads. -/
def svFeedIn (d : List Byte) : Nat := if svIterative (svMethod d) then (svOffsets d).2.2 else (svOffsets d).2.1

/-- Bytes of x and the result record that the feed writes. -/
def svFeedOut (d : List Byte) : Nat := pad64 (8 * svX d) + 64

/-- Bytes of A, and of b for block-tridiagonal, that the feed reloads for a check (08 R219). -/
def svReload (d : List Byte) : Nat :=
  if svMethod d = 3 then (svOffsets d).2.1 - 64 else (svOffsets d).1 - 64

/-! ## Checks (08 R209) -/

/-- The range lies in HBM or in one cistern. -/
def svArea (a n : Nat) : Bool :=
  decide (a + n ≤ hbmEnd) ||
    (match placeOf a, placeOf (a + n - 1) with
     | .cistern i, .cistern j => i == j
     | _, _ => false)

/-- MALFORMED, which depends on the descriptor's bytes alone, its header among them (04 R97). -/
def svMalformed (d : List Byte) : Bool :=
  let m := svMethod d
  let len := (svOffsets d).2.2
  !(headerOk 3 d && decide (byteFld d 8 1 < 16) && decide (svRnd d ≤ 2) && !svMode d 7 && svShapeOk m (svN d) (svNnz d) (svCap d)
    && decide (1 ≤ svCount d) && decide (svCount d ≤ 65536) && svPumps d != 0
    && svRec d % 64 == 0 && svRes d % 64 == 0 && svStatus d % 128 == 0 && svStride d % 64 == 0 && decide (len ≤ svStride d)
    && decide (svLanesMax d ≤ 64) && zeroAt d 65 3 && bits (svTrig d) 17 14 == 0 && zeroAt d 76 52
    && svArea (svStatus d) 128
    && ((List.range (svCount d)).all fun i => svArea (svRec d + i * svStride d) len && svArea (svRes d + 64 * i) 64))

/-! ## Cycle counts (08 R236) -/

/-- Σ m(m − 1) for m = 1 to n. -/
def sumTri (n : Nat) : Nat := (n - 1) * n * (n + 1) / 3

/-- S_mv for L lanes. -/
def svSmv (n nnz lanes : Nat) : Nat :=
  let d := ceilDiv lanes 8
  ceilDiv (nnz * (3 + 2 * d) + n * (1 + 2 * d)) 2

/-- Cycles of one iteration. -/
def svIteration (m n nnz lanes : Nat) : Nat :=
  let v := svSmv n nnz lanes
  match m with
  | 4 => v + 7 * n
  | 5 => 3 * v + 9 * n
  | 6 => 2 * v + 12 * n
  | _ => 3 * v + 22 * n

/-- Worst-case cycles of one problem, the reload of a check apart. -/
def svCycles (m n nnz cap lanes : Nat) (check : Bool) : Nat :=
  let chk := if check then (if m = 3 then 52 * n else n * n + 2 * n) else 0
  match m with
  | 1 => 2 * sumTri n + n * (n - 1) / 2 + 4 * n + 64 + chk
  | 2 => sumTri n + n * (n - 1) / 2 + 28 * n + 64 + chk
  | 3 => 448 * n + 64 + chk
  | _ => svSmv n nnz lanes + 4 * n + 64 + cap * svIteration m n nnz lanes

/-- Write-back cycles of a segment. -/
def svWb (m n : Nat) : Nat := if m ≤ 2 then n + 64 else 64

/-- O of R227. -/
def svO (d : List Byte) (lanes : Nat) : Nat := lanes * svFeedOut d / (32 * svPumps d)

/-- P, A0 and E of R227. -/
def svTiming (d : List Byte) (lanes : Nat) (overlap : Bool) : Nat × Nat × Nat :=
  let m := svMethod d
  let wb := svWb m (svN d)
  let f := lanes * svFeedIn d / (32 * svPumps d)
  let o := svO d lanes
  let rl := if svCheck d && !svIterative m then lanes * svReload d / (32 * svPumps d) else 0
  let c := svCycles m (svN d) (svNnz d) (svCap d) lanes (svCheck d) + rl
  (if overlap then max (c + wb) (f + o + rl) else f + c + wb + o, f + 400, o + 300)

/-! ## The status word and the control line (08 R225, R226) -/

def State.stField (s : State) (d : List Byte) (off n : Nat) : Nat := s.memReadN (svStatus d + off) n
def State.admitLimit (s : State) (d : List Byte) : Nat := s.stField d 8 4
def State.stFlag (s : State) (d : List Byte) (i : Nat) : Bool := (s.stField d 44 4).testBit i
def State.ctl (s : State) (d : List Byte) (off n : Nat) : Nat := s.memReadN (svStatus d + 64 + off) n
def State.setCtl (s : State) (d : List Byte) (off n v : Nat) : State := s.memWriteN (svStatus d + 64 + off) n v

/-- An access to a batch's status word, control line or result records, or to the records of its problems from `lo` to `hi` − 1, must
wait at its channel (10 R263). -/
def State.batchWaits (s : State) (d : List Byte) (lo hi : Nat) : Bool :=
  s.hbmWaits (svStatus d) 128 || s.hbmWaits (svRes d) (64 * svCount d)
    || (List.range (hi - lo)).any fun k => s.hbmWaits (svRec d + (lo + k) * svStride d) (svOffsets d).2.2

/-- Add to a 32-bit field of a status word. -/
def addTo (off n : Nat) (b : List Byte) : List Byte := setByteFld b off 4 (byteFld b off 4 + n)

/-- The admitted work of a batch. -/
def State.workOf (s : State) (d : List Byte) : Option EngineWork := s.work.find? fun w => w.status == svStatus d

/-- The promise of a problem has been voided (08 R231). -/
def EngineWork.voids (w : EngineWork) (i : Nat) : Bool := (w.allVoid && !w.keeps.contains i) || decide (w.voidFrom ≤ i)

/-- A problem's promise stands: it was given at admission and has not been voided. -/
def State.promised (s : State) (d : List Byte) (i : Nat) : Bool :=
  match s.workOf d with
  | some w => !w.voids i
  | none => false

/-- VOIDED of a problem's record. -/
def State.voidedAt (s : State) (d : List Byte) (i : Nat) : Bool :=
  match s.workOf d with
  | some w => w.voids i
  | none => false

/-! ## Result records (08 R223, R224) -/

/-- The bytes of a result record. -/
def State.svRecord (s : State) (d : List Byte) (i lane core : Nat) (v : Solved) : List Byte :=
  let flags := v.flags ||| (if s.voidedAt d i then 64 else 0) ||| (if s.tideQ then 128 else 0)
  leBytes 1 v.status ++ leBytes 1 0 ++ leBytes 2 flags ++ leBytes 4 v.iters ++ leBytes 8 v.resid ++ leBytes 8 s.now
    ++ leBytes 4 v.sats ++ leBytes 4 (lane + core * 256) ++ leBytes 8 v.pivot ++ List.replicate 16 0 ++ leBytes 8 (i + 1)

/-- Write a problem's result record. -/
def State.writeRecord (s : State) (d : List Byte) (i lane core : Nat) (v : Solved) : State :=
  s.memWrite (svRes d + 64 * i) (s.svRecord d i lane core v) v.poison

/-- Write a problem's x section and its result record (08 R211, R224). -/
def State.writeProblem (s : State) (d : List Byte) (i lane core : Nat) (v : Solved) : State :=
  (s.memWrite (svRec d + i * svStride d + (svOffsets d).2.1) (v.x.flatMap (leBytes 8)) v.poison).writeRecord d i lane core v

/-- A record that a problem never worked on gets: REFUSED or ABORTED, with its x as submitted. -/
def bareResult (status : Nat) : Solved := { status := status, x := [] }

/-- Write bare records for a range of problems. -/
def State.bareRecords (s : State) (d : List Byte) (status core lo hi : Nat) : State :=
  (List.range (hi - lo)).foldl (fun s k => s.writeRecord d (lo + k) 0 core (bareResult status)) s

/-- The counter SV_PROBLEMS, and the cycle counters, whose counts are free values (08 Registers). -/
def State.countSv (s : State) (c records : Nat) : State :=
  if s.bitAt (.sv c) 0x00 0 then
    let r := fun i => (Config.freeWord (s.draws + i)).toNat % 2 ^ 32
    ((((s.addWrap (.sv c) 0x28 0 64 (r 0)).addWrap (.sv c) 0x30 0 64 (r 1)).addWrap (.sv c) 0x38 0 64 (r 2)).addWrap
      (.sv c) 0x40 0 64 records).drawnN 3
  else s

/-! ## COMPLETE and the dispatcher's slots -/

/-- Advance RING_RETIRED over the oldest slots of a ring whose batches are complete (08 R212). -/
def retireRing : Nat → List SolverSlot → List SolverSlot × Nat
  | n, [] => ([], n)
  | n, x :: xs => if x.complete && x.waiting.isEmpty then retireRing (n + 1) xs else (x :: xs, n)

def State.retireSlots (s : State) (die ring : Nat) : State :=
  let r := s.dispatcher die
  let (left, n) := retireRing 0 (Tab.get [] r.slots ring)
  (s.setDispatcher die { r with slots := Tab.set [] r.slots ring left }).addWrap (.svd die) (0x120 + 0x40 * ring) 0 16 n

/-- A batch's COMPLETE flag is set: its work is over, and its slots may retire (08 R212, R227). -/
def State.batchDone (s : State) (status : Nat) : State :=
  let s := { s with work := s.work.filter fun w => w.status != status }
  [0, 1, 2, 3].foldl (fun s die =>
    [0, 1, 2, 3, 4, 5, 6, 7].foldl (fun s ring =>
      let r := s.dispatcher die
      let l := (Tab.get [] r.slots ring).map fun x => if svStatus x.desc = status then { x with complete := true } else x
      (s.setDispatcher die { r with slots := Tab.set [] r.slots ring l }).retireSlots die ring) s) s

/-- The trigger add of a batch (08 R235). -/
def State.batchAdd (s : State) (d : List Byte) : State :=
  if (svTrig d).testBit 31 then s.sendAdd (svTrig d % 2 ^ 17) (svTrigInc d) 1 else s

/-! ## Crews (08 R233) -/

/-- A crew core's part ends: CREW_K loses one, and at 0 a batch with problems left is handed to the dispatcher. -/
def State.leaveCrew (s : State) (die : Nat) (d : List Byte) : State :=
  let k := s.ctl d 24 4
  let s := if k = 0 then s else s.setCtl d 24 4 (k - 1)
  if k ≤ 1 && (!s.stFlag d 0 || decide (s.ctl d 0 8 < s.admitLimit d)) then
    let r := s.dispatcher die
    s.setDispatcher die { r with closes := r.closes ++ [d] }
  else s

/-- The CD of a core. -/
def dieOf (c : Nat) : Nat := c / 64

/-- Void the promises of a batch but those of the problems `keep` that a draining core holds; of the problems kept before, those of
`own` lose theirs (08 R231). -/
def State.voidBatch (s : State) (d : List Byte) (keep own : List Nat) : State :=
  match s.workOf d with
  | none => s
  | some w =>
    let s := if w.allVoid then s else s.updateStatus (svStatus d) fun b => orFlags b 2
    { s with work := s.work.map fun x =>
        if x.status = svStatus d then
          (if x.allVoid then { x with keeps := x.keeps.filter fun i => !own.contains i } else { x with allVoid := true, keeps := keep })
        else x }

/-! ## The run of a core -/

def State.svRun (s : State) (c : Nat) : SvRun := Tab.get {} s.solvers c
def State.setSvRun (s : State) (c : Nat) (v : SvRun) : State := { s with solvers := Tab.set {} s.solvers c v }

/-- The SV descriptor that a core works on or is about to. -/
def State.svDesc (s : State) (c : Nat) : Option Running := (s.queue c 3).current

/-- The problems of the segments held. -/
def SvRun.indices (r : SvRun) : List Nat :=
  ((List.range r.segment.length).map fun k => r.first + k)
    ++ (match r.ahead with | some a => (List.range a.segment.length).map fun k => a.first + k | none => [])

/-- Some problem of the part was read poisoned. -/
def SvRun.tainted (r : SvRun) : Bool :=
  r.poison || r.segment.any (·.poison) || (match r.ahead with | some a => a.segment.any (·.poison) | none => false)

/-- The lane registers of a segment's start (08 R205). -/
def clearFiles (lanes : Nat) : List LaneRegs := List.replicate lanes {}

/-- The segment held is over: the one loaded ahead of it takes its place, with the lane registers cleared (08 R205, R206). -/
def SvRun.advance (r : SvRun) : SvRun :=
  match r.ahead with
  | some a =>
    { r with first := a.first, segment := a.segment, holding := true, stopped := a.stopped, upper := !r.upper, ahead := none
             files := clearFiles r.lanes }
  | none => { r with segment := [], holding := false, stopped := false }

/-- A core ends its part: its descriptor ends with a status, completes where it may, and sends the add it owes. -/
def State.endPart (s : State) (c : Nat) (d : List Byte) (poison addDue : Bool) : State :=
  let s := (s.setSvRun c {}).leaveCrew (dieOf c) d
  let s := if poison then s.updateStatus (svStatus d) (fun b => orFlags b 32) else s
  let s := s.endCurrent c 3 (if poison then 0x03 else 0)
  let s := s.completeDesc c 3
  if addDue && !poison then s.batchAdd d else s

/-- A refused descriptor ends with its status (08 R209, R233). -/
def State.refuseBatch (s : State) (c status : Nat) (r : Running) : State :=
  let s := s.endCurrent c 3 status
  if !r.alone then s
  else if status = 0x01 then
    let die := dieOf c
    let q := s.dispatcher die
    s.setDispatcher die { q with slots := q.slots.map fun e =>
      (e.1, e.2.map fun x => if x.addr = r.addr ∧ x.entered.contains c then { x with refused := x.refused ++ [c] } else x) }
  else s.leaveCrew (dieOf c) r.desc

/-- Why a core refuses a batch descriptor: 0 for none (08 R206, R209). -/
def State.svRefusal (s : State) (c : Nat) (r : Running) : Nat :=
  let d := r.desc
  let own := 2 ^ (c % 64)
  if svMalformed d then 0x01
  else if (if r.alone then !(svCrew d).testBit (c % 64) else svCrew d != own) then 0x80
  else if (svLanes (svMethod d) (svN d) (svNnz d) (s.svBytes c) (svOverlap d) (svLanesMax d)).1 = 0 then 0x81
  else 0

/-! ## Admission (08 R227) -/

/-- The number of problems admitted at a clock: whole rounds of L × K that end by the deadline. -/
def svAdmitted (count deadline now clock k lanes : Nat) (p : Nat × Nat × Nat) : Nat :=
  let have_ := (deadline - now) * 127 * clock
  let fixed := (p.2.1 + p.2.2) * 128000
  if have_ < fixed then 0 else min count ((have_ - fixed) / (p.1 * 128000) * (lanes * k))

/-- Admission by the core that won ADMIT_GATE. -/
def State.admitBatch (s : State) (c : Nat) (d : List Byte) (lanes : Nat) (overlap : Bool) : State :=
  let k := max 1 (s.ctl d 24 4)
  let dl := svDeadline d
  let p := svTiming d lanes overlap
  let clock := s.lowestClock dl
  let tide := dl != 0 && (!s.admits || decide (dl ≤ s.now))
  let limit := if dl = 0 then svCount d else if tide then 0 else svAdmitted (svCount d) dl s.now clock k lanes p
  let s := s.bareRecords d 7 c limit (svCount d)
  let s := s.countSv c (svCount d - limit)
  let s := s.setCtl d 8 8 dl
  let s := s.updateStatus (svStatus d) fun b =>
    let b := setByteFld (setByteFld (setByteFld b 8 4 limit) 12 4 (svCount d - limit)) 48 8 s.now
    orFlags b (1 + (if tide then 16 else 0) + (if limit = 0 then 8 else 0))
  if limit = 0 then (s.batchDone (svStatus d)).setSvRun c { s.svRun c with addDue := true }
  else if dl = 0 then s
  else { s with work := s.work ++ [{ status := svStatus d, deadline := dl, clock := clock, tAdmit := s.now, crew := k,
                                     lanes := lanes, period := p.1, lead := p.2.1, tail := p.2.2 }] }

/-! ## Loading and solving a segment (08 R210, R217, R234) -/

/-- `n` codes of `size` bytes at an offset of a record. -/
def codesAt (m : List Byte) (off size n : Nat) : List Nat :=
  (List.range n).map fun i => byteFld m (off + size * i) size

/-- The header fields break R217. -/
def headerBad (d m : List Byte) : Bool :=
  let nnz := byteFld m 4 4
  decide (64 ≤ byteFld m 0 1) || decide (64 ≤ byteFld m 1 1) || !zeroAt m 2 2
    || (if svIterative (svMethod d) then nnz == 0 || decide (svNnz d < nnz) else nnz != 0)
    || (decide (2 ^ 63 < byteFld m 8 8))

/-- Strictly rising column indices inside 0 to n − 1. -/
def columnsOk (n : Nat) : List Nat → Bool
  | [] => true
  | [c] => decide (c < n)
  | c :: e :: t => decide (c < n) && decide (c < e) && columnsOk n (e :: t)

/-- ROWPTR is non-decreasing. -/
def rising : List Nat → Bool
  | a :: b :: t => decide (a ≤ b) && rising (b :: t)
  | _ => true

/-- The rows of a sparse matrix as (column, code); none where R217 stops the problem. -/
def sparseRows (d m : List Byte) : Option (List (List (Nat × Nat))) :=
  let n := svN d
  let nz := svNnz d
  let nnz := byteFld m 4 4
  let colOff := 64 + pad64 (8 * nz)
  let ptrOff := colOff + pad64 (4 * nz)
  let ptr := codesAt m ptrOff 4 (n + 1)
  if nz < nnz ∨ at_ ptr 0 ≠ 0 ∨ at_ ptr n ≠ nnz ∨ !rising ptr then none
  else
    let rows := (List.range n).map fun i => (List.range (at_ ptr (i + 1) - at_ ptr i)).map fun k =>
      (byteFld m (colOff + 4 * (at_ ptr i + k)) 4, byteFld m (64 + 8 * (at_ ptr i + k)) 8)
    if rows.all fun r => columnsOk n (r.map (·.1)) then some rows else none

/-- The dense rows of LU, or of the symmetric matrix of Cholesky. -/
def denseRows (m n : Nat) (r : List Byte) : List (List (Nat × Nat)) :=
  (List.range n).map fun i => (List.range n).map fun j =>
    let k := if m = 1 then j * n + i else let lo := min i j; let hi := max i j; lo * n + hi - lo * (lo + 1) / 2
    (j, byteFld r (64 + 8 * k) 8)

/-- The rows of a block-tridiagonal matrix (08 Table 8-5). -/
def triRows (n : Nat) (dd e f : List Nat) : List (List (Nat × Nat)) :=
  (List.range (4 * n)).map fun i =>
    let blk := i / 4
    let part := fun (l : List Nat) (k col : Nat) => (List.range 4).map fun c => (4 * col + c, at_ l (16 * k + 4 * c + i % 4))
    (if blk = 0 then [] else part e blk (blk - 1)) ++ part dd blk blk ++ (if blk + 1 = n then [] else part f blk (blk + 1))

/-- The words of a problem's lane image as the feed writes them: its record's sections in order, without their padding; LU and Cholesky
keep b in the lane registers (08 R204, R205, Table 8-2, log 75). -/
def imageWords (d m : List Byte) : List Nat :=
  let n := svN d
  let nz := svNnz d
  let (bOff, xOff, _) := svOffsets d
  match svMethod d with
  | 1 => codesAt m 64 8 (n * n)
  | 2 => codesAt m 64 8 (n * (n + 1) / 2)
  | 3 => codesAt m 64 8 (48 * n) ++ codesAt m bOff 8 (4 * n)
  | _ =>
    let col := 64 + pad64 (8 * nz)
    codesAt m 64 8 nz ++ codesAt m col 8 (ceilDiv nz 2) ++ codesAt m (col + pad64 (4 * nz)) 8 (ceilDiv (n + 1) 2)
      ++ codesAt m bOff 8 n ++ codesAt m xOff 8 n

/-- The words of an iterative problem's image with x in its place. -/
def imageWithX (d : List Byte) (words x : List Nat) : List Nat :=
  words.take (words.length - svN d) ++ x

/-- Solve the problem whose record the feed has loaded. -/
def solveRecord (d m : List Byte) (free : Nat) : Solved :=
  let method := svMethod d
  let n := svN d
  let (bOff, xOff, _) := svOffsets d
  let nx := svX d
  let fa := byteFld m 0 1 % 64
  let fx := byteFld m 1 1 % 64
  let tol := byteFld m 8 8
  let b := codesAt m bOff 8 nx
  let x0 := if svIterative method then codesAt m xOff 8 n else []
  let tri := codesAt m 64 8 (if method = 3 then 48 * n else 0)
  let dd := tri.take (16 * n)
  let e := (tri.drop (16 * n)).take (16 * n)
  let f := tri.drop (32 * n)
  let rows := if method ≤ 2 then some (denseRows method n m) else if method = 3 then some (triRows n dd e f) else sparseRows d m
  let vals := if svIterative method then codesAt m 64 8 (min (byteFld m 4 4) (svNnz d)) else (rows.getD []).flatten.map (·.2)
  let bad := headerBad d m || rows.isNone
  let nan := (tol :: b ++ x0 ++ vals).any fun c => c == fxNan
  if bad || nan then illPosed ((if nan then 8 else 0) + (if bad then 16 else 0)) nx 0 0 true
  else
    let p : Problem := { fa := fa, fx := fx, tol := tol, rows := rows.getD [], b := b, x0 := x0 }
    match method with
    | 1 => solveLu p (svRnd d) n (svCheck d)
    | 2 => solveChol p (svRnd d) n (svCheck d)
    | 3 => solveTri p (svRnd d) n (svCheck d) dd e f
    | _ =>
      let v := solveIter p (svRnd d) n (svCap d) method (fxv fx free)
      { v with image := imageWithX d (imageWords d m) v.x }

/-- What a poisoned record gives (08 R234). -/
def poisoned (v : Solved) : Solved :=
  { status := 4, flags := 32, resid := fxNan, x := v.x.map fun _ => fxNan, poison := true, unsolved := true }

/-- Load and solve problem i. -/
def State.loadProblem (s : State) (d : List Byte) (i : Nat) : Solved :=
  let r := s.memRead (svRec d + i * svStride d) (svFeedIn d)
  let v := solveRecord d r.data (Config.freeWord (s.draws + i)).toNat
  if r.poison then poisoned v else v

/-- Write word after word of lane l's image, each in the place of R204. -/
def State.writeLane (lanes lane : Nat) (base : Nat) : State → Nat → List Nat → State
  | s, _, [] => s
  | s, w, v :: vs => State.writeLane lanes lane base (s.memWriteN (base + (w * lanes + lane) * 8) 8 v) (w + 1) vs

/-- The half of the lane image that a segment lies in (08 R206). -/
def State.imageBase (s : State) (c : Nat) (upper : Bool) : Nat := s.svBase c + if upper then s.svBytes c / 2 else 0

/-- The feed moves problem i into lane l's image (08 R214). -/
def State.feedLane (s : State) (c : Nat) (d : List Byte) (base i lane : Nat) : State :=
  let a := svRec d + i * svStride d
  State.writeLane (s.svRun c).lanes lane base (s.afterRead a (svFeedIn d)) 0 (imageWords d (s.memRead a (svFeedIn d)).data)

/-- What is left of each problem of a segment where its stop mark has passed before it starts (08 R229). -/
def State.lateStart (s : State) (d : List Byte) (lo : Nat) (seg : List Solved) : List Solved :=
  let it := svIterative (svMethod d)
  seg.zipIdx.map fun e =>
    if s.promised d (lo + e.2) then e.1
    else endProblem e.1 it (if it then 5 else 6) true (Config.freeWord (s.draws + e.2)).toNat

/-- The stop mark of a batch's segments: DEADLINE_EFF − (WB + O + 300) ÷ f; none without a deadline (08 R229). -/
def State.stopMarkAt (s : State) (d : List Byte) (lanes : Nat) : Option Nat :=
  let dl := s.ctl d 8 8
  if dl = 0 then none
  else
    let clock := match s.workOf d with | some w => w.clock | none => s.power.clock
    some (dl - ceilDiv ((svWb (svMethod d) (svN d) + svO d lanes + 300) * 128000) (127 * clock))

/-- The stop mark has come. -/
def State.markPassed (s : State) (d : List Byte) (lanes : Nat) : Bool :=
  match s.stopMarkAt d lanes with
  | some m => decide (m ≤ s.now)
  | none => false

/-- Load the segment from problem `lo` to `hi` − 1: as the one held, or ahead of it into the other half (08 R206). -/
def State.loadSegment (s : State) (c : Nat) (d : List Byte) (lo hi : Nat) : State :=
  let r := s.svRun c
  let seg := (List.range (hi - lo)).map fun k => s.loadProblem d (lo + k)
  let late := s.markPassed d r.lanes
  let s := s.drawnN (svCount d)
  let seg := if late then s.lateStart d lo seg else seg
  let base := s.imageBase c (r.holding && !r.upper)
  let s := (List.range (hi - lo)).foldl (fun s k => s.feedLane c d base (lo + k) k) (s.drawnN 64)
  s.setSvRun c
    (if r.holding then { s.svRun c with ahead := some { first := lo, segment := seg, stopped := late } }
     else { s.svRun c with first := lo, segment := seg, holding := true, stopped := late, upper := false
                           files := clearFiles r.lanes })

/-! ## Ends of problems and segments -/

/-- Cut the problems of the segment held that have not ended, by a stop mark or an abort, and end those of the segment ahead. -/
def State.cutSegment (s : State) (r : SvRun) (iterative : Bool) (status : Nat) (mark : Bool) (cut : Nat → Bool) : SvRun :=
  let draw := fun k => (Config.freeWord (s.draws + k)).toNat
  { r with
    segment := r.segment.zipIdx.map fun e =>
      if cut (r.first + e.2) then
        (if iterative then cutIter e.1 status mark (draw e.2) else cutDirect e.1 status (draw e.2))
      else e.1
    ahead := r.ahead.map fun a =>
      { a with segment := a.segment.zipIdx.map fun e =>
          if cut (a.first + e.2) then endProblem e.1 iterative status mark (draw (64 + e.2)) else e.1 } }

/-- Problems of a list with one of the statuses. -/
def countStatus (l : List Solved) (st : List Nat) : Nat := (l.filter fun v => st.contains v.status).length

/-- What the lanes leave of the segment held in the lane image and in the lane registers (08 R204, R205). -/
def State.leaveImage (s : State) (c : Nat) : State :=
  let r := s.svRun c
  let base := s.imageBase c r.upper
  let s := r.segment.zipIdx.foldl (fun s e => State.writeLane r.lanes e.2 base s 0 e.1.image) s
  s.setSvRun c { r with files := (List.range r.lanes).map fun l => ((r.segment[l]?).map Solved.regs).getD {} }

/-- Write the records of the segment held and update the status word; the segment ahead takes its place (08 R206, R224, R226). -/
def State.writeSegment (s : State) (c : Nat) (d : List Byte) : State :=
  let seg := (s.svRun c).segment
  let first := (s.svRun c).first
  let s := s.leaveImage c
  let s := seg.zipIdx.foldl (fun s e => s.writeProblem d (first + e.2) e.2 c e.1) s
  let s := s.countSv c seg.length
  let total := s.stField d 16 4 + seg.length + s.stField d 12 4
  let complete := decide (total = svCount d)
  let s := s.updateStatus (svStatus d) fun b =>
    let b := addTo 16 seg.length b
    let b := addTo 20 (countStatus seg [1]) b
    let b := addTo 24 (countStatus seg [2]) b
    let b := addTo 28 (countStatus seg [3]) b
    let b := addTo 32 (countStatus seg [4]) b
    let b := addTo 36 (countStatus seg [5, 6]) b
    let b := addTo 40 (countStatus seg [8]) b
    if complete then orFlags b 8 else b
  let r := s.svRun c
  let s := s.setSvRun c { r.advance with poison := r.poison || seg.any (·.poison), addDue := r.addDue || complete }
  if complete then s.batchDone (svStatus d) else s

/-- Apply a MOVE_REQ below DEADLINE_EFF (08 R230). -/
def State.pollMove (s : State) (d : List Byte) : State :=
  let req := s.ctl d 16 8
  let eff := s.ctl d 8 8
  if req = 0 ∨ eff ≤ req then s
  else
    let s := s.setCtl d 8 8 req
    match s.workOf d with
    | none => s.updateStatus (svStatus d) fun b => orFlags b 4
    | some w =>
      let have_ := (req - w.tAdmit) * 127 * w.clock
      let fixed := (w.lead + w.tail) * 128000
      let keep := if have_ < fixed then 0 else (have_ - fixed) / (w.period * 128000) * (w.lanes * w.crew)
      let limit := s.admitLimit d
      let voids := (List.range (limit - keep)).any fun k => s.memReadN (svRes d + 64 * (keep + k) + 56) 8 != keep + k + 1
      let s := s.updateStatus (svStatus d) fun b => orFlags b (if voids then 6 else 4)
      { s with work := s.work.map fun x =>
          if x.status = svStatus d then { x with deadline := req, voidFrom := min x.voidFrom keep } else x }

/-! ## Aborting and leaving (08 R231–R233) -/

/-- The running batch of a core is aborted: the records of its segments are written and its part ends (08 R232–R234). -/
def State.abortRun (s : State) (c : Nat) : State :=
  let r := s.svRun c
  match s.svDesc c with
  | some x =>
    if r.lanes = 0 then s
    else
      let d := x.desc
      let s := s.voidBatch d [] r.indices
      let s := s.setSvRun c (s.cutSegment r (svIterative (svMethod d)) 8 false fun _ => true)
      let s := if r.holding then s.writeSegment c d else s
      let s := (if r.ahead.isSome then s.writeSegment c d else s).drawnN 128
      let s := if r.tainted then s.updateStatus (svStatus d) (fun b => orFlags b 32) else s
      (s.setSvRun c {}).leaveCrew (dieOf c) d
  | none => s

/-- The descriptors that a dispatcher entered into a core's SV queue and that have not started. -/
def State.unstarted (s : State) (c : Nat) : List (List Byte) :=
  let q := s.queue c 3
  let bytes := fun a => (s.memRead a 128).data
  let chains := (q.chains.filter ChainEntry.dispatcher).map fun e => bytes e.addr
  let runs := (q.running.filter fun x => x.alone && x.done.isNone).map Running.desc
  let runs := if (s.svRun c).lanes = 0 then runs else runs.drop (match q.current with | some x => if x.alone then 1 else 0 | none => 0)
  let halted := match q.halted with | some h => if h.alone && !h.fetched then [bytes h.addr] else [] | none => []
  chains ++ runs ++ halted

/-- RING_HEAD of the rings whose newest slot waited for this core alone to be entered (08 R212). -/
def State.passHeads (s : State) (die c : Nat) : State :=
  [0, 1, 2, 3, 4, 5, 6, 7].foldl (fun s ring =>
    if (Tab.get [] (s.dispatcher die).slots ring).any fun x => x.waiting == [c] then
      s.addWrap (.svd die) (0x118 + 0x40 * ring) 0 16 1
    else s) s

/-- A core takes itself out of the slots that wait to be entered or to be refused; leaving, it takes its part out of the batches that it
waited for (08 R212, R231, R233). -/
def State.forgetSlots (s : State) (c : Nat) (waiting : Bool) : State :=
  let die := dieOf c
  let s := if waiting then s.passHeads die c else s
  let q := s.dispatcher die
  let left := q.slots.flatMap fun e => (e.2.filter fun x => waiting && x.waiting.contains c).map SolverSlot.desc
  let s := s.setDispatcher die { q with slots := q.slots.map fun e =>
    (e.1, e.2.map fun x =>
      { x with waiting := if waiting then x.waiting.filter (· != c) else x.waiting
               entered := if x.refused.contains c then x.entered else x.entered.filter (· != c) }) }
  let s := left.foldl (fun s d => (s.voidBatch d [] []).leaveCrew die d) s
  if waiting then [0, 1, 2, 3, 4, 5, 6, 7].foldl (fun s ring => s.retireSlots die ring) s else s

/-- Drop the entered descriptors that have not started: the core leaves each crew (08 R233). -/
def State.dropEntered (s : State) (c : Nat) : State :=
  (s.unstarted c).foldl (fun s d => (s.voidBatch d [] []).leaveCrew (dieOf c) d) (s.forgetSlots c false)

/-- FLUSH of a core's SV queue or its abort, before the queue itself is flushed (08 R231–R233). -/
def State.abortSv (s : State) (c : Nat) : State := (s.abortRun c).dropEntered c

/-- The promises that a draining core voids: those of its batches but its own segment (08 R231). -/
def State.drainSv (s : State) (c : Nat) : State :=
  let s := match s.svDesc c with
    | some x => if (s.svRun c).lanes = 0 then s else s.voidBatch x.desc (s.svRun c).indices []
    | none => s
  let s := (s.dropEntered c).forgetSlots c true
  let q := s.queue c 3
  let running := q.running.filter fun x => !x.alone || x.done.isSome || ((s.svRun c).lanes != 0 && some x == q.current)
  s.setQueue c 3 { q with chains := q.chains.filter (fun e => !e.dispatcher), running := running }

/-! ## The dispatcher -/

/-- Enter a slot into the SV queues of the cores that have room: those entered, those that wait. -/
def State.enterCrew (s : State) (addr : Nat) (cores : List Nat) : State × List Nat × List Nat :=
  cores.foldl (fun (acc : State × List Nat × List Nat) c =>
    let q := acc.1.queue c 3
    if q.chains.length < 4 then
      (acc.1.setQueue c 3 { q with chains := q.chains ++ [{ addr := addr, dispatcher := true }] }, acc.2.1 ++ [c], acc.2.2)
    else (acc.1, acc.2.1, acc.2.2 ++ [c])) (s, [], [])

/-- The local cores of a crew that are ONLINE. -/
def State.onlineCrew (s : State) (die : Nat) (d : List Byte) : List Nat :=
  ((List.range 64).filter fun i => (svCrew d).testBit i && s.coreState (64 * die + i) == 0).map fun i => 64 * die + i

def ringOff (ring off : Nat) : Nat := off + 0x40 * ring
def State.svRingSize (s : State) (die ring : Nat) : Nat :=
  let l := s.fldAt (.svd die) (ringOff ring 0x108) 0 4
  if l = 0 then 0 else 2 ^ l
def State.ringIdx (s : State) (die ring off : Nat) : Nat := s.fldAt (.svd die) (ringOff ring off) 0 16

/-- Node address of the head slot of a ring (08 R212). -/
def State.ringHeadAddr (s : State) (die ring : Nat) : Nat :=
  s.fldAt (.svd die) (ringOff ring 0x100) 0 48 + s.ringIdx die ring 0x118 % s.svRingSize die ring * 128

/-- The head slot of a ring, or its batch's control line, must wait at its channel. -/
def State.slotWaits (s : State) (die ring : Nat) : Bool :=
  let a := s.ringHeadAddr die ring
  s.hbmWaits a 128 || s.hbmWaits (svStatus (s.memRead a 128).data + 64) 64

/-- Take the head slot of a ring: CREW_K, and its descriptor into every ONLINE crew core's queue (08 R212). -/
def State.takeSlot (s : State) (die ring : Nat) : State :=
  let addr := s.ringHeadAddr die ring
  let d := (s.memRead addr 128).data
  let cores := s.onlineCrew die d
  let s := (s.afterRead addr 128).setCtl d 24 4 cores.length
  let (s, entered, waiting) := s.enterCrew addr cores
  let q := s.dispatcher die
  let old := Tab.get [] q.slots ring
  let s := s.setDispatcher die { q with
    slots := Tab.set [] q.slots ring (old ++ [{ addr := addr, desc := d, entered := entered, waiting := waiting }])
    closes := if cores.isEmpty && !svMalformed d then q.closes ++ [d] else q.closes }
  if waiting.isEmpty then s.addWrap (.svd die) (ringOff ring 0x118) 0 16 1 else s

/-- Enter the head slot into the cores whose FIFO was full (08 R212). -/
def State.enterWaiting (s : State) (die ring : Nat) (slot : SolverSlot) (older : List SolverSlot) : State :=
  let (s, entered, waiting) := s.enterCrew slot.addr slot.waiting
  let q := s.dispatcher die
  let s := s.setDispatcher die { q with
    slots := Tab.set [] q.slots ring (older ++ [{ slot with entered := slot.entered ++ entered, waiting := waiting }]) }
  if waiting.isEmpty then (s.addWrap (.svd die) (ringOff ring 0x118) 0 16 1).retireSlots die ring else s

/-- One step of the dispatcher on a ring. -/
def State.dispatchRing (s : State) (die ring : Nat) : State :=
  if s.safe || decide (2 ≤ s.power.depth) then s
  else if s.slotWaits die ring then s
  else
    let slots := Tab.get [] (s.dispatcher die).slots ring
    match slots.getLast? with
    | some x =>
      if !x.waiting.isEmpty then s.enterWaiting die ring x slots.dropLast
      else if s.svRingSize die ring ≠ 0 ∧ s.ringIdx die ring 0x118 ≠ s.ringIdx die ring 0x110 then s.takeSlot die ring else s
    | none => if s.svRingSize die ring ≠ 0 ∧ s.ringIdx die ring 0x118 ≠ s.ringIdx die ring 0x110 then s.takeSlot die ring else s

/-- Close a batch that no crew core is left to claim (08 R233). -/
def State.closeBatch (s : State) (d : List Byte) : State :=
  let s :=
    if s.stFlag d 0 then s
    else
      let count := svCount d
      (s.setCtl d 28 4 1).updateStatus (svStatus d) fun b =>
        orFlags (setByteFld (setByteFld (setByteFld b 8 4 count) 12 4 0) 48 8 s.now) 1
  let limit := s.admitLimit d
  let old := s.ctl d 0 8
  let s := s.setCtl d 0 8 (old + limit)
  if limit ≤ old then s
  else
    let s := s.bareRecords d 8 0 old limit
    let s := s.updateStatus (svStatus d) fun b => orFlags (addTo 40 (limit - old) (addTo 16 (limit - old) b)) 8
    (s.batchDone (svStatus d)).batchAdd d

/-- The dispatcher closes the first batch handed to it; one whose admission another unit has begun waits (08 R233). -/
def State.dispatchClose (s : State) (die : Nat) : State :=
  let q := s.dispatcher die
  match q.closes with
  | [] => s
  | d :: rest =>
    if s.safe then s
    else if s.batchWaits d 0 0 then s
    else if !s.stFlag d 0 && s.ctl d 28 4 != 0 then s.setDispatcher die { q with closes := rest ++ [d] }
    else (s.setDispatcher die { q with closes := rest }).closeBatch d

/-- Retire the oldest slot of a ring where every core entered with it refused it as MALFORMED (08 R233). -/
def State.retireRefused (s : State) (die ring : Nat) : State :=
  let q := s.dispatcher die
  match Tab.get [] q.slots ring with
  | x :: xs =>
    if svMalformed x.desc && x.waiting.isEmpty && x.entered.all (fun c => x.refused.contains c) && !x.complete then
      ((s.setDispatcher die { q with slots := Tab.set [] q.slots ring ({ x with complete := true } :: xs) }).retireSlots die
        ring).putBit (.svd die) (ringOff ring 0x128) 3 true
    else s
  | [] => s

/-- A write to RING_TAIL (08 R212). -/
def State.writeRingTail (s : State) (die ring v : Nat) : State :=
  if s.svRingSize die ring < (v % 65536 + 65536 - s.ringIdx die ring 0x120) % 65536 then
    s.putBit (.svd die) (ringOff ring 0x128) 2 true
  else s.putN (.svd die) (ringOff ring 0x110) (v % 65536)

/-! ## SV_QUERY (08 R206) -/

/-- The answer of SV_QUERY: footprint, lanes, cycles; zero where the query is invalid. -/
def State.queryAnswer (s : State) (c v : Nat) : Nat :=
  let m := bits v 0 4
  let n := bits v 16 11
  let nnz := if svIterative m then bits v 32 14 else 0
  if svShapeOk m n nnz (if svIterative m then 1 else 0) then
    let (lanes, _) := svLanes m n nnz (s.svBytes c) (v.testBit 4) 0
    let cyc := if svIterative m then svIteration m n nnz lanes else svCycles m n nnz 0 lanes false
    8 * svWords m n nnz + lanes * 2 ^ 24 + cyc * 2 ^ 32
  else 0

/-- A write to SV_QUERY: one that carries METHOD with a reserved value is discarded (00 R17). -/
def State.writeQuery (s : State) (c v : Nat) (low : Bool) : State :=
  let v := v &&& 0x3FFF_07FF_001F
  if low && (bits v 0 4 == 0 || decide (8 ≤ bits v 0 4)) then s.reject (.sv c)
  else (s.putN (.sv c) 0x10 v).putN (.sv c) 0x18 (s.queryAnswer c v)

end Sys2Proof.Machine
end

