-- ==== Sys2Proof/Machine/CoreCtl.lean ====
section
/-! DEFINITION. FLUSH and the changes of a core's state (04 R104, R116, R117, 15 Table 15-4). -/

namespace Sys2Proof.Machine

/-- A pump's outstanding tray requests are given up: their answers reach nobody. -/
def State.dropPumpTray (s : State) (c q : Nat) : State :=
  { s with tray := s.tray.filter fun r =>
      match r.owner with
      | .pump c' q' _ => !(c' == c && q' == q)
      | _ => true }

/-- FLUSH (04 R104, 08 R232): pending slots and chains go, a running descriptor ends ABORTED, the queue is IDLE. -/
def State.flushQueue (s : State) (c q : Nat) : State :=
  let s := if q = 3 then s.abortSv c else if q = 2 then s.abortFle c else if q ≤ 1 then s.abortMxe c q else s
  ((s.dropPumpTray c q).abortError c q).dropPending c q

/-- Flush all six queues. -/
def State.flushCore (s : State) (c : Nat) : State := [0, 1, 2, 3, 4, 5].foldl (fun s q => s.flushQueue c q) s

/-- The core leaves service: its pilot core stops, so that its berths are to be cleared (14 R382). -/
def State.stopCore (s : State) (c st : Nat) : State :=
  ((s.putFld (.core c) 0x008 0 2 st).putBit (.core c) 0x008 3 false).startClear c

/-- OFFLINE_DRAIN (04 Table 4-9). -/
def State.drainCore (s : State) (c : Nat) : State :=
  if s.coreState c = 0 then (s.drainSv c).putFld (.core c) 0x008 0 2 1 else s.reject (.core c)

/-- OFFLINE_ABORT (04 Table 4-9). -/
def State.abortCore (s : State) (c : Nat) : State :=
  if s.coreState c ≤ 1 then
    let s := s.putFld (.core c) 0x008 0 2 1
    ((s.flushCore c).forgetSlots c true).stopCore c 2
  else s.reject (.core c)

/-- Both accumulator banks of a core read +0, and no row is marked poisoned (05 R130). -/
def State.clearBanks (s : State) (c : Nat) : State :=
  let mine := fun (k size : Nat) => decide (2 * c * size ≤ k) && decide (k < (2 * c + 2) * size)
  { s with acc := s.acc.filter fun e => !mine e.1 65536, accPoison := s.accPoison.filter fun e => !mine e.1 1024 }

/-- ONLINE (04 Table 4-9): empty queues, event counters 0, and the pilot core starts at PILOT_PC
with a new lvseed, which the loss of its power has dropped (07 R199). TAIL_REJECT keeps its value
(04 R117). -/
def State.onlineCore (s : State) (c : Nat) : State :=
  if s.coreState c = 2 then
    let s := [0, 1, 2, 3, 4, 5].foldl (fun s q =>
      ((s.setQueue c q {}).putN (.core c) (qOff q 0x110) 0).putN (.core c) (qOff q 0x118) 0) s
    let s := (List.range 16).foldl (fun s i => s.putN (.core c) (0x040 + 8 * i) 0) s
    let s := (s.putFld (.core c) 0x008 0 2 0).clearBanks c
    let s := s.setHart c { pc := BitVec.ofNat 64 (wellBase c + s.fldAt (.core c) 0x018 0 22) }
    { s with lvseed := Tab.set (Config.entropy c) s.lvseed c (Config.freeWord s.draws) }.drawn
  else s.reject (.core c)

/-- A write of the harbourmaster to CORE_CTRL (04 R116, R117). -/
def State.coreRequest (s : State) (c req : Nat) : State :=
  let s := s.putFld (.core c) 0x000 0 2 req
  match req % 4 with
  | 0 => s
  | 1 => s.drainCore c
  | 2 => s.abortCore c
  | _ => s.onlineCore c

/-- The request would be discarded (04 R117). -/
def State.coreRefuses (s : State) (c req : Nat) : Bool :=
  match req with
  | 1 => s.coreState c != 0
  | 2 => decide (1 < s.coreState c)
  | 3 => s.coreState c != 2
  | _ => false

/-- Tray-remote writes of a core's pumps or pilot core are outstanding (04 Table 4-9). -/
def State.writesOut (s : State) (c : Nat) : Bool :=
  s.tray.any fun r => r.kind != 0 &&
    (match r.owner with
     | .pump c' _ _ => c' == c
     | .requester w => w.endpoint.val == c && w.node.val == s.trayPos
     | _ => false)

/-- A DRAINING core whose queues are empty and whose tray writes are acknowledged enters OFFLINE (04 Table 4-9). -/
def State.drainDone (s : State) (c : Nat) : State :=
  if s.coreState c = 1 ∧ s.coreEmpty c ∧ !s.writesOut c then s.stopCore c 2 else s

/-- A core's domain enters FAULT: as OFFLINE_ABORT, and FENCED (15 Table 15-4). -/
def State.fenceCore (s : State) (c : Nat) : State :=
  let s := if s.coreState c ≤ 1 then ((s.putFld (.core c) 0x008 0 2 1).flushCore c).forgetSlots c true else s
  s.stopCore c 3

/-- The self-test of a core leaves its well and accumulator banks zero (15 Table 15-4). -/
def State.zeroCore (s : State) (c : Nat) : State :=
  (s.dropMem fun a => decide (wellBase c ≤ a) && decide (a < wellBase c + 0x30_0000)).clearBanks c

end Sys2Proof.Machine
end

