-- ==== Sys2Proof/Machine/MemOps.lean ====
section
/-! DEFINITION. Memory channels and the region table (10 R248–R267). -/

namespace Sys2Proof.Machine

/-! ## Channel states and lost regions (10 R263) -/

/-- A channel is FENCED or ISOLATED. -/
def State.chLost (s : State) (ch : Nat) : Bool := decide (2 ≤ s.chState ch)

/-- Some channel of a CD is lost. -/
def State.dieLost (s : State) (d : Nat) : Bool := (List.range 48).any fun i => s.chLost (48 * d + i)

/-- The word RT_LOST_i. -/
def State.lostWord (s : State) (dies : List Bool) (i : Nat) : Nat :=
  (List.range 64).foldl (fun w j =>
    let e := s.reg .regionTable (0x1000 + 8 * (64 * i + j))
    let lost := decide (64 * i + j < 288) && (if bit e 0 then dies.any id else dies.getD (fld e 2 2) false)
    if lost then w + 2 ^ j else w) 0

/-- Bring RT_LOST and LOST_ANY up to date. -/
def State.updateLost (s : State) : State :=
  let dies := (List.range 4).map fun d => s.dieLost d
  let words := (List.range 5).map fun i => s.lostWord dies i
  let s := words.zipIdx.foldl (fun s e => s.putN .regionTable (0x008 + 8 * e.2) e.1) s
  s.putBit .regionTable 0x000 17 (words.any (· != 0))

/-- Put a channel into a state (10 Table 10-6): one that becomes ACTIVE takes the committed configuration (10 R259). -/
def State.setChState (s : State) (ch v : Nat) : State :=
  let s := if v = 0 then s.setChannel ch { s.channel ch with cfg := none } else s
  (s.putFld (groupOf ch) (chOff ch 0x100) 0 2 v).updateLost

/-- REFILL of a channel (10 CH_STATE). -/
def State.setRefill (s : State) (ch : Nat) (b : Bool) : State := s.putBit (groupOf ch) (chOff ch 0x100) 2 b

/-- The channel enters FENCED: HBM_PHY (10 R263, R266, 15 Table 15-2). -/
def State.fenceChannel (s : State) (ch : Nat) : State :=
  let s := s.setChannel ch { s.channel ch with recover := false }
  ((s.setChState ch 3).setRefill ch false).report 0x06 (some (256 + ch)) (hbmDetail ch 0)

/-- Some granule of an HBM region lies on a channel (10 R252). -/
def State.regionOn (s : State) (r ch : Nat) : Bool :=
  let e := s.reg .regionTable (0x1000 + 8 * r)
  bit e 0 || fld e 2 2 == ch / 48

/-- Fill a channel with the poison syndrome: every sector reads poisoned until it is rewritten (10 R267). -/
def State.refillChannel (s : State) (ch : Nat) : State :=
  let rs := (List.range 288).filter fun r => s.regionOn r ch
  let marks := s.poison.filter fun e => !(decide (e.1 < hbmEnd) && (s.decodeHbm e.1).1 == ch)
  { s with poison := marks, refill := rs.foldl (fun t r => Tab.set false t (192 * r + ch) true) s.refill }

/-- The refill of a recovered channel ends: ACTIVE (10 R267). -/
def State.endRefill (s : State) (ch : Nat) : State :=
  let s := s.setChannel ch { s.channel ch with recover := false }
  ((s.refillChannel ch).setRefill ch false).setChState ch 0

/-! ## The region table (10 R248–R251) -/

/-- An entry of the table being committed. -/
def State.newEntry (s : State) (r : Nat) : Word := s.getShadow (blockBase .regionTable + 0x1000 + 8 * r)

/-- Some value of 0 to n − 1 is missing from a list, or the list is longer. -/
def notPermutation (l : List Nat) : Bool := (List.range l.length).any fun i => !l.contains i

/-- The shadow table may be committed (10 R249). -/
def State.tableOk (s : State) : Bool :=
  let es := (List.range 288).map s.newEntry
  let spread := es.filter fun e => bit e 0
  let size := spread.length
  let near := fun d => es.filter fun e => !bit e 0 && fld e 2 2 == d
  size % 12 == 0 && !notPermutation (spread.map fun e => fld e 8 9) && spread.all (fun e => fld e 2 2 == 0)
    && (List.range 4).all fun d => (near d).length == 72 - size / 4 && !notPermutation ((near d).map fun e => fld e 8 9)

/-- Put a table in force (10 R251): the contents of the regions whose entry changed, or of all where S changed, are
undefined. -/
def State.applyTable (s : State) (vs : List (Nat × Word)) : State :=
  let old := (List.range 288).map fun r => s.reg .regionTable (0x1000 + 8 * r)
  let s := vs.foldl (fun s v => s.setReg v.1 v.2) s
  let new := (List.range 288).map fun r => s.reg .regionTable (0x1000 + 8 * r)
  let size := (new.filter fun e => bit e 0).length
  let all := decide (size ≠ s.spreadCount)
  let changed := (List.range 288).filter fun r => all || old.getD r 0 != new.getD r 0
  let s := s.putFld .regionTable 0x000 0 9 size
  let s := s.dropMem fun a => decide (a < hbmEnd) && changed.contains (a / 0x4000_0000)
  let s := { s with
    refill := s.refill.filter fun e => !changed.contains (e.1 / 192)
    undef := changed.foldl (fun t r => Tab.set 0 t r (s.draws + 1)) s.undef }
  (if changed.isEmpty then s else s.drawn).updateLost

end Sys2Proof.Machine
end

