-- ==== Sys2Proof/Machine/Operands.lean ====
section
/-! DEFINITION. The operands of register writes: what a value may hold, what a busy block keeps, and what a commit may put
in force (00 R12–R17). -/

namespace Sys2Proof.Machine

/-- A written value holds no reserved encoding and every field within its range (00 R17): where not, the write is discarded
with CFG_REJECT. PORT_CFG.MIN_WIDTH outside 1–8 is such a value (log 59). -/
def encodingOk (b : Block) (off : Nat) (v : Word) : Bool :=
  match b with
  | .tide =>
    if off = 0x010 then fld v 0 2 != 3
    else if off = 0x048 then decide (10 ≤ fld v 0 16) && decide (fld v 0 16 ≤ 10_000)
    else if 0x300 ≤ off ∧ off < 0x320 then decide (fld v 0 4 ≤ 5)
    else true
  | .core _ =>
    if off = 0x010 then decide (fld v 0 6 + fld v 8 6 + fld v 16 6 ≤ 44) && decide (fld v 16 6 ≤ 32)
    else if 0x108 ≤ off ∧ off < 0x280 ∧ (off - 0x108) % 0x40 = 0 then
      fld v 0 4 == 0 || (decide (4 ≤ fld v 0 4) && decide (fld v 0 4 ≤ 12))
    else true
  | .mxe _ _ => if off = 0x00 then fld v 0 2 != 3 else true
  | .sv _ => if off = 0x00 then decide (8 ≤ fld v 8 5) && decide (fld v 8 5 ≤ 16) else true
  | .svd _ =>
    if 0x108 ≤ off ∧ off < 0x300 ∧ (off - 0x108) % 0x40 = 0 then
      fld v 0 4 == 0 || (decide (4 ≤ fld v 0 4) && decide (fld v 0 4 ≤ 10))
    else true
  | .stack _ =>
    if 0x1020 ≤ off ∧ (off - 0x1020) % 0x80 = 0 then decide (1 ≤ fld v 0 17) && decide (fld v 0 17 ≤ 65536) else true
  | .port _ =>
    if off = 0x000 then decide (1 ≤ fld v 8 4) && decide (fld v 8 4 ≤ 8)
    else if off = 0x018 then
      decide (1 ≤ fld v 0 8) && decide (fld v 0 8 ≤ 100) && [2, 3, 4, 5, 6, 7].all fun i => fld v (8 * i) 8 != 0
    else true
  | .router => if off = 0x008 then decide (100 ≤ fld v 0 16) else true
  | .quay _ => if off = 0x000 then decide (2000 ≤ fld v 0 19) && decide (fld v 0 19 ≤ 500_000) else true
  | _ => true

/-- A group of a quay has an operation in progress. -/
def State.collBusy (s : State) (quay : Nat) : Bool :=
  s.groups.any fun e => groupQuay e.1 == quay && e.2.op.isSome

/-- Some request at the head of a queue or a group waits on a counter of a block (13 R345, R346). -/
def State.blockAwaited (s : State) (quay k : Nat) : Bool :=
  let mine := fun (c : Nat) => c / 65536 % 2 == quay && c % 65536 / 64 == k
  (s.quays.any fun e =>
    let r := e.2
    r.state == 1 && r.sqTail != r.sqHead &&
      (let d := (s.headRequest e.1).data
       wrFlag d 1 && mine (byteFld d 60 4 % 2 ^ 17))) ||
  (s.groups.any fun e =>
    let r := e.2
    r.state == 2 && r.sqTail != r.sqHead && r.op.isNone &&
      (let d := (s.memRead (r.fld 40 8 + 64 * (r.sqHead % r.sqN)) 64).data
       (byteFld d 1 1).testBit 0 && mine (byteFld d 60 4 % 2 ^ 17)))

/-- The fields of a register that may not change now (00 R15), as a mask. -/
def State.busyMask (s : State) (b : Block) (off : Nat) : Word :=
  let all : Word := ~~~0
  match b with
  | .tide => if 0x200 ≤ off ∧ off < 0x280 then (if s.bitAt .tide 0x280 ((off - 0x200) / 8) then all else 0) else 0
  | .core c =>
    if off = 0x018 then (if s.coreState c ≠ 2 then all else 0)
    else if off = 0x290 ∨ off = 0x298 then (if s.pumpBusy c ((off - 0x290) / 8) then all else 0)
    else 0
  | .mxe c e => if off = 0x10 ∧ !(s.queue c e).running.isEmpty then all else 0
  | .fle c => if off = 0x10 ∧ !(s.queue c 2).running.isEmpty then all else 0
  | .stack k => if 0x1008 ≤ off ∧ s.tgState (16 * k + (off - 0x1000) / 0x80) = 1 then all else 0
  | .collective q =>
    if off = 0x048 then (if s.collBusy q then all else 0)
    else if 0x1_0000 ≤ off ∧ off < 0x1_2000 then (if s.blockAwaited q ((off - 0x1_0000) / 8) then all else 0)
    else 0
  | _ => 0

/-! ## What a commit may put in force -/

/-- The value that a commit would put in force for a register of a block. -/
def State.toCommit (s : State) (b : Block) (off : Nat) : Word := s.getShadow (blockBase b + off)

/-- A waiting commit of a port has captured LONG = 1. -/
def State.capturedLong (s : State) (p : Nat) : Bool :=
  (Tab.get (0, []) s.commits (commitAddr (.port p))).2.any fun e => e.1 == blockBase (.port p) && bit e.2 2

/-- The commit of a port is allowed: LONG ports are counted in force and in waiting commits (11 R292, R293, R309). -/
def State.portCommitOk (s : State) (p : Nat) : Bool :=
  let buf := s.toCommit (.port p) 0x020
  let sizes := (List.range 8).map fun v => fld buf (8 * v) 8
  let bufOk := sizes.getD 1 0 == 0 && ([0, 2, 3, 4, 5, 6, 7].all fun v => sizes.getD v 0 != 0) && decide (sumNat sizes ≤ 64)
  let long := bit (s.toCommit (.port p) 0x000) 2
  let others := (allPorts.filter fun q => q != p && (s.portCfg q 2 || s.capturedLong q))
  let longOk := !long || (p != 15 && decide (others.length < 4) && decide ((others.filter fun q => q / 8 == p / 8).length < 2))
  let split := s.toCommit (.port p) 0x030
  let mib := sumNat ((List.range 5).map fun i => fld split (12 * i) 12)
  let base := fld (s.toCommit (.port p) 0x028) 0 48
  let near := fun (r : Nat) =>
    let e := s.reg .regionTable (0x1000 + 8 * r)
    decide (r < 288) && !bit e 0 && fld e 2 2 / 2 == p / 8
  let last := (base + mib * 2 ^ 20 - 1) / 2 ^ 30
  let basinOk := !long || mib == 0 || (decide (mib ≤ 256) && near (base / 2 ^ 30) && near last)
  bufOk && longOk && basinOk

/-- The commit of a calendar is allowed (12 R327). -/
def State.calendarCommitOk (s : State) (q : Nat) : Bool :=
  (List.range 8).all fun p =>
    let share := fld (s.toCommit (.calendar q) (8 * p)) 0 7
    let owned := (List.range 2048).foldl (fun n i =>
      let w := s.toCommit (.calendar q) (0x8000 + 0x4000 * p + 8 * i)
      n + (if bit w 31 then 1 else 0) + (if bit w 63 then 1 else 0)) 0
    decide (share ≤ 75) && decide (owned ≤ share * 4096 / 100)

/-- The commit of the hub is allowed (15 R424). -/
def State.hubCommitOk (s : State) : Bool :=
  (List.range 468).all fun d =>
    let v := s.toCommit .hub (0x2008 + 0x20 * d)
    decide (1 ≤ fld v 0 14) && decide (fld v 0 14 ≤ 10_000) && fld v 16 8 != 0 && fld v 32 16 != 0

/-- A CFG_COMMIT of a block is not discarded by the rules of its chapter. -/
def State.commitOk (s : State) : Block → Bool
  | .port p => s.portCommitOk p
  | .calendar q => s.calendarCommitOk q
  | .hub => s.hubCommitOk
  | .regionTable => s.tableOk
  | .quay q =>
    s.toCommit (.quay q) 0x010 == s.reg (.quay q) 0x010 || s.quays.all fun e => quayOf e.1 != q || e.2.state == 0
  | .collective q =>
    s.toCommit (.collective q) 0x000 == s.reg (.collective q) 0x000
      || s.groups.all fun e => groupQuay e.1 != q || e.2.state == 0
  | _ => true

end Sys2Proof.Machine
end

