-- ==== Sys2Proof/Machine/BellOps.lean ====
section
/-! DEFINITION. Bell pages by address (14 R385, R386). -/

namespace Sys2Proof.Machine

/-- What an offset of the bell pages names (14 Table 14-6a). -/
inductive BellAt where
  | queue (g : Nat) | group (g : Nat) | own (i : Nat) | host (h : Nat) | none
  deriving DecidableEq, Repr

/-- The bell at an 8-byte-aligned address of the bell window. -/
def bellAt (addr : Nat) : BellAt :=
  let off := addr - 0x0E90_0000_0000
  if addr < 0x0E90_0000_0000 ∨ off % 8 ≠ 0 then .none
  else if off < 0x20_0000 then .queue (off / 8)
  else if off < 0x20_8000 then .group ((off - 0x20_0000) / 8)
  else if off < 0x20_8A08 then .own ((off - 0x20_8000) / 8)
  else if 0x20_9000 ≤ off ∧ off < 0x20_9200 then .host ((off - 0x20_9000) / 8)
  else .none

/-- An aligned 64-bit write to a bell (14 R386); none where no bell stands at the address. -/
def State.writeBell (s : State) (addr : Nat) (v : Word) : Option State :=
  match bellAt addr with
  | .queue g => some (s.queueBell g (fld v 32 2) (fld v 0 32))
  | .group g => some (s.groupBell g (fld v 32 2) (fld v 0 32))
  | .own i => some (s.ringOr i v)
  | .host h => some (s.ringHost h v)
  | .none => none

/-- A read of a bell: an OR bell is returned and cleared, a WO bell reads as zero (14 R386). -/
def State.bellRead (s : State) (addr : Nat) : Option (Word × State) :=
  match bellAt addr with
  | .own i => some (s.bell i, { s with bells := Tab.set 0 s.bells i 0 })
  | .none => none
  | _ => some (0, s)

end Sys2Proof.Machine
end

