-- ==== Sys2Proof/Machine/TideOps.lean ====
section
/-! DEFINITION. The tide unit: lock states, the step registers and the tide schedule (02 R42–R66). -/

namespace Sys2Proof.Machine

/-! ## Lock states (02 R49–R55) -/

/-- Enter a lock state; the first entry into LOCKED after stage 5 ends stage 8 of the start-up (17 R446, BOOT_READY). -/
def State.setLock (s : State) (v : Nat) : State :=
  let s := s.putFld .tide 0x008 0 3 v
  if v = 2 ∧ 5 ≤ s.fldAt .boot 0x000 0 4 ∧ s.regN .boot 0x008 = 0 then s.putN .boot 0x008 s.now else s

/-- EST_ERR, saturating at 0xFFFF (02 TIDE_STATUS). -/
def State.estErr (s : State) : Nat := s.fldAt .tide 0x008 16 16
def State.setEst (s : State) (v : Nat) : State := s.putFld .tide 0x008 16 16 (min v 0xFFFF)

/-- EST_ERR as it has grown by 50 ns per second of holdover (02 R52). -/
def State.grownEst (s : State) : Nat :=
  match s.tide.growFrom with
  | some t => s.tide.estBase + ceilDiv ((s.clock - t) * 50) 1_000_000_000
  | none => s.estErr

/-- EST_ERR stops growing, or grows from now on from its current value. -/
def State.growEst (s : State) : State := { s with tide := { s.tide with estBase := s.estErr, growFrom := some s.clock } }
def State.stopEst (s : State) : State := { s with tide := { s.tide with growFrom := none } }

/-- The role: 0 follower, 1 grandmaster, 2 standby (02 TIDE_CTRL); until TIDE_CTRL is committed, the strap's (17 R466). -/
def State.role (s : State) : Nat :=
  if s.tide.committed then s.fldAt .tide 0x010 0 2 else if s.power.straps.toNat.testBit 3 then 1 else 0

/-- A port has received a valid set within the last five periods (02 R52). -/
def State.freshPort (s : State) (p : Nat) : Bool := decide (s.clock < (s.port p).validAt + 5000)

/-- The node's automatic choice of a parent (17 R466): the UP port with QUALITY LOCKED and the lowest HOPS. -/
def State.autoParent (s : State) : Option Nat :=
  leastBy (fun p => match (s.port p).rxTide with | some (_, h, _) => h | none => 16)
    (allPorts.filter fun p => s.portUp p && s.freshPort p &&
      (match (s.port p).rxTide with | some (q, _, _) => q == 2 | none => false))

/-- The ports that the node may follow, first choice first: the parent and its enabled alternates (02 TIDE_CTRL), or the
automatic choice (17 R466). -/
def State.parents (s : State) : List Nat :=
  if s.tide.committed then
    [s.fldAt .tide 0x010 4 4] ++ (if s.bitAt .tide 0x010 16 then [s.fldAt .tide 0x010 8 4] else [])
      ++ (if s.bitAt .tide 0x010 17 then [s.fldAt .tide 0x010 12 4] else [])
  else s.autoParent.toList ++ [s.tide.parent]

/-- The node takes a port as its parent (02 TIDE_STATUS.PARENT). -/
def State.useParent (s : State) (p : Nat) : State :=
  ({ s with tide := { s.tide with parent := p } }).putFld .tide 0x008 4 4 p

/-- The first of the node's parents that is valid becomes the one in use. -/
def State.chooseParent (s : State) : State :=
  match s.parents.find? s.freshPort with
  | some p => s.useParent p
  | none => s

/-- Enter ADRIFT (02 R53, 15 TIDE_ADRIFT). -/
def State.enterAdrift (s : State) : State :=
  ((s.setLock 4).putBit .tide 0x018 2 true).report 0x21 none 0

/-- An entry can be seen due again from now on: after a step of the tide or a late step mark (02 R55, R62). -/
def State.reseeEntries (s : State) : State :=
  { s with sched := Tab.mapVals {} s.sched fun e => { e with seen := max e.seen s.now } }

/-- Correct the tide by a number of ns; the local count goes on as it is. -/
def State.moveTide (s : State) (ns : Int) : State :=
  let s := s.putN .tide 0x000 ((s.now : Int) + ns).toNat
  { s with tide := { s.tide with adjusted := s.tide.adjusted + ns } }

/-- The magnitude of an offset. -/
def offsetAbs (i : Int) : Nat := i.natAbs

/-- An offset of 2^-16 ns units in whole ns: its magnitude rounded up (02 R54), and to the nearest. -/
def offsetUp (o : Int) : Nat := ceilDiv (offsetAbs o) 65536
def offsetNear (o : Int) : Int := (o + 32768) / 65536

/-- The offset has been measured: it is left to correct, and EST_ERR holds it (02 R54). Offsets are in units of 2^-16 ns. -/
def State.measured (s : State) (offset : Int) : State :=
  { s with tide := { s.tide with slew := some offset } }.setEst (offsetUp offset)

/-- Step the tide by a measured offset, to the nearest ns (02 R55). -/
def State.stepTide (s : State) (offset : Int) : State :=
  let s := ((s.measured offset).moveTide (offsetNear offset)).reseeEntries
  { s with tide := { s.tide with slew := some (offset - 65536 * offsetNear offset) } }

/-- HOLDOVER ends in ADRIFT where EST_ERR exceeds HOLDOVER_LIMIT (02 R53). -/
def State.checkAdrift (s : State) : State :=
  if s.lockState = 3 ∧ s.fldAt .tide 0x048 0 16 < s.estErr then s.enterAdrift else s

/-- A parent is valid again with an offset (02 R54). -/
def State.returnParent (s : State) (offset : Int) : State :=
  let s := s.stopEst
  if 10_000 * 65536 < offsetAbs offset ∧ s.deadlined then
    let s := (s.putBit .tide 0x018 3 true).report 0x20 none 0
    let s := (s.voidWork fun _ => true).voidAllQuays 4
    (s.setLock 1).stepTide offset
  else if !s.deadlined then (s.setLock 1).stepTide offset
  else (s.measured offset).checkAdrift

/-- The next nanosecond of the local oscillator: the tide advances by one, and at most once in 10 000 by two or by none, toward
the offset that is left, while that is half a nanosecond or more (02 R42). -/
def State.tickTide (s : State) : State :=
  let s := s.addWrap .tide 0x000 0 64 1
  match s.tide.slew with
  | none => s
  | some o =>
    if 32768 ≤ offsetAbs o ∧ 2 ≤ s.lockState ∧ s.tide.lastSet + 10_000 ≤ s.clock then
      let ns : Int := if 0 < o then 1 else -1
      let s := s.moveTide ns
      { s with tide := { s.tide with lastSet := s.clock, slew := some (o - 65536 * ns) } }
    else s

/-! ## The step register (02 R56–R58) -/

/-- A write to STEP (02 R56, R58). -/
def State.writeStep (s : State) (v : Nat) : State :=
  if s.stepPeriod ≠ 0 then s.reject .tide
  else ((s.putN .tide 0x020 (v % 2 ^ 32)).putN .tide 0x028 s.now).putBit .tide 0x008 12 true

/-- Write an advanced step register: in force, and in the shadow unless software has written it since the last commit
(02 R512). -/
def State.advanceReg (s : State) (off : Nat) (v : Nat) : State :=
  let a := blockBase .tide + off
  let s := s.putN .tide off v
  if Tab.get false s.dirty a then s else s.setShadow a (BitVec.ofNat 64 v)

/-- A step mark is met (02 R57, R512). -/
def State.meetMark (s : State) : State :=
  let mark := s.stepMark
  let period := s.stepPeriod
  let next := s.stepNext
  if mark = 0 ∨ s.now < mark then s
  else
    let k := if period = 0 then 0 else (s.now - mark) / period
    let late := decide (mark < s.now)
    let s := ((s.putN .tide 0x020 ((next + k) % 2 ^ 32)).putN .tide 0x028 (mark + k * period)).putBit .tide 0x008 12 true
    let s := if period ≠ 0 then
        (s.advanceReg 0x030 ((next + k + 1) % 2 ^ 32)).advanceReg 0x038 (mark + (k + 1) * period)
      else s.advanceReg 0x038 0
    if late then (s.putBit .tide 0x018 5 true).reseeEntries else s

/-! ## The tide schedule (02 R59–R64) -/

/-- Record the first error of the schedule (02 SCHED_ERR). -/
def State.schedErr (s : State) (i cause : Nat) : State :=
  if s.bitAt .tide 0x058 63 then s else s.putN .tide 0x058 (i + cause * 2 ^ 16 + 2 ^ 63)

/-- The argument bytes of an entry: offset from byte 16, and count. -/
def SchedEntry.arg (e : SchedEntry) (off n : Nat) : Nat := bits (e.w2.toNat + e.w3.toNat * 2 ^ 64) (8 * off) (8 * n)

/-- The action's arguments are in range and no reserved byte is set (02 R60). -/
def SchedEntry.argsOk (e : SchedEntry) : Bool :=
  match e.action with
  | 1 => decide (e.arg 0 2 ≤ 255) && decide (e.arg 2 1 ≤ 5) && e.arg 3 5 == 0 && e.arg 8 8 % descSize (e.arg 2 1) == 0
  | 2 => decide (e.arg 0 4 ≤ 131071) && e.arg 8 8 == 0
  | 3 => true
  | 4 => decide (e.arg 0 1 ≤ 2) && e.arg 1 15 == 0
  | 5 => e.arg 8 8 == 0
  | 6 => decide (e.arg 0 1 ≤ 1) && e.arg 1 15 == 0
  | _ => false

/-- An entry holds no reserved encoding and no field used outside its form or action (02 R59–R61). -/
def SchedEntry.ok (e : SchedEntry) : Bool :=
  e.argsOk && fld e.w0 13 3 == 0 && fld e.w0 24 8 == 0 && (!e.forced || e.action == 4) && (!e.every || e.sForm)
    && (!e.sForm || e.period == 0)

/-- The mark that R35 judges for an entry (02 R61): now, where none can be projected. -/
def State.judged (s : State) (e : SchedEntry) : Nat := (s.projected e).getD s.now

/-- The step at which an EVERY_STEP entry counts as fired when it is armed: the current one, where its mark in it has passed
(02 R62). -/
def State.firedAtArming (s : State) (e : SchedEntry) : Option Nat :=
  if e.sForm && e.every && s.stepValid && decide (s.stepBase + e.phase < s.now) then some s.stepNo else none

/-- The check of an entry (02 R61): without VALID it is EMPTY, whatever else it holds (log 57). -/
def State.checkEntry (s : State) (i : Nat) : State :=
  let e := { s.entry i with fired := s.firedAtArming (s.entry i) }
  if !e.valid then s.setEntry i (e.setState 0)
  else if !e.ok then (s.setEntry i (e.setState 5)).schedErr i 1
  else if e.action == 4 && !e.forced && s.modeRefused (e.arg 0 1) (s.judged e) (some i) then
    (s.setEntry i (e.setState 6)).schedErr i 3
  else s.setEntry i { e.setState 1 with seen := s.now }

/-! ### Due entries and their order (02 R62, R63) -/

/-- The mark of an entry now. -/
def State.entryMark (s : State) (e : SchedEntry) : Nat := if e.sForm then s.stepBase + e.phase else e.when_

/-- A one-time S-form entry whose step has passed. -/
def State.stepPassed (s : State) (e : SchedEntry) : Bool :=
  e.sForm && !e.every && s.stepNo != e.wStep && reached32 s.stepNo e.wStep

/-- An ARMED entry is due (02 R62). -/
def State.isDue (s : State) (e : SchedEntry) : Bool :=
  e.state == 1 &&
    (if e.sForm then
      s.stepValid && (if e.every then decide (s.entryMark e ≤ s.now) && e.fired != some s.stepNo
        else (s.stepNo == e.wStep && decide (s.entryMark e ≤ s.now)) || s.stepPassed e)
     else decide (e.when_ ≤ s.now))

/-- An entry that is due is late (02 R62). -/
def State.isLate (s : State) (e : SchedEntry) : Bool :=
  s.stepPassed e || decide (s.entryMark e + 1000 < max e.seen (s.entryMark e))

/-- The due entry that is dispatched first: ascending mark, then ascending index (02 R63). -/
def State.firstDue (s : State) : Option Nat :=
  (leastBy (fun e => s.entryMark e.2) (s.sched.filter fun e => s.isDue e.2)).map (·.1)

/-- An entry repeats (02 R62). -/
def SchedEntry.repeats (e : SchedEntry) : Bool := e.every || (!e.sForm && e.period != 0)

/-- An entry after its firing or its drop (02 R62, R63). -/
def State.rearm (s : State) (e : SchedEntry) (once : Nat) : SchedEntry :=
  if e.every then { e with fired := some s.stepNo, seen := s.now }
  else if e.repeats then
    { e with w1 := BitVec.ofNat 64 (e.when_ + ((s.now - e.when_) / e.period + 1) * e.period), seen := s.now }
  else e.setState once

/-- A CHECKPOINT request of the schedule (16 R425, R426): it is queued, or skipped while one runs. -/
def State.requestCheckpoint (s : State) (plan : Nat) : State :=
  if s.ckpt.isSome || !s.harbour.requests.isEmpty then s.memWriteN (plan + 88) 4 (s.memReadN (plan + 88) 4 + 1)
  else { s with harbour := { s.harbour with requests := [(plan, s.now, s.stepNo)] } }

/-- What an action does at its target (02 R64, 13 R344, 14 R386, 11 R299). -/
def State.deliver (s : State) (e : SchedEntry) : State :=
  match e.action with
  | 1 => s.enterChain (e.arg 0 2) (e.arg 2 1) (e.arg 8 8)
  | 2 => s.sendAdd (e.arg 0 4) (e.arg 4 4) 0
  | 3 => (s.writeBell (e.arg 8 8) e.w2).getD s
  | 4 => if e.forced then s.forceMode (e.arg 0 1) s.now else (if s.modeTarget = e.arg 0 1 then s else s.startMode (e.arg 0 1))
  | 5 => s.requestCheckpoint (e.arg 0 8)
  | _ => s.putFld .router 0x000 0 1 (e.arg 0 1)

/-- Why an action does nothing at dispatch: the STATE that a one-time entry takes, and the cause (02 R64). -/
def State.blockedBy (s : State) (e : SchedEntry) : Option (Nat × Nat) :=
  if e.action = 1 then (if s.coreState (e.arg 0 2) ≠ 0 then some (7, 4) else none)
  else if e.action = 4 then
    (if (!e.forced && s.modeHurts (e.arg 0 1)) || s.safe || s.brakeBlocks (e.arg 0 1) then some (6, 3) else none)
  else none

/-- Dispatch a due entry (02 R62–R64). Every entry that is not dropped as late counts in FIRE_COUNT, one that is stopped
at its dispatch too (log 58). In DOZE the action is held until the node is awake. -/
def State.fireEntry (s : State) (i : Nat) : State :=
  let e := s.entry i
  let late := s.isLate e
  let s := if late then s.addWrap .tide 0x050 16 16 1 else s
  if late && e.dropLate then s.setEntry i (s.rearm e 4)
  else
    let s := s.addWrap .tide 0x050 32 32 1
    match s.blockedBy e with
    | some (st, cause) =>
      let e' := if st = 7 then e.setState 7 else s.rearm e st
      (s.setEntry i e').schedErr i cause
    | none =>
      let s := s.setEntry i (s.rearm e (if late then 3 else 2))
      if s.power.depth = 2 && e.action != 2 && e.action != 6 then { s with heldActs := s.heldActs ++ [e] }
      else s.deliver e

/-- Dispatch an entry of an action where it is the first one due (02 R63); in DEEP the schedule is lost. -/
def State.dispatchEntry (s : State) (i action : Nat) : State :=
  if (s.entry i).action = action && s.firstDue == some i && decide (s.power.depth < 3) then s.fireEntry i else s

/-- Deliver the actions held in DOZE (02 R64). -/
def State.deliverHeld (s : State) : State :=
  s.heldActs.foldl (fun (s : State) e => s.deliver e) { s with heldActs := [] }

/-- They are delivered once the node is awake. -/
def State.deliverAwake (s : State) : State := if s.power.depth = 0 then s.deliverHeld else s

/-! ### Writes to an entry (02 R61) -/

def SchedEntry.word (e : SchedEntry) : Nat → Word
  | 0 => e.w0
  | 1 => e.w1
  | 2 => e.w2
  | _ => e.w3

def SchedEntry.setWord (e : SchedEntry) (k : Nat) (v : Word) : SchedEntry :=
  match k with
  | 0 => { e with w0 := v }
  | 1 => { e with w1 := v }
  | 2 => { e with w2 := v }
  | _ => { e with w3 := v }

/-- Dispatch the due entries in their order until an entry has been dispatched (02 R63). -/
def State.fireThrough : Nat → Nat → State → State
  | 0, _, s => s
  | n + 1, i, s =>
    match s.firstDue with
    | none => s
    | some j => if j = i then s.fireEntry j else State.fireThrough n i (s.fireEntry j)

/-- A write to an entry: STATE keeps its value, an ARMED entry refuses every change but the write that disarms it, and a
write that carries byte 1 starts the check (02 R61). `v` is the whole word after the write. -/
def State.writeEntry (s : State) (i k : Nat) (carries : Bool) (v : Word) : State :=
  let e := s.entry i
  let v := if k = 0 then setFld v 16 8 e.state else v
  if e.state = 1 then
    if k = 0 && carries && !bit v 8 then
      let s := if s.isDue e then State.fireThrough s.sched.length i s else s
      s.setEntry i ((s.entry i).setWord 0 (setFld v 16 8 0))
    else if v = e.word k then (if k = 0 && carries then s.checkEntry i else s)
    else (s.putBit .tide 0x018 4 true).schedErr i 2
  else
    let s := s.setEntry i (e.setWord k v)
    if k = 0 && carries then s.checkEntry i else s

end Sys2Proof.Machine
end

