-- ==== Sys2Proof/Machine/Flags.lean ====
section
/-! DEFINITION. What a register reads as: the status bits and live counts over the value it keeps (00 R13, R14). -/

namespace Sys2Proof.Machine

/-- Put COMMIT_PEND at a bit of a status register. -/
def State.withPend (s : State) (b : Block) (i : Nat) (w : Word) : Word := setBit w i (s.commitPending b)

/-- Bank rows of an MXE marked poisoned (05 R131). -/
def State.poisonRows (s : State) (c e : Nat) : Nat :=
  (s.accPoison.filter fun r => r.1 / 1024 == 2 * c + e && r.2).length

/-- The stack is hotter than 85 °C (10 R258). -/
def State.stackHot (s : State) (k : Nat) : Bool := decide (12_500 < s.fldAt (.stack k) 0x010 0 16)

/-- A batch lies between RING_RETIRED and RING_HEAD of a ring (08 RING_STATUS). -/
def State.ringActive (s : State) (d r : Nat) : Bool :=
  s.fldAt (.svd d) (0x120 + 0x40 * r) 0 16 != s.fldAt (.svd d) (0x118 + 0x40 * r) 0 16

/-- The newest batch of a ring waits for a full chain FIFO. -/
def State.ringEntering (s : State) (d r : Nat) : Bool :=
  match (Tab.get [] (s.dispatcher d).slots r).getLast? with
  | some x => !x.waiting.isEmpty
  | none => false

/-- Domains that are not NORMAL (15 FH_STATUS). -/
def State.notNormal (s : State) : Nat := ((List.range 468).filter fun d => s.domainState d != 0).length

/-- Groups of a quay that are not DISABLED (13 CL_STATUS). -/
def State.groupsOn (s : State) (q : Nat) : Nat := (s.groups.filter fun e => groupQuay e.1 == q && e.2.state != 0).length

/-- Queues of a quay that are not DISABLED (12 R311). -/
def State.queuesOn (s : State) (q : Nat) : Nat := (s.quays.filter fun e => quayOf e.1 == q && e.2.state != 0).length

/-- CTX_CACHED: which contexts a quay has cached the spec leaves open, at most 4096 and no more than it owns (12 R311). -/
def State.ctxCached (s : State) (q : Nat) : Nat :=
  (Config.freeWord s.draws).toNat % (min 4096 (s.queuesOn q) + 1)

/-- The staging in use and the chunks that wait, in KiB, of the group that GRP_SEL names (13 GRP_PEEK_l). -/
def State.groupPeek (s : State) (q l : Nat) : Nat :=
  let r := s.group (s.fldAt (.collective q) 0x020 0 12)
  ceilDiv (r.stageUsed l) 1024 + ceilDiv (r.readyBytes l) 1024 * 2 ^ 32

/-- SV_STATUS over its COMMIT_PEND (08 SV_STATUS): a core performs admission within one command, so ADMITTING reads 0. -/
def State.svStatusReg (s : State) (c : Nat) : Nat :=
  let r := s.svRun c
  (if (s.queue c 3).running.isEmpty then 0 else 1) + (if r.overlap then 4 else 0) + r.lanes * 2 ^ 8

/-- The start-up stage reached (17 Table 17-1): after stage 6, the links, the tide lock, discovery and READY. -/
def State.bootStage (s : State) : Nat :=
  let v := s.fldAt .boot 0x000 0 4
  if v < 6 then v
  else if s.regN .boot 0x008 ≠ 0 then (if s.bitAt .boot 0x000 4 then 10 else 9)
  else if (allPorts.any s.portUp) then 8 else 7

/-- What a register reads as, where its chapter gives it more than the value kept. -/
def State.liveReg (s : State) (b : Block) (off : Nat) (w : Word) : Word :=
  match b with
  | .tide =>
    if off = 0x008 then setFld w 16 16 (min s.grownEst 0xFFFF)
    else if off = 0x050 then setFld w 0 13 (s.sched.filter fun e => e.2.state == 1).length
    else if 0x1_0000 ≤ off then (s.entry ((off - 0x1_0000) / 32)).word ((off - 0x1_0000) / 8 % 4)
    else w
  | .core c =>
    if off = 0x008 then s.withPend b 2 w
    else if 0x100 ≤ off ∧ off < 0x280 ∧ (off - 0x100) % 0x40 = 0x20 then s.readQStatus c ((off - 0x100) / 0x40)
    else w
  | .mxe c e =>
    if off = 0x08 then
      s.withPend b 1 (setFld (setBit w 0 (!(s.queue c e).running.isEmpty)) 16 11 (s.poisonRows c e))
    else w
  | .fle c => if off = 0x08 then s.withPend b 1 (setBit w 0 (!(s.queue c 2).running.isEmpty)) else w
  | .sv c =>
    if off = 0x08 then s.withPend b 1 (BitVec.ofNat 64 (s.svStatusReg c))
    else if off = 0x20 then
      (let r := s.svRun c
       if r.holding then BitVec.ofNat 64 (r.first + r.segment.length * 2 ^ 32) else 0)
    else w
  | .svd d =>
    if off = 0x000 then
      s.withPend b 8 (BitVec.ofNat 64 (sumNat ((List.range 8).map fun r => if s.ringActive d r then 2 ^ r else 0)))
    else if 0x100 ≤ off ∧ off < 0x300 ∧ (off - 0x100) % 0x40 = 0x28 then
      (let r := (off - 0x100) / 0x40
       setBit (setBit w 0 (s.ringActive d r)) 1 (s.ringEntering d r))
    else w
  | .regionTable => if off = 0x000 then s.withPend b 16 w else w
  | .stack k =>
    if off = 0x008 then s.withPend b 0 (setBit (setBit w 1 (s.bitAt b 0x000 0)) 2 (s.stackHot k)) else w
  | .port _ => if off = 0x008 then s.withPend b 5 w else w
  | .quay q => if off = 0x008 then s.withPend b 0 (setFld w 16 13 (s.ctxCached q)) else w
  | .collective q =>
    if off = 0x008 then s.withPend b 0 (setFld w 16 12 (s.groupsOn q))
    else if 0x028 ≤ off ∧ off < 0x048 then BitVec.ofNat 64 (s.groupPeek q ((off - 0x028) / 8))
    else w
  | .hub => if off = 0x000 then setFld (s.withPend b 2 w) 16 9 s.notNormal else w
  | .boot => if off = 0x000 then setFld w 0 4 s.bootStage else w
  | .harbour => if off = 0x00 then setFld w 40 5 s.harbour.longOps.length else w
  | .power => if off = 0x000 then setBit (setBit w 5 (!s.power.brakeN)) 6 (!s.power.alertN) else w
  | _ => w

/-- The value that a read of a register returns: the shadow of an RWS register, else the live value (00 Table 0-3). -/
def State.readValue (s : State) (r : RegAt) : Word :=
  if r.row.rws then s.getShadow r.key else s.liveReg r.block r.off (s.getReg r.key)

/-- Counts whose size the spec leaves to the timing of the part: the context misses of a quay (12 QY_CNT_9). What has built up since
they were last read is a free value. -/
def State.freeCount (s : State) (b : Block) (off : Nat) : State :=
  match b with
  | .quay _ =>
    if off = 0x008 then s.drawn
    else if off = 0x100 + 8 * 9 then (s.addWrap b off 0 64 (Config.freeWord s.draws).toNat).drawn
    else s
  | _ => s

/-- What a read does to the register: its RC fields clear (00 Table 0-3); HIGH of BASIN_OCC starts again at OCC. -/
def State.clearOnRead (s : State) (r : RegAt) : State :=
  match r.block with
  | .port _ =>
    if r.row.rc = 0 then s else s.setReg r.key (setFld (s.getReg r.key) 32 32 (fld (s.getReg r.key) 0 32))
  | _ => if r.row.rc = 0 then s else s.setReg r.key (s.getReg r.key &&& ~~~(BitVec.ofNat 64 r.row.rc))

/-- Read the register at an 8-byte-aligned address of the control windows: its value, and the state after (00 R12). -/
def State.readReg (s : State) (a : Nat) : Word × State :=
  match regAt a with
  | none => (0, s)
  | some r =>
    let t := s.freeCount r.block r.off
    ({ t with draws := s.draws }.readValue r, t.clearOnRead r)

end Sys2Proof.Machine
end

