-- ==== Sys2Proof/Machine/Shake.lean ====
section
/-! DEFINITION. SHAKE256, the digest of images, of the lifetime record and of checkpoint shards (15 R420, 16 R438, 17 R452,
R461, R463). The spec names it and leaves it to FIPS 202, which is followed here (PRESUMED, log entry 11). -/

namespace Sys2Proof.Machine

/-- Lane x + 5y of a Keccak state. -/
def lane (st : List Word) (x y : Nat) : Word := st.getD (x % 5 + 5 * (y % 5)) 0

/-- A state built lane by lane. -/
def lanes25 (f : Nat → Nat → Word) : List Word := (List.range 25).map fun i => f (i % 5) (i / 5)

/-- θ: each lane takes the parities of two columns. -/
def keccakTheta (st : List Word) : List Word :=
  let c := fun (x : Nat) => (List.range 5).foldl (fun a y => a ^^^ lane st x y) 0
  let cs := (List.range 5).map c
  let d := fun (x : Nat) => cs.getD ((x + 4) % 5) 0 ^^^ (cs.getD ((x + 1) % 5) 0).rotateLeft 1
  let ds := (List.range 5).map d
  lanes25 fun x y => lane st x y ^^^ ds.getD x 0

/-- The rotation of lane x + 5y in ρ. -/
def rhoOffsets : List Nat :=
  [0, 1, 62, 28, 27, 36, 44, 6, 55, 20, 3, 10, 43, 25, 39, 41, 45, 15, 21, 8, 18, 2, 61, 56, 14]

/-- ρ and π: lanes rotate and move. -/
def keccakRhoPi (st : List Word) : List Word :=
  lanes25 fun x y =>
    let sx := (x + 3 * y) % 5
    (lane st sx x).rotateLeft (rhoOffsets.getD (sx + 5 * x) 0)

/-- χ: the step that is not linear. -/
def keccakChi (st : List Word) : List Word :=
  lanes25 fun x y => lane st x y ^^^ (~~~(lane st (x + 1) y) &&& lane st (x + 2) y)

/-- One step of the register that gives the round constants. -/
def keccakLfsr (r : Nat) : Nat := let t := 2 * r; if 256 ≤ t then (t - 256) ^^^ 0x71 else t

/-- The register after n steps. -/
def keccakRc : Nat → Nat
  | 0 => 1
  | n + 1 => keccakLfsr (keccakRc n)

/-- The constant of a round. -/
def roundConst (round : Nat) : Word :=
  BitVec.ofNat 64 (sumNat ((List.range 7).map fun j => if (keccakRc (7 * round + j)).testBit 0 then 2 ^ (2 ^ j - 1) else 0))

/-- One round. -/
def keccakRound (st : List Word) (round : Nat) : List Word :=
  let t := keccakChi (keccakRhoPi (keccakTheta st))
  setAt t 0 (t.getD 0 0 ^^^ roundConst round)

/-- The permutation. -/
def keccakF (st : List Word) : List Word := (List.range 24).foldl keccakRound st

/-- Bytes of the rate of SHAKE256. -/
def shakeRate : Nat := 136

/-- A block of the rate added to the state. -/
def absorbBlock (st : List Word) (b : List Byte) : List Word :=
  keccakF ((List.range 25).map fun i => st.getD i 0 ^^^ (if i < 17 then BitVec.ofNat 64 (byteFld b (8 * i) 8) else 0))

/-- Absorb whole blocks. -/
def absorbAll : Nat → List Word → List Byte → List Word
  | 0, st, _ => st
  | n + 1, st, m => absorbAll n (absorbBlock st (m.take shakeRate)) (m.drop shakeRate)

/-- A message padded to whole blocks. -/
def shakePad (m : List Byte) : List Byte :=
  let z := shakeRate - m.length % shakeRate
  if z = 1 then m ++ [0x9F] else m ++ [0x1F] ++ List.replicate (z - 2) 0 ++ [0x80]

/-- Squeeze blocks of output. -/
def squeeze : Nat → List Word → List Byte
  | 0, _ => []
  | n + 1, st => (st.take 17).flatMap (fun w => leBytes 8 w.toNat) ++ squeeze n (keccakF st)

/-- `n` bytes of SHAKE256. -/
def shake256 (m : List Byte) (n : Nat) : List Byte :=
  let p := shakePad m
  (squeeze (n / shakeRate + 1) (absorbAll (p.length / shakeRate) (List.replicate 25 0) p)).take n

end Sys2Proof.Machine
end

