-- ==== Sys2Proof/Machine/LifeOps.lean ====
section
/-! DEFINITION. The lifetime record: its live counts, its two copies and the fault archive (15 R420–R423). -/

namespace Sys2Proof.Machine

/-- A count of the live record. -/
def State.lifeCount (s : State) (off bytes : Nat) : Nat :=
  leNat ((List.range bytes).map fun i => Tab.get (0 : Byte) s.life.live (off + i))

/-- Write bytes into a table of bytes. -/
def putCells (t : Tab Byte) (off : Nat) : List Byte → Tab Byte
  | [] => t
  | b :: bs => putCells (Tab.set 0 t off b) (off + 1) bs

/-- Write bytes of the live record. -/
def State.lifePut (s : State) (off : Nat) (bytes : List Byte) : State :=
  { s with life := { s.life with live := putCells s.life.live off bytes } }

/-- Raise a count of the live record to a value. -/
def State.lifeMax (s : State) (off bytes v : Nat) : State :=
  if s.lifeCount off bytes < v then s.lifePut off (leBytes bytes (min v (2 ^ (8 * bytes) - 1))) else s

/-- Bytes of a copy: 512 KiB, the digest in its last 32. -/
def copySize : Nat := 0x8_0000

/-- The bytes of the table from an offset. -/
def cellBytes (t : Tab Byte) (off : Nat) : Nat → List Byte
  | 0 => []
  | n + 1 => Tab.get 0 t off :: cellBytes t (off + 1) n

/-- SEQ of a copy of the record. -/
def State.copySeq (s : State) (c : Nat) : Nat := leNat (cellBytes s.life.nvm (c * copySize + 0xC) 4)

/-- Copy `c` is valid: its DIGEST is that of the bytes before it (15 R420). -/
def State.copyValid (s : State) (c : Nat) : Bool :=
  cellBytes s.life.nvm (c * copySize + 0x7_FFE0) 32 == shake256 (cellBytes s.life.nvm (c * copySize) 0x7_FFE0) 32

/-- The entries of a copy, at the offsets of 15 Table 15-6. -/
def State.copyCells (s : State) (c : Nat) : Tab Byte :=
  (s.life.nvm.filter fun e => decide (c * copySize ≤ e.1) && decide (e.1 < c * copySize + 0x7_FFE0)).map fun e =>
    (e.1 - c * copySize, e.2)

/-- The copy in force: the valid copy with the higher SEQ (15 R420). -/
def State.copyInForce (s : State) : Option Nat :=
  let first := if s.copySeq 1 ≤ s.copySeq 0 then 0 else 1
  if s.copyValid first then some first else if s.copyValid (1 - first) then some (1 - first) else none

/-- Start-up takes the live counts from the copy in force; with none, they start from zero. What the always-on island has counted
since power-off is added: POWER_CYCLES, and the seconds and the energy of DEEP. -/
def State.loadLifetime (s : State) : State :=
  let t : State := { s with life := { s.life with live := match s.copyInForce with | some c => s.copyCells c | none => [] } }
  [(0x18, 4), (0x128, 8), (0x2D0, 8), (0x2D8, 8)].foldl (fun (t : State) e => t.lifeAdd e.1 e.2 (s.lifeCount e.1 e.2)) t

/-- Write the live counts into the copy with the older SEQ (15 R420). -/
def State.writeLifetime (s : State) : State :=
  let c := if s.copySeq 0 ≤ s.copySeq 1 then 0 else 1
  let seq := max (s.copySeq 0) (s.copySeq 1) + 1
  let s := s.lifeAdd 0x1C 4 1
  let s := s.lifePut 0 (leBytes 8 0x524C_4B47 ++ leBytes 4 1 ++ leBytes 4 seq)
  let s := s.lifePut 0x20 (leBytes 8 s.now)
  let cells := (s.life.live.filter fun e => decide (e.1 < 0x7_FFE0)).map fun e => (e.1 + c * copySize, e.2)
  let others := s.life.nvm.filter fun e => !(decide (c * copySize ≤ e.1) && decide (e.1 < (c + 1) * copySize))
  let nvm := if c = 0 then cells ++ others else others ++ cells
  let digest := shake256 (cellBytes nvm (c * copySize) 0x7_FFE0) 32
  { s with life := { s.life with nvm := putCells nvm (c * copySize + 0x7_FFE0) digest, written := s.now } }

/-- Store a logged UCC or FAT entry in the fault archive, a ring of 4 096 (15 Table 15-6). -/
def State.archiveEntry (s : State) (entry : List Byte) : State :=
  let s := s.lifePut (0x1_0000 + 32 * (s.life.archive % 4096)) entry
  { s with life := { s.life with archive := s.life.archive + 1 } }

/-! ## Counts per channel (15 Table 15-6) -/

/-- One corrected error of a channel: its total, and the largest count in one hour. -/
def State.lifeCe (s : State) (ch : Nat) : State :=
  let c := s.channel ch
  let hour := s.now / 3_600_000_000_000
  let n := if c.hour = hour then c.ceHour + 1 else 1
  let s := s.setChannel ch { c with ceHour := n, hour := hour }
  (s.lifeAdd (0x3000 + 32 * ch) 8 1).lifeMax (0x3000 + 32 * ch + 12) 4 n

/-- One uncorrectable error of a channel. -/
def State.lifeUe (s : State) (ch : Nat) : State := s.lifeAdd (0x3000 + 32 * ch + 8) 4 1

/-! ## Seconds and histograms (15 R422, R423) -/

/-- Seconds of a temperature sensor in its bin; `t` in 0.01 °C above −40 °C. -/
def tempBin (t : Nat) : Nat := min 31 (t / 500)

/-- Depth of a droop in hundredths of a percent of the mode's voltage: its bin; none below 1 %. -/
def droopBin (depth : Nat) : Option Nat := if depth < 100 then none else some (min 15 (depth / 100 - 1))

/-- Count a droop of a CD. -/
def State.countDroop (s : State) (die depth : Nat) : State :=
  match droopBin depth with
  | some k => s.lifeAdd (0x2000 + 128 * die + 8 * k) 8 1
  | none => s

end Sys2Proof.Machine
end

