-- ==== Sys2Proof/Machine/HbmOps.lean ====
section
/-! DEFINITION. HBM accesses at the controllers: ECC outcomes, poison, held accesses, the patrol scrubber (10 R251, R258–R266). -/

namespace Sys2Proof.Machine

/-- The node address of a channel-local address: the inverse of the channel function (10 R252). -/
def State.hbmAddress (s : State) (ch loc : Nat) : Option Nat :=
  let base := s.spreadCount / 12 * 0x400_0000
  let spread := decide (loc < base)
  let w := (if spread then loc else loc - base) / 256
  let t := 3 * w + (ch / 16 % 3 + 3 - w % 3) % 3
  let b := if spread then 6 else 4
  let x := if spread then ch / 48 * 16 + ch % 16 else ch % 16
  let p := (t * 2 ^ b + (x ^^^ xorFold b 20 t)) * 256 + loc % 256
  let r := (List.range 288).find? fun r =>
    let e := s.reg .regionTable (0x1000 + 8 * r)
    bit e 0 == spread && (spread || fld e 2 2 == ch / 48) && fld e 8 9 == p / 2 ^ 30
  r.map fun r => r * 2 ^ 30 + p % 2 ^ 30

/-! ## ECC outcomes (10 R260, R261) -/

/-- What the Reed–Solomon code of a sector finds. -/
inductive Ecc where
  | clean | corrected | uncorrectable
  deriving DecidableEq, Repr

/-- The wrong symbols of a codeword: its places whose errors do not cancel. -/
def symbolErrors (e : SectorErrors) : Nat :=
  ((List.range 36).filter fun i => ((e.filter fun x => x.1.val == i).foldl (fun v x => v ^^^ x.2) 0) != 0).length

/-- One wrong symbol is corrected, two are detected; of more the spec does not say what the code finds: that is a free value, and so
is the data where it finds no error or corrects one (10 R260). -/
def eccOf (e : SectorErrors) (free : Nat) : Ecc :=
  match symbolErrors e with
  | 0 => .clean
  | 1 => .corrected
  | 2 => .uncorrectable
  | _ => if free % 3 = 0 then .clean else if free % 3 = 1 then .corrected else .uncorrectable

/-- More symbols of a codeword are wrong than the code is sure to detect. -/
def beyondCode (e : SectorErrors) : Bool := decide (3 ≤ symbolErrors e)

/-- A corrected error: CH_CE, HBM_CE and the lifetime record. -/
def State.ceAt (s : State) (a : Nat) : State :=
  let cl := s.decodeHbm (a / 32 * 32)
  ((s.addSat (groupOf cl.1) (chOff cl.1 0x108) 0 32 1).report 0x01 none (hbmDetail cl.1 cl.2)).lifeCe cl.1

/-- An uncorrectable error: CH_UE, CH_ERR_ADDR with its cause, HBM_UE and the lifetime record. -/
def State.ueAt (s : State) (a cause : Nat) : State :=
  let ch := (s.decodeHbm (a / 32 * 32)).1
  ((s.addSat (groupOf ch) (chOff ch 0x110) 0 32 1).hbmUe a cause).lifeUe ch

/-- One sector of an access: its address, the bytes of it that the access covers, its wrong symbols, and what the code finds. -/
structure SectorAccess where
  addr   : Nat
  bytes  : Nat
  wild   : Bool
  found  : Ecc

/-- The sectors of an access. -/
def State.sectorsOf (s : State) (a n : Nat) (errors : List SectorErrors) : List SectorAccess :=
  (unitsOf a n).zipIdx.map fun u =>
    let e := errors.getD u.2 []
    { addr := u.1.1, bytes := u.1.2, wild := beyondCode e, found := eccOf e (Config.freeWord (s.draws + u.2)).toNat }

/-- Bytes of a sector that the code has lost: free values. -/
def State.lostBytes (s : State) (a n : Nat) : List Byte :=
  (List.range n).map fun i => BitVec.ofNat 8 (Config.freeByte s.draws (a + i))

/-- The read finds an uncorrectable error in a sector not yet poisoned, on a channel that serves it. -/
def State.freshUe (s : State) (u : SectorAccess) : Bool :=
  decide (u.found = .uncorrectable) && !s.lostAt u.addr && !s.poisonAt u.addr

/-- What a read delivers of one sector. The data of an uncorrectable sector is a free value. -/
def State.sectorData (s : State) (u : SectorAccess) : List Byte :=
  if s.lostAt u.addr then List.replicate u.bytes 0xFF
  else if s.freshUe u || u.wild then s.lostBytes u.addr u.bytes
  else s.bytesAt u.addr u.bytes

/-- A sector is delivered as poisoned. -/
def State.sectorPoison (s : State) (u : SectorAccess) : Bool := s.lostAt u.addr || s.poisonAt u.addr || s.freshUe u

/-- A sector that the code has corrected wrongly is rewritten with what it took for its data. -/
def State.rewriteWild (s : State) (u : SectorAccess) : State :=
  if u.wild && decide (u.found = .corrected) && !s.lostAt u.addr then
    s.putBytes (u.addr / 32 * 32) (s.lostBytes (u.addr / 32 * 32) 32) else s

/-- What a read's outcome at one sector leaves. -/
def State.afterSector (s : State) (u : SectorAccess) (cause : Nat) : State :=
  if s.lostAt u.addr then s
  else match u.found with
    | .clean => s
    | .corrected => (s.ceAt u.addr).rewriteWild u
    | .uncorrectable => if s.poisonAt u.addr then s else s.ueAt u.addr cause

/-- The free values that an access with lost data has used. -/
def State.drawnFor (s t : State) (us : List SectorAccess) : State :=
  if us.any fun u => u.wild || s.freshUe u then t.drawnN (us.length + 1) else t

/-- A controller serves a read (10 R261, R263). -/
def State.serveRead (s : State) (a n : Nat) (errors : List SectorErrors) : State :=
  let us := s.sectorsOf a n errors
  let t := us.foldl (fun (t : State) u => t.afterSector u 0) s
  ((s.drawnFor t us).afterRead a n).answers 0 (us.flatMap s.sectorData) (us.any s.sectorPoison)

/-- What the read of a read-modify-write leaves at one sector that unpoisoned data covers in part. -/
def State.mergeSector (before s : State) (u : SectorAccess) : State :=
  if u.bytes = 32 || before.lostAt u.addr || before.poisonAt u.addr then s
  else match u.found with
    | .clean => s
    | .corrected => s.ceAt u.addr
    | .uncorrectable => (s.putPoison u.addr true).ueAt u.addr 2

/-- The bytes that a partial write leaves of a sector whose data the code has lost without finding it out are free values. -/
def State.mergeLost (s : State) (u : SectorAccess) : State :=
  if u.bytes = 32 || s.lostAt u.addr || !u.wild then s
  else s.putBytes (u.addr / 32 * 32) (s.lostBytes (u.addr / 32 * 32) 32)

/-- A controller serves a write (10 R254, R261, R263). -/
def State.serveWrite (s : State) (a : Nat) (data : List Byte) (poison : Bool) (errors : List SectorErrors) : State :=
  let us := s.sectorsOf a data.length errors
  let t := (us.foldl (fun (t : State) u => t.mergeLost u) s).memWrite a data poison
  let t := if poison then t else us.foldl (fun (t : State) u => s.mergeSector t u) t
  (s.drawnFor t us).answers 0

/-- A controller serves an access. -/
def State.serve (s : State) (h : HeldAccess) : State :=
  if h.write then s.serveWrite h.addr h.data h.poison h.errors else s.serveRead h.addr h.bytes h.errors

/-! ## Accesses that wait (10 R251, R259, R263) -/

/-- The pseudo-channels of a channel that an access uses (10 R253). -/
def State.pseudos (s : State) (ch : Nat) (h : HeldAccess) : List Nat :=
  [0, 1].filter fun i => (unitsOf h.addr h.bytes).any fun u =>
    let cl := s.decodeHbm u.1
    cl.1 == ch && (sectorPlace cl.2).pseudo == i

/-- Sixty-four accesses wait already for a pseudo-channel that an access uses. -/
def State.heldFull (s : State) (ch : Nat) (h : HeldAccess) : Bool :=
  (s.pseudos ch h).any fun i => decide (64 ≤ ((s.channel ch).held.filter fun x => (s.pseudos ch x).contains i).length)

/-- The channel that an access waits at. -/
def State.heldOn (s : State) (h : HeldAccess) : Option Nat :=
  ((piecesOf h.addr h.bytes).map fun p => (s.decodeHbm p.1).1).find? s.chWaits

/-- An access joins the queue of a channel. -/
def State.holdAt (s : State) (ch : Nat) (h : HeldAccess) : State :=
  s.setChannel ch { s.channel ch with held := (s.channel ch).held ++ [h] }

/-- An access reaches the controllers: it waits at the decoders while a region table waits to come into force, or at a channel that takes
no access now, or it is served. -/
def State.hbmAccess (s : State) (h : HeldAccess) : State :=
  if h.bytes = 0 ∨ hbmEnd < h.addr + h.bytes then s.answers 1
  else if s.commitPending .regionTable then { s with atDecoder := s.atDecoder ++ [h] }.answers 4
  else match s.heldOn h with
    | some ch => if s.heldFull ch h then s.answers 5 else (s.holdAt ch h).answers 4
    | none => s.serve h

/-- The accesses held at the decoders go on (10 R251). -/
def State.serveDecoders (s : State) : State :=
  s.atDecoder.foldl (fun (s : State) h => s.hbmAccess h) { s with atDecoder := [] }

/-- The order in which a controller serves what waits: the high-priority class first, each class in arrival order, and a normal access
at least once in every 16 (10 R255, R266); `run` counts the high ones since the last normal one. -/
def classOrder : Nat → Nat → List HeldAccess → List HeldAccess → List HeldAccess
  | _, _, [], ns => ns
  | _, _, hs, [] => hs
  | 0, _, hs, ns => hs ++ ns
  | fuel + 1, run, h :: hs, n :: ns =>
    if run = 15 then n :: classOrder fuel 0 (h :: hs) ns else h :: classOrder fuel (run + 1) hs (n :: ns)

/-- The accesses that wait at a channel, in the order in which they are served. -/
def Channel.order (c : Channel) : List HeldAccess :=
  classOrder c.held.length 0 (c.held.filter (·.high)) (c.held.filter fun h => !h.high)

/-- The accesses that waited at a channel are served (10 R266); one that also needs a channel that takes none now waits there. -/
def State.serveHeld (s : State) (ch : Nat) : State :=
  (s.channel ch).order.foldl (fun (s : State) h =>
    match s.heldOn h with
    | some c => s.holdAt c h
    | none => s.serve h) (s.setChannel ch { s.channel ch with held := [] })

/-- A channel at the boundary of its group's commit: an ACTIVE one writes its buffers and closes its rows; another keeps its configuration
until it is ACTIVE (10 R259). -/
def State.settleChannel (s : State) (ch : Nat) : State :=
  if s.chState ch = 0 then s.quietChannel ch else s.setChannel ch { s.channel ch with cfg := some (s.mcCfg ch) }

/-! ## The patrol scrubber (10 R262) -/

/-- The scrubber reads the next sector of a channel; it marks an uncorrectable one poisoned. -/
def State.scrubSector (s : State) (ch : Nat) (errors : SectorErrors) : State :=
  let c := s.channel ch
  let t := s.setChannel ch { c with scrub := (c.scrub + 32) % 0x6000_0000 }
  match s.hbmAddress ch c.scrub with
  | none => t
  | some a =>
    let us := s.sectorsOf a 32 [errors]
    us.foldl (fun (u : State) x =>
      let v := u.afterSector x 1
      if s.freshUe x then v.putPoison a true else v) (s.drawnFor t us)

end Sys2Proof.Machine
end

