-- ==== Sys2Proof/Machine/TgOps.lean ====
section
/-! DEFINITION. The traffic generator and checker of a memory channel (10 R268–R270). -/

namespace Sys2Proof.Machine

/-! ## The patterns (10 Table 10-8) -/

/-- The settings of a run. -/
structure TgSetup where
  pattern : Nat
  random  : Bool
  stop    : Bool
  check   : Bool
  passes  : Nat
  first   : Nat
  last    : Nat
  seed    : Word

/-- The settings that the registers hold; PASSES 0 means 1. -/
def State.tgSetup (s : State) (ch : Nat) : TgSetup :=
  let v := s.reg (groupOf ch) (tgOff ch 0x1000)
  { pattern := fld v 1 3, random := bit v 4, stop := bit v 5, check := bit v 6
    passes := if fld v 8 8 = 0 then 1 else fld v 8 8
    first := s.fldAt (groupOf ch) (tgOff ch 0x1008) 0 31, last := s.fldAt (groupOf ch) (tgOff ch 0x1010) 0 31
    seed := s.reg (groupOf ch) (tgOff ch 0x1018) }

/-- The sectors of a pass in their order, up to the granule of TG_END inclusive. Which rows of HAMMER are victims, and the random order,
are free values. -/
def TgSetup.sectors (t : TgSetup) (order : Nat) : List Nat :=
  let all := (List.range ((t.last + 256 - t.first) / 32)).map fun i => t.first + 32 * i
  if t.pattern = 2 then
    sortBy (fun l => (48 * (sectorPlace l).pseudo + (sectorPlace l).bank) * 2 ^ 31 + l)
      (all.filter fun l => Config.victimRow t.seed (sectorPlace l).row)
  else if t.pattern ≤ 1 && t.random then sortBy (Config.randomOrder order) all
  else all

/-- The data of a sector. The stream of the LFSR is a free value; WALK leaves the last word of its walking zero. -/
def TgSetup.data (t : TgSetup) (loc : Nat) : List Byte :=
  match t.pattern with
  | 0 => (List.range 4).flatMap fun i => leBytes 8 (loc + 8 * i)
  | 3 => leBytes 32 (2 ^ 255 - 1)
  | _ => (List.range 4).flatMap fun i => leBytes 8 (Config.lfsr t.seed (loc / 8 + i)).toNat

/-- One sector written or read. -/
structure TgStep where
  write : Bool
  pass  : Nat
  loc   : Nat

/-- A run: each pass is written and then read back; a read-check and READ_ECC only read. -/
def TgSetup.steps (t : TgSetup) (order : Nat) : List TgStep :=
  (List.range t.passes).flatMap fun p =>
    (if t.check || t.pattern == 4 then [] else (t.sectors order).map fun l => { write := true, pass := p, loc := l })
      ++ (t.sectors order).map fun l => { write := false, pass := p, loc := l }

/-! ## The checker (10 R269) -/

/-- The first failing sector of a run, as TG_ERR_ADDR and TG_ERR_DIFF show it. -/
structure TgFailure where
  addr : BitVec 31
  word : BitVec 2
  ecc  : Bool
  diff : Word
  deriving DecidableEq, Repr

/-- A run so far: the state, the failing sectors, and the first failure with its pass. -/
structure TgRun where
  s     : State
  errs  : Nat := 0
  first : Option (Nat × TgFailure) := none

/-- The wrong symbols that a step meets. -/
def TgStep.errors (x : TgStep) (faults : List TgFault) : SectorErrors :=
  (faults.filter fun f => f.pass == x.pass && f.addr.toNat / 32 * 32 == x.loc).flatMap (·.errors)

/-- The first of the four words of a sector that differs from the pattern, with the difference. -/
def firstDiff (got want : List Byte) : Option (Nat × Word) :=
  (List.range 4).findSome? fun i =>
    let v := BitVec.ofNat 64 (byteFld got (8 * i) 8) ^^^ BitVec.ofNat 64 (byteFld want (8 * i) 8)
    if v = 0 then none else some (i, v)

/-- What the checker finds at a sector: an ECC outcome, whose word and difference are free values, or a data mismatch. -/
def State.tgCheck (s : State) (ch : Nat) (t : TgSetup) (loc : Nat) (e : SectorErrors) : Option TgFailure :=
  let found := eccOf e (Config.freeWord s.draws).toNat
  let wrong := decide (found = .uncorrectable) || (t.pattern == 4 && decide (found = .corrected))
  match s.hbmAddress ch loc with
  | none => none
  | some a =>
    if wrong then
      some { addr := BitVec.ofNat 31 loc, word := (Config.freeWord (s.draws + 1)).setWidth 2, ecc := true, diff := Config.freeWord (s.draws + 2) }
    else if t.pattern = 4 then none
    else (firstDiff (if beyondCode e then s.lostBytes a 32 else s.bytesAt a 32) (t.data loc)).map fun d =>
      { addr := BitVec.ofNat 31 loc, word := BitVec.ofNat 2 d.1, ecc := false, diff := d.2 }

/-- The generator writes a sector. -/
def State.tgWrite (s : State) (ch : Nat) (t : TgSetup) (loc : Nat) : State :=
  match s.hbmAddress ch loc with
  | none => s
  | some a => (unitsOf a 32).foldl (fun s u => s.writePoison false u) (((s.touchSector true ch loc)).putBytes a (t.data loc))

/-- One step of a run; with STOP_ON_ERR nothing follows the first failure. -/
def TgRun.step (ch : Nat) (t : TgSetup) (faults : List TgFault) (r : TgRun) (x : TgStep) : TgRun :=
  if t.stop && r.first.isSome then r
  else if x.write then { r with s := r.s.tgWrite ch t x.loc }
  else
    let s := r.s.touchSector false ch x.loc
    let e := x.errors faults
    let s' := if e.isEmpty then s else s.drawnN 3
    match s.tgCheck ch t x.loc e with
    | none => { r with s := s' }
    | some f => { s := s', errs := r.errs + 1, first := some (r.first.getD (x.pass, f)) }

/-- The passes of a run completed before it stopped at a failure. -/
def TgRun.passes (r : TgRun) (t : TgSetup) (done : Nat) : Nat :=
  match r.first with
  | some p => if t.stop then p.1 else done
  | none => done

/-- The registers after a run: STATE, PASS_DONE, ERRS, GO and the first failure. -/
def TgRun.settle (r : TgRun) (ch state done : Nat) : State :=
  let b := groupOf ch
  let s := (r.s.putN b (tgOff ch 0x1028) (state + done * 2 ^ 8 + sat32 r.errs * 2 ^ 32)).putBit b (tgOff ch 0x1000) 0 false
  match r.first with
  | some (_, f) =>
    (s.putN b (tgOff ch 0x1030) (f.addr.toNat + f.word.toNat * 2 ^ 32 + (if f.ecc then 2 ^ 34 else 0) + 2 ^ 63)).putReg
      b (tgOff ch 0x1038) f.diff
  | none => s

/-- A generator ends its run (10 R269). -/
def State.endTg (s : State) (ch : Nat) (faults : List TgFault) (order : Nat) : State :=
  if s.tgState ch ≠ 1 then s
  else
    let t := s.tgSetup ch
    let r := (t.steps order).foldl (TgRun.step ch t faults) { s := s }
    r.settle ch 2 (r.passes t t.passes)

/-! ## ABORT and TG_CTRL (10 R268, R270) -/

/-- The wrong symbols that an aborted run met: free values, of up to three symbols at some sectors. -/
def State.freeFaults (s : State) (t : TgSetup) (n : Nat) : List TgFault :=
  (List.range n).map fun i =>
    let w := fun k => (Config.freeWord (s.draws + 6 * i + k)).toNat
    { pass := w 0 % t.passes, addr := BitVec.ofNat 31 (w 1)
      errors := [(0, BitVec.ofNat 8 (w 2)), (1, BitVec.ofNat 8 (w 3)), (2, BitVec.ofNat 8 (w 4))] }

/-- ABORT of a RUNNING generator: the steps that it has made are a free number of the first ones. -/
def State.abortTg (s : State) (ch : Nat) : State :=
  if s.tgState ch ≠ 1 then s
  else
    let t := s.tgSetup ch
    let steps := t.steps s.draws
    let made := (Config.freeWord s.draws).toNat % (steps.length + 1)
    let n := (Config.freeWord (s.draws + 1)).toNat % (steps.length + 1)
    let faults := { s with draws := s.draws + 2 }.freeFaults t n
    let r := (steps.take made).foldl (TgRun.step ch t faults) { s := s.drawnN (6 * n + 2) }
    r.settle ch 3 (r.passes t (if steps.isEmpty then 0 else made * t.passes / steps.length))

/-- A write to TG_CTRL: `v` is the whole register after the write. While RUNNING, a write that changes any field but ABORT, or clears GO, is
discarded whole (00 R15, 10 R270). -/
def State.writeTgCtrl (s : State) (ch : Nat) (v : Word) : State :=
  let b := groupOf ch
  let new := v &&& 0xFF7F
  if s.tgState ch = 1 then
    if new ≠ s.reg b (tgOff ch 0x1000) then s.reject b
    else if bit v 16 then s.abortTg ch else s
  else if 5 ≤ fld v 1 3 then s.reject b
  else if bit v 0 then
    (if s.chState ch ≠ 2 ∨ s.fldAt b (tgOff ch 0x1010) 0 31 < s.fldAt b (tgOff ch 0x1008) 0 31 then s.reject b
     else
      let s := (s.putReg b (tgOff ch 0x1000) new).putN b (tgOff ch 0x1028) 1
      (s.putN b (tgOff ch 0x1030) 0).putN b (tgOff ch 0x1038) 0)
  else s.putReg b (tgOff ch 0x1000) new

end Sys2Proof.Machine
end

