-- ==== Sys2Proof/Machine/RegOps.lean ====
section
/-! DEFINITION. Register writes, commits and their boundaries (00 R12–R17). -/

namespace Sys2Proof.Machine

/-! ## Register writes -/

/-- The bits of a register that a write of one width carries. -/
def carried (wide high : Bool) : Word := if wide then ~~~0 else if high then 0xFFFF_FFFF_0000_0000 else 0xFFFF_FFFF

/-- A write to the W1C bits of a register: each 1 clears its bit; clearing VALID or ERR, bit 63, releases the capture's other
fields (00 Table 0-3). -/
def clearBits (old v : Word) (w1c : Nat) : Word :=
  let m := v &&& BitVec.ofNat 64 w1c
  if w1c = 2 ^ 63 then (if m = 0 then old else 0) else old &&& ~~~m

/-- FS_CFG of a FAT source keeps LOG and NOTIFY at 1 (15 R424). -/
def keepFat (b : Block) (off : Nat) (v : Word) : Word :=
  match b with
  | .hub => if 0x1000 ≤ off ∧ off < 0x1200 ∧ sourceClass ((off - 0x1000) / 8) = 3 then v ||| 3 else v
  | _ => v

/-- A written tide register counts as written since the last CFG_COMMIT (02 R512). -/
def State.markDirty (s : State) (b : Block) (key : Nat) : State :=
  if b = .tide then { s with dirty := Tab.set false s.dirty key true } else s

/-- What else a write to an RW register does: a wait that is met now sets WAKE_CAUSE (04 R105), and a comparator that is
disabled may be reached again (02 R65). -/
def State.afterWrite (s : State) (b : Block) (off : Nat) : State :=
  match b with
  | .core c => if off = 0x020 ∨ (0x040 ≤ off ∧ off < 0x0C0) then s.checkWait c else s
  | .tide =>
    if off = 0x280 then
      { s with tide := { s.tide with reached := s.tide.reached &&& (s.reg .tide 0x280).setWidth 16 } }
    else s
  | _ => s

/-- The openings of a quay, whose writes take effect 100 ns later (12 R323). -/
def isOpening (b : Block) (off : Nat) : Bool :=
  match b with
  | .quay _ => decide (0x1_0000 ≤ off)
  | _ => false

/-- What a write to a register settles first: a port's token bucket before its rate changes (11 R288, R309). -/
def State.beforeWrite (s : State) (b : Block) (off : Nat) : State :=
  match b with
  | .port p => if off = 0x018 then s.settleBucket p else s
  | _ => s

/-- A write to a register without a behaviour of its own: its RWS or RW fields, and its W1C bits (00 R13–R17). -/
def State.writePlain (s : State) (r : RegAt) (wide high : Bool) (value : Word) : State :=
  let old := if r.row.rws then s.getShadow r.key else s.getReg r.key
  let wm := BitVec.ofNat 64 r.row.wm
  let merged := mergeHalf old wide high value
  let new := keepFat r.block r.off ((old &&& ~~~wm) ||| (merged &&& wm))
  let part := carried wide high
  if r.row.w1c ≠ 0 then
    s.setReg r.key (clearBits (s.getReg r.key) (mergeHalf 0 wide high value &&& part) r.row.w1c)
  else if !encodingOk r.block r.off new then s.reject r.block
  else if (old ^^^ new) &&& s.busyMask r.block r.off ≠ 0 then s.reject r.block
  else if r.row.rws then (s.setShadow r.key new).markDirty r.block r.key
  else if isOpening r.block r.off then s.setLagged r.key new
  else ((s.beforeWrite r.block r.off).setReg r.key new).afterWrite r.block r.off

/-- PORT_CTRL (11 R284, R286). -/
def State.writePortCtrl (s : State) (p : Nat) (v : Word) : State :=
  let s := if bit v 0 then s.retrainPort p else s
  if bit v 1 then retuneLane p (fld v 2 3) s else s

/-- Q_CTRL (04 Table 4-10): FLUSH alone acts, or else SKIP. -/
def State.writeQCtrl (s : State) (c q : Nat) (v : Word) : State :=
  if bit v 2 then s.flushQueue c q else if bit v 1 then s.skipQueue c q else if bit v 0 then s.resumeQueue c q else s

/-- RANK_FLUSH: operations that start after it read the rank table again (12 R335). -/
def State.flushRanks (s : State) (quay : Nat) : State := { s with ranks := Tab.dropKeys s.ranks fun k => k / 2 ^ 19 == quay }

/-! ## Commits -/

/-- The RWS registers of a block that hold a value other than reset, in force or in shadow. -/
def State.rwsKeys (s : State) (b : Block) : List Nat :=
  ((Tab.keys s.shadow) ++ (Tab.keys s.regs).filter fun k => !(Tab.keys s.shadow).contains k).filter fun k =>
    match regAt k with
    | some r => r.row.rws && decide (r.block = b)
    | none => false

/-- The RWS registers whose shadows a commit captures (00 R14): those of the tables' rows of at most 32 registers, and the
others that do not hold their reset value. -/
def State.commitKeys (s : State) (b : Block) : List Nat :=
  let all := (blockRows b).flatMap fun r =>
    if r.rws && decide (r.n ≤ 32) then (List.range r.n).map fun i => blockBase b + r.off + r.stride * i else []
  all ++ (s.rwsKeys b).filter fun k => !all.contains k

/-- CFG_COMMIT (00 R14): every RWS shadow of the block is captured; discarded with CFG_REJECT while an earlier commit waits,
or where a rule of the block's chapter refuses it. -/
def State.commitBlock (s : State) (b : Block) : State :=
  if (commitOff b).isNone then s
  else if s.commitPending b || !s.commitOk b then s.reject b
  else
    let vs := (s.commitKeys b).map fun k => (k, s.getShadow k)
    let s := if b = .tide then { s with dirty := [] } else s
    { s with commits := Tab.set (0, []) s.commits (commitAddr b) (s.now + 1, vs) }

/-- The tide of a block's waiting commit. -/
def State.commitTide (s : State) (b : Block) : Nat := (Tab.get (0, []) s.commits (commitAddr b)).1 - 1

/-- The next whole multiple of a period after a mark. -/
def nextMultiple (mark period : Nat) : Nat := (mark / period + 1) * period

/-- The block stands at its operation boundary. A port's is its entry into TRAINING alone (11 R308), which applies its commit
itself. -/
def State.atBoundary (s : State) (b : Block) : Bool :=
  match b with
  | .tide => decide (nextMultiple (s.commitTide b) 1000 ≤ s.now)
  | .core c => s.coreEmpty c
  | .mxe c e => (s.queue c e).running.isEmpty
  | .fle c => (s.queue c 2).running.isEmpty
  | .sv c => (s.queue c 3).running.isEmpty
  | .svd _ => [0, 1, 2, 3, 4, 5, 6, 7].all fun r => s.reg b (0x120 + 0x40 * r) == s.reg b (0x110 + 0x40 * r)
  | .port _ => false
  | .calendar _ => decide (nextMultiple (s.commitTide b) 102_400 ≤ s.now)
  | .power =>
    if s.role = 0 then decide (nextMultiple (s.commitTide b) 1000 ≤ s.now)
    else decide (s.commitTide b + 2_000_000_000 ≤ s.now)
  | .regionTable => s.channels.all fun e => e.2.held.isEmpty
  | _ => true

/-- The captured values go into force (00 R14): the region table by R251; the tide block's role and parent take over from the
node's automatic choice (17 R466). -/
def State.putInForce (s : State) (b : Block) : State :=
  match b with
  | .regionTable =>
    let vs := (Tab.get (0, []) s.commits (commitAddr b)).2
    (({ s with commits := Tab.set (0, []) s.commits (commitAddr b) (0, []) }).applyTable vs).serveDecoders
  | .tide =>
    let s := s.applyCommit (commitAddr b)
    ({ s with tide := { s.tide with committed := true } }).useParent (s.fldAt .tide 0x010 4 4)
  | .stack k =>
    let all := (List.range 16).map fun c => 16 * k + c
    let s := all.foldl (fun (s : State) c => s.settleChannel c) s
    let s := s.applyCommit (commitAddr b)
    (all.filter fun c => s.chState c == 0).foldl (fun (s : State) c => s.serveHeld c) s
  | _ => s.applyCommit (commitAddr b)

/-- A block reaches its operation boundary. -/
def State.boundary (s : State) (b : Block) : State :=
  if s.commitPending b && s.atBoundary b then s.putInForce b else s

/-! ## Any register write -/

/-- The requester is the harbourmaster. -/
def isHarbour (w : Sender) : Bool := w.endpoint.val == 320

/-- A write to a register with a command of its own: the register of the block at the offset. -/
def State.writeOwn (s : State) (w : Sender) (b : Block) (off : Nat) (wide high : Bool) (v : Word) : State :=
  let low := wide || !high
  let fresh := mergeHalf 0 wide high v
  let merged := mergeHalf (s.reg b off) wide high v
  if commitOff b = some off then (if low then s.commitBlock b else s)
  else match b with
  | .tide =>
    if off = 0x020 then s.writeStep (fld merged 0 32)
    else
      let i := (off - 0x1_0000) / 32
      let k := (off - 0x1_0000) / 8 % 4
      s.writeEntry i k (k == 0 && low) (mergeHalf ((s.entry i).word k) wide high v)
  | .core c =>
    let q := (off - 0x100) / 0x40
    if off = 0x000 then (if isHarbour w && low then s.coreRequest c (fld v 0 2) else s)
    else if !low then s
    else if (off - 0x100) % 0x40 = 0x10 then s.writeQTail c q (fld fresh 0 16)
    else if (off - 0x100) % 0x40 = 0x30 then s.enterChain c q (fld fresh 0 48)
    else s.writeQCtrl c q fresh
  | .sv c => s.writeQuery c merged.toNat low
  | .svd d => if low then s.writeRingTail d ((off - 0x110) / 0x40) (fld fresh 0 16) else s
  | .stack k => s.writeTgCtrl (16 * k + (off - 0x1000) / 0x80) merged
  | .port p => if low then s.writePortCtrl p fresh else s
  | .router =>
    if off = 0x000 then s.writeBank wide high v else s.writeTagFilter ((off - 0x1_0000) / 8) wide high v
  | .routeTable => s.writeRoute (off / 8) wide high v
  | .quay q =>
    if !low then s else if off = 0x028 then s.writeQctl q (fld fresh 0 21) else s.flushRanks q
  | .collective q => if low then s.writeGctl q (fld fresh 0 15) else s
  | _ => s

/-- A write to the register at an address of the control windows; one without a register is ignored (00 R12). -/
def State.writeReg (s : State) (w : Sender) (addr : Nat) (wide : Bool) (v : Word) : State :=
  let high := !wide && addr % 8 == 4
  match regAt (addr / 8 * 8) with
  | none => s
  | some r =>
    if r.row.own || commitOff r.block = some r.off then s.writeOwn w r.block r.off wide high v
    else s.writePlain r wide high v

/-! ## The error of an access -/

/-- The requester's error for an access that the node does not accept: nothing is written or returned (00 R12, 10 R246); a
hart takes its access fault. -/
def State.busError (s : State) (w : Sender) (write : Bool) (addr : Nat) : State :=
  (s.answers 1).trapSender w (if write then 7 else 5) addr

/-- A register access has a width and alignment that the node accepts (00 R12). -/
def regAligned (addr bytes : Nat) : Bool := (bytes == 8 && addr % 8 == 0) || (bytes == 4 && addr % 4 == 0)

end Sys2Proof.Machine
end

