-- ==== Sys2Proof/Machine/Bus.lean ====
section
/-! DEFINITION. Reads and writes of the node's own address space by any requester (10 R245–R247, 12 R315, 14 R376–R386). -/

namespace Sys2Proof.Machine

/-- The address of a berth's page. -/
def berthPageOf (a : Nat) : Nat × Nat := ((a - 0x0E80_0000_0000) / 0x1000 % 256, a % 0x1000)

/-- An address of the berth window that a berth's page covers. -/
def inBerths (a : Nat) : Bool := decide (0x0E80_0000_0000 ≤ a) && decide (a < 0x0E80_0010_0000)

/-! ## The berth page (14 Table 14-2) -/

/-- B_STATUS. -/
def State.berthStatus (s : State) (b : Nat) : Nat :=
  let r := s.berth b
  r.msgs.length + r.head * 2 ^ 4 + (if r.aborted then 2 ^ 8 else 0) + (if r.noticeLost then 2 ^ 9 else 0)
    + (if s.ownerLive r.owner then 2 ^ 10 else 0) + (if r.clearing then 2 ^ 11 else 0)

/-- B_CFG. -/
def Berth.cfg (r : Berth) : Nat := r.owner + (if r.enable then 2 ^ 9 else 0)

/-- B_COUNTS. -/
def Berth.counts (r : Berth) : Nat := r.posted % 2 ^ 32 + r.rejected % 2 ^ 16 * 2 ^ 32 + r.discarded % 2 ^ 16 * 2 ^ 48

/-- The oldest message, or zeros (14 R380). -/
def Berth.headMsg (r : Berth) : List Byte := r.msgs.headD (List.replicate 64 0)

/-- The message in slot `i`, or zeros. -/
def Berth.slot (r : Berth) (i : Nat) : List Byte := (r.msgs[(i + 8 - r.head % 8) % 8]?).getD (List.replicate 64 0)

/-- An access to a slot of 64 bytes has a width and alignment that the page accepts. -/
def slotAccess (off n : Nat) : Bool := regAligned off n || (n == 64 && off % 64 == 0)

/-- `n` bytes of a register at a byte address. -/
def regBytes (v : Word) (a n : Nat) : List Byte := ((leBytes 8 v.toNat).drop (a % 8)).take n

/-- Read a berth page: none where the requester gets an error. -/
def State.readBerth (s : State) (w : Sender) (a n : Nat) : Option (List Byte) :=
  let (b, off) := berthPageOf a
  let r := s.berth b
  if !inBerths a then none
  else if off < 0x40 then (if slotAccess off n then some (List.replicate n 0) else none)
  else if off < 0x60 then
    (if regAligned off n then
      let v := if off < 0x48 then s.berthStatus b else if off < 0x50 then 0 else if off < 0x58 then r.cfg else r.counts
      some (regBytes (BitVec.ofNat 64 v) off n)
     else none)
  else if 0x100 ≤ off ∧ off < 0x140 then
    (if slotAccess off n && s.ownsBerth b w then some ((r.headMsg.drop (off % 64)).take n) else none)
  else if 0x200 ≤ off ∧ off < 0x400 then
    (if slotAccess off n && s.ownsBerth b w then some (((r.slot ((off - 0x200) / 64)).drop (off % 64)).take n) else none)
  else none

/-- A write to B_CFG (14 R400): OWNER stands while the berth is not empty. -/
def State.writeBerthCfg (s : State) (b v : Nat) : State :=
  let r := s.berth b
  if r.msgs.isEmpty ∨ v % 512 = r.owner then s.setBerth b { r with owner := v % 512, enable := v.testBit 9 } else s

/-- A write to the W1C bits of B_STATUS. -/
def State.clearBerthBits (s : State) (b v : Nat) : State :=
  let r := s.berth b
  s.setBerth b { r with aborted := r.aborted && !v.testBit 8, noticeLost := r.noticeLost && !v.testBit 9 }

/-- Write a berth page: none where the writer gets an error. -/
def State.writeBerth (s : State) (w : Sender) (a : Nat) (data : List Byte) : Option State :=
  let (b, off) := berthPageOf a
  let n := data.length
  let code := senderCode w
  if !inBerths a then none
  else if off < 0x40 then
    (if n = 64 ∧ off = 0 then
      (match s.completePost b code (.whole data) with
       | (s, true) => some s
       | (_, false) => none)
     else if n = 8 ∧ off % 8 = 0 then
      (if off < 0x38 then some (s.composeWord code (off / 8) (BitVec.ofNat 64 (leNat data)))
       else match s.completePost b code (.word (BitVec.ofNat 64 (leNat data))) with
        | (s, true) => some s
        | (_, false) => none)
     else none)
  else if !regAligned off n then none
  else if off < 0x48 then some (s.clearBerthBits b (leNat data * 2 ^ (8 * (off % 8))))
  else if off < 0x50 then (if s.ownsBerth b w then some (s.takeMsg b) else none)
  else if off < 0x58 then
    (if isHarbour w then
      some (s.writeBerthCfg b (mergeHalf (BitVec.ofNat 64 (s.berth b).cfg) (n == 8) (off % 8 == 4) (BitVec.ofNat 64 (leNat data))).toNat)
     else none)
  else if off < 0x60 then some s
  else if (0x100 ≤ off ∧ off < 0x140) ∨ (0x200 ≤ off ∧ off < 0x400) then some s
  else none

/-- The state after a post that was rejected: REJECTED counts, and the compose buffer is cleared. -/
def State.afterRejected (s : State) (w : Sender) (a : Nat) (data : List Byte) : State :=
  let (b, off) := berthPageOf a
  if inBerths a ∧ off < 0x40 ∧ (data.length = 64 ∧ off = 0 ∨ data.length = 8 ∧ off = 0x38) then
    (s.completePost b (senderCode w) (if data.length = 64 then .whole data else .word (BitVec.ofNat 64 (leNat data)))).1
  else s

/-! ## Any address -/

/-- The queue and offset of an address of the staging windows (12 R315). -/
def stagingAt (a : Nat) : Nat × Nat :=
  let off := a - 0x0D00_0000_0000
  (off / 0x1_0000_0000 * 131072 + off % 0x1_0000_0000 / 0x8000, off % 0x8000)

/-- Write bytes at a node address: the state after, and whether the writer is answered without an error. -/
def State.nodeWrite (s : State) (w : Sender) (a : Nat) (data : List Byte) (poison : Bool := false) : State × Bool :=
  match placeOf a with
  | .hbm | .well _ | .cistern _ =>
    if s.reachable a data.length then (s.memWrite a data poison, true) else (s, false)
  | .staging => (s.writeStaging (stagingAt a).1 (stagingAt a).2 data poison, true)
  | .control =>
    if regAligned a data.length then (s.writeReg w a (data.length == 8) (BitVec.ofNat 64 (leNat data)), true) else (s, false)
  | .berth => match s.writeBerth w a data with
    | some t => (t, true)
    | none => (s.afterRejected w a data, false)
  | .bell =>
    if data.length = 8 ∧ a % 8 = 0 then
      (match s.writeBell a (BitVec.ofNat 64 (leNat data)) with
       | some t => (t, true)
       | none => (s, false))
    else (s, false)
  | .none => (s, false)

/-- Read bytes at a node address: what the reader gets, and the state after. -/
def State.nodeRead (s : State) (w : Sender) (a n : Nat) : ReadResult × State :=
  let bad : ReadResult := { ok := false, data := [], poison := false }
  match placeOf a with
  | .hbm | .well _ | .cistern _ => (s.memRead a n, if (s.memRead a n).ok then s.afterRead a n else s)
  | .staging | .none => (bad, s)
  | .control =>
    if regAligned a n then
      let (v, t) := s.readReg (a / 8 * 8)
      ({ ok := true, data := regBytes v a n, poison := false }, t)
    else (bad, s)
  | .berth => match s.readBerth w a n with
    | some d => ({ ok := true, data := d, poison := false }, s)
    | none => (bad, s)
  | .bell =>
    if n = 8 ∧ a % 8 = 0 then
      (match s.bellRead a with
       | some (v, t) => ({ ok := true, data := leBytes 8 v.toNat, poison := false }, t)
       | none => (bad, s))
    else (bad, s)

/-- A tray access reaches HBM, wells, cisterns, berth pages and bell pages of the node (10 R247). -/
def trayReach (a : Nat) : Bool :=
  match placeOf a with
  | .hbm | .well _ | .cistern _ | .berth | .bell => true
  | _ => false

end Sys2Proof.Machine
end

