-- ==== Sys2Proof/Machine/ImageOps.lean ====
section
/-! DEFINITION. Firmware images: their check, their levels, the running set and the fuses (14 R396–R399, 17 R451–R455). -/

namespace Sys2Proof.Machine

/-- Kind of an image instance, and the instances of a kind (17 Table 17-3). -/
def imgKind (i : Nat) : Nat := if i = 0 then 0 else if i ≤ 2 then 1 else if i ≤ 6 then 2 else 3
def kindImages : Nat → List Nat
  | 0 => [0] | 1 => [1, 2] | 2 => [3, 4, 5, 6] | _ => [7, 8]

/-- BANK_BYTES of a kind (17 Table 17-3). -/
def bankBytes : Nat → Nat
  | 0 => 8 * 1024 * 1024 | 1 => 2 * 1024 * 1024 | _ => 1024 * 1024

/-! ## The manifest (17 Table 17-2) -/

def mfLevel (m : List Byte) : Nat := byteFld m 8 2
def mfMin (m : List Byte) : Nat := byteFld m 10 2
def mfSvn (m : List Byte) : Nat := byteFld m 12 1
def mfRevoke (m : List Byte) : Nat := byteFld m 13 1
def mfRaise (m : List Byte) : Bool := (byteFld m 7 1).testBit 0
def mfBody (m : List Byte) : Nat := byteFld m 24 4
def mfSteps (m : List Byte) : List Nat := (List.range 8).map fun i => byteFld m (16 + i) 1
def mfKey (m : List Byte) : List Byte := (m.drop 64).take 64
/-- Kind and level pairs. -/
def mfTested (m : List Byte) : List (Nat × Nat) :=
  (List.range (min 128 (byteFld m 128 2))).map fun t => (byteFld m (256 + 4 * t) 1, byteFld m (258 + 4 * t) 2)

/-- A reserved field of the manifest is not zero, or a field exceeds its range. -/
def mfReserved (m : List Byte) : Bool :=
  decide (2 ≤ byteFld m 7 1) || decide (63 < mfSvn m) || decide (16 ≤ mfRevoke m) || !zeroAt m 14 2
    || decide (128 < byteFld m 128 2) || !zeroAt m 130 126
    || (List.range 128).any fun t => !zeroAt m (257 + 4 * t) 1

/-- The fused digest of a key slot (17 R452). -/
def keyDigest (k : Nat) : List Byte := (List.range 32).map fun i => Config.keyDigest k i

/-- The unrevoked slot whose digest is that of the signer's key. -/
def State.signerSlot (s : State) (m : List Byte) : Option Nat :=
  (List.range 4).find? fun k => !s.revoked.toNat.testBit k && shake256 (mfKey m) 32 == keyDigest k

/-- SVN_MIN of a kind. -/
def State.svnFloor (s : State) (kind : Nat) : Nat := Tab.get 0 s.svnMin kind

/-- An image is valid under 14 R397. -/
def levelsValid (m : List Byte) : Bool := decide (mfMin m ≤ mfLevel m) && (mfTested m).all fun t => decide (mfMin m ≤ t.2)

/-- The check of an image (17 R452): 0 OK, 0x0D SIGNATURE, 0x0C VERSION. -/
def State.verifyImage (s : State) (img : List Byte) (kind : Nat) : Nat :=
  let m := img.take 768
  if byteFld m 0 4 ≠ 0x4D49_4B47 ∨ byteFld m 4 2 ≠ 1 ∨ byteFld m 6 1 ≠ kind then 0x0D
  else if mfReserved m ∨ img.length ≠ 0x8000 + mfBody m ∨ bankBytes kind < img.length then 0x0D
  else if (s.signerSlot m).isNone then 0x0D
  else if !Config.slhVerify256s (mfKey m) m ((img.drop 768).take 29792) then 0x0D
  else if shake256 (img.drop 0x8000) 32 ≠ (m.drop 32).take 32 then 0x0D
  else if mfSvn m < s.svnFloor kind then 0x0C
  else if !levelsValid m then 0x0C
  else 0

/-! ## The running set (14 R398, 17 R455) -/

/-- A bank holds a checked image. -/
def ImageBank.checked (i : ImageBank) (bank : Nat) : Bool := if bank = 0 then i.checkA else bank == 1 && i.checkB

/-- The inactive bank, which FW_STAGE writes: the one that does not run, and for a ROM default the one that the pointer does not name. DESIGN CHOICE (log
50): a start that passed over the active bank runs the other, and that one is then not written. -/
def ImageBank.spare (i : ImageBank) : Nat := if i.runs = 2 then 1 - i.active else 1 - i.runs

/-- What R398 reads of an image. -/
structure ImgInfo where
  kind   : Nat
  level  : Nat := 0
  min    : Nat := 0
  svn    : Nat := 0
  steps  : List Nat := [0xB0]
  tested : List (Nat × Nat) := []
  deriving DecidableEq, Repr

/-- The information of an image; a ROM default counts as level 0 (17 R455). -/
def infoOf (kind : Nat) (m : List Byte) : ImgInfo :=
  if m.isEmpty then { kind := kind }
  else { kind := kind, level := mfLevel m, min := mfMin m, svn := mfSvn m, steps := mfSteps m, tested := mfTested m }

/-- The images of the nine instances, with one of them replaced. -/
def State.imageSet (s : State) (change : Option (Nat × Nat)) : List ImgInfo :=
  (List.range 9).map fun i =>
    let b := s.image i
    let bank := match change with
      | some (j, k) => if j = i then k else b.runs
      | none => b.runs
    infoOf (imgKind i) (b.image bank)

/-- The evaluation of R398: none for LIMITED, else the operating level and RANGED. -/
def evaluateImages (l : List ImgInfo) : Option (Nat × Bool) :=
  let op := (l.map (·.level)).foldl min ((l.map (·.level)).headD 0)
  if l.any (fun i => !i.steps.contains 0xB0) || l.any (fun i => decide (op < i.min)) then none
  else
    let pairs := l.zipIdx
    some (op, pairs.any fun x => pairs.any fun y => x.2 != y.2 && !x.1.tested.contains (y.1.kind, y.1.level))

/-- A digest as it stands in the four words of MEAS_i. -/
def digestWord (d : List Byte) (k : Nat) : Nat := byteFld d (8 * k) 8

/-- Show an instance in IMG_i and MEAS_i (17 Table 17-9). -/
def State.showImage (s : State) (i : Nat) : State :=
  let b := s.image i
  let m := b.image b.runs
  let f := infoOf (imgKind i) m
  let s := s.putN .boot (0x040 + 8 * i)
    (b.runs + (if b.checkA then 4 else 0) + (if b.checkB then 8 else 0) + f.level * 2 ^ 16 + f.min * 2 ^ 32 + f.svn * 2 ^ 48)
  let d := if m.isEmpty then [] else shake256 m 32
  (List.range 4).foldl (fun (s : State) k => s.putN .boot (0x100 + 0x20 * i + 8 * k) (digestWord d k)) s

/-- Every UP port sends HELLO in place of its next AUDIT (17 R460). -/
def State.dueHello (s : State) : State :=
  allPorts.foldl (fun s p => if s.portUp p then s.setPort p { s.port p with helloDue := true } else s) s

/-- Evaluate the running set and show it (14 R398, HM_STATUS, 17 R460). In LIMITED, OP_LEVEL keeps its value. -/
def State.evaluate (s : State) : State :=
  let old := s.opLevel
  let s := (List.range 9).foldl (fun s i => s.showImage i) s
  let s := s.putBit .harbour 0x00 1 ((s.image 0).runs == 1)
  match evaluateImages (s.imageSet none) with
  | none => (s.putBit .harbour 0x00 2 true).putBit .harbour 0x00 3 false
  | some (op, ranged) =>
    let s := ((s.putBit .harbour 0x00 2 false).putBit .harbour 0x00 3 ranged).putFld .harbour 0x00 8 16 op
    if op = old then s else s.dueHello

/-! ## Fuses (17 R453) -/

/-- Raise SVN_MIN of a kind once every instance runs a confirmed image that asks for it. -/
def State.raiseSvn (s : State) (kind : Nat) : State :=
  let ms := (kindImages kind).map fun i => ((s.image i).trial.isNone, (s.image i).image (s.image i).boot)
  let svn := (ms.map fun e => mfSvn e.2).foldl min 63
  if ms.all (fun e => e.1 && !e.2.isEmpty && mfRaise e.2) && decide (s.svnFloor kind < svn) then
    { s with svnMin := Tab.set 0 s.svnMin kind svn }
  else s

/-- Revoke the slots that a confirmed image of instance 0 names, but neither its own signer's nor the last one. -/
def State.revokeSlots (s : State) (m : List Byte) : State :=
  (List.range 4).foldl (fun (s : State) k =>
    let next := s.revoked.toNat ||| 2 ^ k
    if (mfRevoke m).testBit k && some k != s.signerSlot m && next != 15 then { s with revoked := BitVec.ofNat 4 next } else s) s

/-- An instance confirms the image in a bank: its pointer moves there (17 R453, R458). -/
def State.confirmImage (s : State) (i bank : Nat) : State :=
  let s := (s.setImage i { s.image i with active := bank, boot := bank, trial := none }).evaluate
  let s := s.raiseSvn (imgKind i)
  if i = 0 then s.revokeSlots ((s.image 0).image bank) else s

/-- An activation reverts: the old bank runs again. -/
def State.revertImage (s : State) (i : Nat) : State := (s.setImage i { s.image i with trial := none }).evaluate

end Sys2Proof.Machine
end

