-- ==== Sys2Proof/Machine/HmOps.lean ====
section
/-! DEFINITION. The harbourmaster: taking commands, replies, long operations and their status words (14 R389–R395). -/

namespace Sys2Proof.Machine

/-! ## The command message (14 Tables 14-4, 14-7) -/

def cmOpcode (m : List Byte) : Nat := byteFld m 2 2
def cmReply (m : List Byte) : Nat := byteFld m 4 2
def cmSender (m : List Byte) : Nat := byteFld m 6 2

/-- Every byte of the body outside the listed ranges is zero, and so are the reserved fields of the header (14 R392). -/
def argsZero (m : List Byte) (used : List (Nat × Nat)) : Bool :=
  zeroAt m 1 1 && bits (cmReply m) 11 4 == 0 && zeroAt m 12 4
    && (List.range 48).all fun i => used.any (fun u => decide (u.1 ≤ 16 + i) && decide (16 + i < u.1 + u.2)) || zeroAt m (16 + i) 1

/-- Result codes (14 Table 14-6). -/
def rcOk : Nat := 0x00
def rcAccepted : Nat := 0x01
def rcOpcode : Nat := 0x02
def rcArg : Nat := 0x03
def rcState : Nat := 0x04
def rcPermit : Nat := 0x05
def rcDeadline : Nat := 0x06
def rcBusy : Nat := 0x07
def rcLimited : Nat := 0x08
def rcResource : Nat := 0x09
def rcFailed : Nat := 0x0A
def rcAborted : Nat := 0x0B
def rcVersion : Nat := 0x0C
def rcSignature : Nat := 0x0D

/-- Opcodes of 14 Table 14-7, with the bits of its From column: 1 host, 2 PD hart, 4 pilot core. -/
def hmOpcodes : List (Nat × Nat) :=
  [(0x0001, 7), (0x0002, 7), (0x0010, 3), (0x0011, 3), (0x0012, 1), (0x0020, 3), (0x0021, 3), (0x0030, 3), (0x0031, 3),
   (0x0032, 3), (0x0040, 3), (0x0041, 3), (0x0042, 3), (0x0050, 3), (0x0051, 1), (0x0060, 3), (0x0061, 3), (0x0070, 3),
   (0x0071, 3), (0x0072, 3), (0x0080, 3), (0x0090, 3), (0x0091, 1), (0x00A0, 1), (0x00F0, 3)]

/-- The From class of a sender code: 1 host, 2 PD hart, 4 pilot core, 0 none (14 R391). -/
def fromClass (code : Nat) : Nat :=
  let e := bits code 0 9
  if code.testBit 12 || (e == 320 && code.testBit 13) then 1
  else if e < 256 then 4 else if e < 320 then 2 else 0

/-- Commands that a node in LIMITED mode performs (14 R398), and those of recovery mode (17 R450). -/
def limitedOps : List Nat := [0x0001, 0x0002, 0x0040, 0x0070, 0x0071, 0x0072, 0x0080, 0x0090]
def recoveryOps : List Nat := [0x0001, 0x0002, 0x0070, 0x0071]

/-! ## Replies (14 R390) -/

/-- A reply to a command, with its body of 48 bytes. -/
def State.replyMsg (s : State) (m : List Byte) (result : Nat) (body : List Byte) : List Byte :=
  leBytes 1 2 ++ leBytes 1 0 ++ (m.drop 2).take 2 ++ leBytes 2 0 ++ leBytes 2 (senderCode (s.localSender 320)) ++ (m.drop 8).take 4
    ++ leBytes 1 result ++ leBytes 3 0 ++ (body ++ List.replicate 48 0).take 48

/-- Post a reply, due since a tide, to a berth of a node of the tray; one that meets a full berth waits to be posted again. -/
def State.postTo (s : State) (node berth : Nat) (r : List Byte) (since : Nat) : State :=
  if node = s.trayPos then
    match s.nodePost berth r with
    | (t, true) => t
    | (t, false) =>
      { t with harbour := { t.harbour with replies := t.harbour.replies ++
          [{ node := node, berth := berth, msg := r, since := since, last := s.clock }] } }
  else
    s.issueTray (.reply node berth r since) (s.localSender 320)
      { kind := 1, addr := 2 ^ 47 + node * 2 ^ 44 + 0x0E80_0000_0000 + berth * 0x1000, size := 64, data := r } true

/-- Reply to a command, where it asked for a reply. -/
def State.replyTo (s : State) (m : List Byte) (result : Nat) (body : List Byte := []) : State :=
  let rb := cmReply m
  if rb.testBit 15 then s.postTo (bits rb 8 3) (bits rb 0 8) (s.replyMsg m result body) s.clock else s

/-- A reply that met a full berth is posted again every 100 µs; after 10 ms it is dropped and counted (14 R390). -/
def State.retryReply (s : State) (slot : Nat) : State :=
  match s.harbour.replies[slot]? with
  | none => s
  | some r =>
    if s.clock < r.last + 100_000 then s
    else
      let t := { s with harbour := { s.harbour with replies := s.harbour.replies.eraseIdx slot } }
      if r.since + 10_000_000 ≤ s.clock then t.addWrap .harbour 0x00 48 16 1 else t.postTo r.node r.berth r.msg r.since

/-! ## Long operations (14 R393–R395) -/

/-- Write a status word: state, result and the operation's counts, between two sequence numbers (14 Table 14-8). -/
def State.putStatus (s : State) (o : LongOp) (st result : Nat) : State :=
  let old := (s.memRead o.status 64).data
  s.memWrite o.status
    (leBytes 8 (byteFld old 0 8 + 1) ++ leBytes 2 o.opcode ++ leBytes 1 st ++ leBytes 1 result ++ (o.msg.drop 8).take 4
      ++ leBytes 8 o.done ++ leBytes 8 o.total ++ leBytes 8 o.start ++ leBytes 8 s.now ++ leBytes 8 o.detail
      ++ leBytes 8 (byteFld old 56 8 + 1))

/-- A status word may stand at an address: 64-byte aligned, in HBM or a cistern, both sequence numbers zero (14 R393). -/
def State.statusOk (s : State) (a : Nat) : Bool :=
  let m := s.memRead a 64
  a % 64 == 0 && m.ok && (match placeOf a with | .hbm | .cistern _ => true | _ => false)
    && zeroAt m.data 0 8 && zeroAt m.data 56 8

/-- One of these runs already (14 R394): CH_RECOVER runs one per channel, REG_COPY up to four. -/
def State.longBusy (s : State) (m : List Byte) : Bool :=
  let same := s.harbour.longOps.filter fun o => o.opcode == cmOpcode m
  if cmOpcode m = 0x0032 then same.any fun o => byteFld o.msg 16 1 == byteFld m 16 1
  else if cmOpcode m = 0x0042 then decide (4 ≤ same.length) else !same.isEmpty

/-- Put the list of long operations. -/
def State.setLong (s : State) (l : List LongOp) : State := { s with harbour := { s.harbour with longOps := l } }

/-- Accept a long command: RUNNING in its status word, then the ACCEPTED reply (14 R390, R394). -/
def State.startLong (s : State) (m : List Byte) (status total : Nat) : State :=
  if !s.statusOk status then s.replyTo m rcArg
  else if s.longBusy m then s.replyTo m rcBusy
  else if 16 ≤ s.harbour.longOps.length then s.replyTo m rcResource
  else
    let o : LongOp := { msg := m, opcode := cmOpcode m, status := status, done := 0, total := total, start := s.now }
    ((s.setLong (s.harbour.longOps ++ [o])).putStatus o 1 0).replyTo m rcAccepted

/-- The operation whose status word stands at an address. -/
def State.longAt (s : State) (status : Nat) : Option LongOp := s.harbour.longOps.find? fun o => o.status == status

/-- Replace an operation. -/
def State.updateLong (s : State) (o : LongOp) : State :=
  s.setLong (s.harbour.longOps.map fun x => if x.status = o.status then o else x)

/-- An operation ends: its status word is final, and the second reply carries the result. -/
def State.endLong (s : State) (o : LongOp) (st result : Nat) (body : List Byte := []) : State :=
  ((s.setLong (s.harbour.longOps.filter fun x => x.status != o.status)).putStatus o st result).replyTo o.msg result body

/-- The harbourmaster's reset ends every long operation; the list waits for the firmware that starts next (14 R395). -/
def State.orphanLong (s : State) : State :=
  { s with harbour := { s.harbour with longOps := [], orphans := s.harbour.orphans ++ s.harbour.longOps } }

/-- The firmware that starts sets the operations of the list to ABORTED (14 R395). -/
def State.abortOrphans (s : State) : State :=
  s.harbour.orphans.foldl (fun s o => s.putStatus o 4 rcAborted) { s with harbour := { s.harbour with orphans := [] } }

/-! ## Taking a command (14 R389) -/

/-- Recovery mode (17 R450). -/
def State.inRecovery (s : State) : Bool := s.bitAt .boot 0x000 5

/-- The harbourmaster takes commands from a berth: its firmware runs and no kind-0 hold is in force (14 R389, 17 Table 17-4),
or the boot ROM in recovery mode takes from berth 0 (17 R450). Firmware on trial takes its first command within 500 ms of the mark or not at
all (17 R458). -/
def State.takesFrom (s : State) (b : Nat) : Bool :=
  !s.harbour.inReset && !s.harbour.hold
    && ((s.image 0).trial.isNone || decide (s.clock < (s.image 0).trialMark + 500_000_000)) && (if s.inRecovery then b == 0 else s.bitAt .harbour 0x00 0)

/-- The two command berths alternate; an empty one yields its turn (14 R389). -/
def State.turnOf (s : State) (b : Nat) : Bool :=
  s.harbour.turn == b || (s.berth (1 - b)).msgs.isEmpty

/-- The new firmware of instance 0 has taken its first command: its bank is the active one (17 R458), and the activation's reply
is sent. -/
def State.confirmFirmware (s : State) : State :=
  let i := s.image 0
  match i.trial with
  | none => s
  | some b =>
    let s := s.confirmImage 0 b
    match s.harbour.activations.find? fun a => a.value == 0 with
    | some a =>
      let t : State := { s with harbour := { s.harbour with activations := s.harbour.activations.filter fun x => x.value != 0 } }
      (t.putBit .boot 0x000 6 false).replyTo a.msg rcOk
    | none => s

/-- Take the message at the head of a command berth for the command of an opcode and perform it. A message of another kind is
discarded, one with a reserved opcode is answered with BAD_OPCODE; a command of another row stays. -/
def State.takeCommand (s : State) (b opcode : Nat) (f : State → List Byte → State) : State :=
  match (s.berth b).msgs with
  | [] => s
  | m :: _ =>
    if !s.takesFrom b || !s.turnOf b then s
    else
      let known := hmOpcodes.find? fun e => e.1 == cmOpcode m
      let gone := fun (s : State) =>
        let s := s.takeMsg b
        ({ s with harbour := { s.harbour with turn := 1 - b } }).confirmFirmware
      if byteFld m 0 1 ≠ 1 then gone s
      else match known with
        | none => (gone s).replyTo m rcOpcode
        | some (o, who) =>
          if o ≠ opcode then s
          else
            let s := gone s
            if who &&& fromClass (cmSender m) = 0 then s.replyTo m rcPermit
            else if (s.inRecovery && !recoveryOps.contains o) || (s.limited && !limitedOps.contains o) then s.replyTo m rcLimited
            else f s m

end Sys2Proof.Machine
end

