-- ==== Sys2Proof/Machine/BootOps.lean ====
section
/-! DEFINITION. Start-up: power-off, the retention words, image choice, provisional routes, HBM start (17 R446–R466). -/

namespace Sys2Proof.Machine

/-! ## What survives -/

/-- A register of the always-on island: TIDE_NOW, the tide-mark comparators and the voltage and temperature comparators
(01 Table 1-9). -/
def islandKey (a : Nat) : Bool :=
  let b := blockBase .tide
  a == b || (decide (b + 0x200 ≤ a) && decide (a ≤ b + 0x320))

/-- No image runs: the non-volatile banks and pointers stay (17 R454). -/
def dropTrials (t : Tab ImageBank) : Tab ImageBank :=
  (List.range 9).foldl (fun t i => Tab.set {} t i { Tab.get {} t i with boot := 2, trial := none }) t

/-- Everything but the always-on island, the non-volatile parts and the pins loses its state (18 R488, R489). STARTS and
EN_PKG count from VAON power-up. -/
def State.powerOff (s : State) : State :=
  let p := s.power
  let off : State :=
    { pending := s.pending, regs := s.regs.filter fun e => islandKey e.1, life := { s.life with live := [] }
      images := dropTrials s.images, revoked := s.revoked, svnMin := s.svnMin
      power := { vaon := p.vaon, brakeN := p.brakeN, alertN := p.alertN, vrFaultN := p.vrFaultN, retention := p.retention }
      tide := { reached := s.tide.reached, adjusted := s.tide.adjusted }, draws := s.draws }
  (off.putFld .boot 0x000 32 32 (s.fldAt .boot 0x000 32 32)).putReg .hub 0x010 (s.reg .hub 0x010)

/-- Every channel is ISOLATED, and so every region LOST, until the node's memory is started (10 R263, log entry 76). -/
def State.isolateAll (s : State) : State :=
  let s := (List.range 192).foldl (fun (s : State) c => s.putFld (groupOf c) (chOff c 0x100) 0 2 2) s
  let s := (List.range 5).foldl (fun (s : State) i => s.putN .regionTable (0x008 + 8 * i) (ones (if i = 4 then 32 else 64))) s
  s.putBit .regionTable 0x000 17 true

/-- A start: straps sampled, the brake and alert inputs shown, stage 2, no memory yet (10 R263, 17 R446, 18 R489, R490). -/
def State.start (s : State) (straps : BitVec 5) : State :=
  let s := { s with power := { s.power with porN := true, straps := straps } }.isolateAll
  let s := (s.putN .power 0x028 straps.toNat).putFld .boot 0x000 0 4 2
  let s := (s.putBit .power 0x000 5 (!s.power.brakeN)).putBit .power 0x000 6 (!s.power.alertN)
  let s := s.addWrap .boot 0x000 32 32 1
  if straps.toNat.testBit 4 then s.putBoth (.port 15) 0x000 (setBit (s.reg (.port 15) 0x000) 5 true) else s

/-- A stage failed: the first one is kept (BOOT_STATUS.FAIL_STAGE). -/
def State.failStage (s : State) (n : Nat) : State :=
  if s.fldAt .boot 0x000 8 8 = 0 then s.putFld .boot 0x000 8 8 n else s

/-! ## The retention words (17 R449): their layout is the model's own -/

/-- SELF_NGI, TIDE_CTRL with its committed mark, and PORT_CFG and VC_BUF of every port, in 256 bytes. -/
def State.retained (s : State) : List Byte :=
  let head := leBytes 4 (s.regN .router 0x010) ++ leBytes 4 (s.regN .tide 0x010) ++ leBytes 4 (if s.tide.committed then 1 else 0)
  let ports := allPorts.flatMap fun p => leBytes 4 (s.regN (.port p) 0x000) ++ leBytes 8 (s.regN (.port p) 0x020)
  (head ++ ports ++ List.replicate 256 0).take 256

/-- Restore the retained settings; the node comes up NAMED. -/
def State.restoreRetained (s : State) : State :=
  let r := s.power.retention
  let w := fun (off n : Nat) => BitVec.ofNat 64 (byteFld r off n)
  let s := (s.putBoth .router 0x010 (w 0 4)).putBoth .tide 0x010 (w 4 4)
  let s := { s with tide := { s.tide with committed := byteFld r 8 4 == 1 }, power := { s.power with retention := [] } }
  let s := allPorts.foldl (fun (s : State) p =>
    (s.putBoth (.port p) 0x000 (w (12 + 12 * p) 4)).putBoth (.port p) 0x020 (w (16 + 12 * p) 8)) s
  s.putBit .boot 0x000 4 true

/-! ## Images (17 R446, R450, R452, R455) -/

/-- The bank that an instance starts from: the active one, the other if that fails its check, else the ROM default. -/
def State.chooseBank (s : State) (i : Nat) : State :=
  let b := s.image i
  let ok := fun (k : Nat) => !(b.image k).isEmpty && s.verifyImage (b.image k) (imgKind i) == 0
  let okA := ok 0
  let okB := ok 1
  let first := if b.active = 1 then 1 else 0
  let good := fun (k : Nat) => if k = 0 then okA else okB
  let pick := if good first then first else if good (1 - first) then 1 - first else 2
  s.setImage i { b with boot := pick, checkA := okA, checkB := okB, trial := none }

/-! ## Provisional tray routes (17 R449, R464, R465) -/

/-- The port of the tray link from a tray position to another (17 R465). -/
def trayLinkPort (t u : Nat) : Nat := linkPort ((u + 7 - t) % 8)

/-- The provisional entry of the node at tray position u, at the node at position t. -/
def provisional (t u : Nat) : Nat :=
  if u = t then 2 ^ 27 + 2 ^ 26
  else let p := trayLinkPort t u; 2 ^ p + p * 2 ^ 20 + 2 ^ 25 + 2 ^ 27

/-- Both banks at 0 but for the eight tray entries of bank 0, which is made active. -/
def State.provisionalRoutes (s : State) : State :=
  let t := s.selfNgi % 8
  let base := s.selfNgi / 8 * 8
  let rt := blockBase .routeTable
  let s := { s with regs := s.regs.filter fun e => !(decide (rt ≤ e.1) && decide (e.1 < rt + 0x20_0000)) }
  let s := (List.range 8).foldl (fun (s : State) u =>
    s.putFld .routeTable ((base + u) / 2 * 8) (32 * (u % 2)) 32 (provisional t u)) s
  s.putFld .router 0x000 0 1 0

/-- The node is UNNAMED: its NGI is its tray position (17 R464). -/
def State.unnamed (s : State) : State :=
  (s.putBoth .router 0x010 (BitVec.ofNat 64 (s.power.straps.toNat % 8))).putBit .boot 0x000 4 false

/-! ## Stages 3 to 6 -/

/-- Stages 3 and 4: the boot ROM checks instance 0, and enters recovery mode where neither bank passes: the node is then UNNAMED and has the provisional routes
(17 R450, R464). -/
def State.romStage (s : State) : State :=
  let s := (s.chooseBank 0).putFld .boot 0x000 0 4 4
  let s := s.showImage 0
  if (s.image 0).boot = 2 then ((s.putBit .boot 0x000 5 true).failStage 4).unnamed.provisionalRoutes else s

/-- Stage 5: instances 1–8 are checked, the set is evaluated, and the firmware takes commands (17 R446, R449, R464). -/
def State.firmwareStart (s : State) : State :=
  let s := ([1, 2, 3, 4, 5, 6, 7, 8].foldl (fun s i => s.chooseBank i) s).loadLifetime
  let s := if [1, 2, 3, 4, 5, 6, 7, 8].any (fun i => (s.image i).boot == 2) then s.failStage 5 else s
  let s := s.evaluate
  let s := if s.power.retention.isEmpty then s.unnamed else s.restoreRetained
  let s := (s.provisionalRoutes.modeSetpoints s.mode).abortOrphans
  let s := { s with power := { s.power with setpoints := Tab.set 0 s.power.setpoints 4 (trimmed 4 850) } }
  (s.putFld .boot 0x000 0 4 5).putBit .harbour 0x00 0 true

/-- HBM, wells, cisterns and accumulators read zero with no poison (17 R447); accesses waiting at channels are gone. -/
def State.zeroMemory (s : State) : State :=
  let s := { s with mem := [], poison := [], refill := [], undef := [], acc := [], accPoison := [], caches := [],
                     atDecoder := [] }
  (Tab.keys s.channels).foldl (fun (s : State) c => s.setChannel c { s.channel c with held := [], rows := [], writing := [], wbuf := [] }) s

/-- The channels enter ACTIVE but those that failed their training, which are FENCED with HBM_PHY (17 R446). -/
def State.startChannels (s : State) (failed : List Nat) (keep : Nat → Bool) : State :=
  (List.range 192).foldl (fun (s : State) c =>
    if keep c then s else if failed.contains c then s.fenceChannel c
    else s.putFld (groupOf c) (chOff c 0x100) 0 3 0) s

/-- Stage 6 (17 R446, R447). -/
def State.hbmStart (s : State) (failed : List Nat) : State :=
  let s := ((s.zeroMemory).startChannels failed fun _ => false).updateLost
  let s := if failed.any (fun c => decide (c < 192)) then s.failStage 6 else s
  s.putFld .boot 0x000 0 4 6

/-! ## DEEP (17 R449, 18 R486) -/

/-- Enter DEEP: retention words and lifetime record written, SLP_DEEP_N low, every rail but VAON off. -/
def State.enterDeep (s : State) : State :=
  let s := { s with power := { s.power with retention := s.retained } }.writeLifetime
  let off := s.powerOff
  { off with power := { off.power with depth := 3, deepFrom := s.clock, slpDeepN := false } }

end Sys2Proof.Machine
end

