-- ==== Sys2Proof/Machine/FaultOps.lean ====
section
/-! DEFINITION. The fault hub, the fault domains and the safe state (15 R401–R419). -/

namespace Sys2Proof.Machine

/-! ## Domains (15 R412–R416) -/

/-- The registers of a domain (15 Table 15-7). -/
def fdOff (d off : Nat) : Nat := 0x2000 + 0x20 * d + off

/-- Put a domain into a state: 0 NORMAL, 1 FAULT, 2 SELFTEST, 3 FENCED. -/
def State.setDomState (s : State) (d v : Nat) : State := s.putFld .hub (fdOff d 0) 0 2 v

/-- QUIET_MS, REC_LIMIT and WINDOW_S in force. -/
def State.quietMs (s : State) (d : Nat) : Nat := s.fldAt .hub (fdOff d 8) 0 14
def State.recLimit (s : State) (d : Nat) : Nat := s.fldAt .hub (fdOff d 8) 16 8
def State.windowS (s : State) (d : Nat) : Nat := s.fldAt .hub (fdOff d 8) 32 16

/-- The quiet period starts now (15 R414). -/
def State.startQuiet (s : State) (d : Nat) : State :=
  s.setDomain d { s.domain d with quietFrom := s.clock, quietMs := s.quietMs d }

/-- Counts of a domain in the lifetime record: 0 FAULT entries, 4 recoveries, 8 FENCED entries (15 Table 15-6); a channel has
its own as well. -/
def State.lifeDomain (s : State) (d off : Nat) : State :=
  let s := s.lifeAdd (0x6000 + 16 * d + off) 4 1
  if 256 ≤ d ∧ d < 448 ∧ off ≠ 4 then s.lifeAdd (0x3000 + 32 * (d - 256) + (if off = 0 then 20 else 24)) 4 1 else s

/-! ## The safe state (15 R409–R411, 18 R476) -/

/-- The halted node's queues end their running descriptors; nothing is written to memory. -/
def State.haltCores (s : State) : State :=
  let s := (Tab.keys s.queues).foldl (fun (s : State) k =>
    let s := if k % 6 ≤ 1 then s.abortMxe (k / 6) (k % 6) else s
    (s.abortError (k / 6) (k % 6)).dropPending (k / 6) (k % 6)) s
  { s with solvers := [], dispatch := [], work := [] }

/-- Every promise is void with cause ABORT; operations, requests and adds are gone without a record. -/
def State.haltQuays (s : State) : State :=
  let s := s.voidAllQuays 7
  { s with
    quays := Tab.mapVals {} s.quays fun e => { e with ops := [], held := [], unacked := 0, ackFrom := none, gapFrom := none }
    groups := Tab.mapVals {} s.groups fun e => { e with op := none, staging := [], ready := [], inFlight := [], held := [] }
    booked := [], tray := [], adds := [], arrived := [], hostIn := [] }

/-- A checkpoint ends ABORTED with the safe state; its status word is written no more (15 R410, 16 R436). -/
def State.dropCheckpoint (s : State) : State :=
  match s.ckpt with
  | none => s
  | some k =>
    let t : State := { s with ckpt := none }
    match t.longAt k.status with
    | none => t
    | some o => (t.setLong (t.harbour.longOps.filter fun x => x.status != o.status)).replyTo o.msg rcAborted

/-- Entry into the safe state (15 Table 15-4a). -/
def State.enterSafe (s : State) : State :=
  if s.safe then s
  else
    let s := if s.modeTarget = 2 then s else s.lifeAdd 0x0138 4 1
    let s := (s.putBit .hub 0x000 0 true).haltCores.haltQuays.dropCheckpoint
    let s := { s with power := { s.power with faultSafeN := false, clock := 800, ceiling := 1800, waiting := false } }
    let s := ((s.putFld .power 0x000 0 2 2).putBit .power 0x000 2 false).putFld .power 0x000 3 2 0
    let s := allPorts.foldl (fun s p => s.dropPort p 4) s
    (Tab.keys s.channels).foldl (fun (s : State) c => s.setChannel c { s.channel c with held := [] }) { s with atDecoder := [] }

/-! ## Reactions and recoveries (15 Table 15-4) -/

/-- Queues and groups of a quay that are not DISABLED. -/
def State.quayQueues (s : State) (q : Nat) : List Nat :=
  (Tab.keys s.quays).filter fun k => quayOf k == q && (s.quayQueue k).state != 0
def State.quayGroups (s : State) (q : Nat) : List Nat :=
  (Tab.keys s.groups).filter fun k => groupQuay k == q && [1, 2, 3].contains (s.group k).state

/-- The harbourmaster pair is held in reset (15 Table 15-4, 14 R382, R395). -/
def State.resetHarbour (s : State) : State :=
  let s := { s with harbour := { s.harbour with inReset := true, hold := false }, ckpt := none }.orphanLong
  ((s.putBit .harbour 0x00 0 false).startClear 320)

/-- A channel's recovery and its refill end without success. -/
def State.stopRecovery (s : State) (ch : Nat) : State := (s.setChannel ch { s.channel ch with recover := false }).setRefill ch false

/-- The reaction on entry to FAULT. -/
def State.faultReaction (s : State) (d : Nat) : State :=
  if d < 256 then s.fenceCore d
  else if d < 448 then
    (s.stopRecovery (d - 256)).setChState (d - 256) 3
  else if d < 464 then (if s.portState (d - 448) = 0 then s else s.dropPort (d - 448) 0)
  else if d < 466 then
    let q := d - 464
    let s := (s.quayQueues q).foldl (fun s k => s.stopQueue k) s
    let s := (s.quayGroups q).foldl (fun s g => s.quietGroup g) s
    s.dieAllTray q
  else if d = 466 then s.resetHarbour
  else s.enterSafe

/-- Entry into SELFTEST: a channel starts its retraining; the package releases FAULT_SAFE_N, in EFF, and starts again from HBM
training with its cores OFFLINE and its ports DOWN (15 R411, 17 R448, 18 R476). -/
def State.enterSelftest (s : State) (d : Nat) : State :=
  let s := s.setDomState d 2
  if 256 ≤ d ∧ d < 448 then s.setChannel (d - 256) { s.channel (d - 256) with recover := true }
  else if d = 467 then
    let s := s.modeSetpoints 2
    let s := { s.putBit .hub 0x000 0 false with power := { s.power with faultSafeN := true } }
    let s := (List.range 256).foldl (fun (s : State) c => if s.coreState c ≤ 1 then s.stopCore c 2 else s) s
    allPorts.foldl (fun (s : State) p => s.setPortState p 0) s
  else s

/-- Entry into FENCED (15 R413, R416): the harbourmaster raises HM_FENCE instead; the package goes back to its safe state; a channel
or a core that recovered too often keeps its reaction, and a channel's recovery ends. -/
def State.enterFenced (s : State) (d : Nat) : State :=
  if d = 466 then s.report 0x2A (some 467) 0
  else
    let s := (s.setDomState d 3).lifeDomain d 8
    let s := if 256 ≤ d ∧ d < 448 then s.stopRecovery (d - 256) else s
    if d = 467 then s.enterSafe else s

/-- The registers of the CDs and FDs that the package's self-test keeps (17 R448): SELF_NGI, both route banks and RTR_BANK,
PORT_CFG, VC_BUF, VC_WEIGHT and TAG_FILTER; those of FENCED domains' units keep their states. -/
def keptKey (a : Nat) : Bool :=
  match blockAt a with
  | some (.routeTable, off) => decide (off < 0x20_0000)
  | some (.router, off) => off == 0x000 || off == 0x010 || decide (0x1_0000 ≤ off)
  | some (.port _, off) => off == 0x000 || off == 0x018 || off == 0x020 || off == 0x008
  | some (.core _, off) => off == 0x008
  | some (.stack _, off) => decide (0x100 ≤ off) && decide (off < 0x500) && off % 0x40 == 0
  | some (.tide, _) => true
  | _ => decide (dieWindow 4 ≤ a) && decide (a < dieWindow 5)

/-- The package passes (15 R412, 17 R447, R448): stages 6 to 8 from kept settings; channels and cores of FENCED domains stay. -/
def State.passPackage (s : State) : State :=
  let s := { s with
    regs := s.regs.filter fun e => keptKey e.1, shadow := s.shadow.filter fun e => keptKey e.1
    commits := s.commits.filter fun e => keptKey e.1, dirty := s.dirty.filter fun e => keptKey e.1
    lagged := [], queues := [], solvers := [], dispatch := [], work := [], quays := [], groups := [], booked := [], tray := []
    ranks := [], adds := [] }
  let fenced := fun (c : Nat) => s.domainState (256 + c) == 3
  ((s.zeroMemory).startChannels [] fenced).updateLost

/-- The state of Table 15-4 after a pass. -/
def State.afterPass (s : State) (d : Nat) : State :=
  if d < 256 then (s.putFld (.core d) 0x008 0 2 2).zeroCore d
  else if d < 448 then s.endRefill (d - 256)
  else if d = 466 then
    let gone := (s.image 0).trial.isSome
    let s := (s.chooseBank 0).evaluate
    let s : State := { s with harbour := { s.harbour with
      inReset := false, activations := s.harbour.activations.filter fun a => !(gone && a.value == 0) } }
    (s.putBit .harbour 0x00 0 true).abortOrphans
  else s

/-- A domain's self-test passes (15 R415). -/
def State.passDomain (s : State) (d : Nat) : State :=
  let st := s.reg .hub (fdOff d 0)
  let recov := min (fld st 16 16 + 1) 0xFFFF
  let fresh := fld st 32 8 == 0 || decide (s.windowS d * 1_000_000_000 < s.now - s.regN .hub (fdOff d 0x18))
  let s := if fresh then s.putN .hub (fdOff d 0x18) s.now else s
  let count := (if fresh then 0 else fld st 32 8) + 1
  let s := ((s.putFld .hub (fdOff d 0) 16 16 recov).putFld .hub (fdOff d 0) 32 8 count).lifeDomain d 4
  if s.recLimit d < count then s.enterFenced d else (s.setDomState d 0).afterPass d

/-- A domain's self-test passes; with the package's, every domain in FAULT or SELFTEST passes too (15 R418). -/
def State.selftestPass (s : State) (d : Nat) : State :=
  if d = 467 then
    let s := s.passDomain 467
    if s.domainState 467 ≠ 0 then s
    else
      let s := s.passPackage
      ((List.range 467).filter fun e => s.domainState e == 1 || s.domainState e == 2).foldl (fun s e => s.passDomain e) s
  else s.passDomain d

/-- A package FAT suspends the recovery of every other domain (15 R418). -/
def State.suspended (s : State) (d : Nat) : Bool := d != 467 && s.domainState 467 != 0

/-! ## The log (15 R405–R408) -/

/-- A log entry's 32 bytes. -/
def State.logEntry (s : State) (i : Nat) : List Byte :=
  (List.range 4).flatMap fun k => leBytes 8 (s.regN .hub (0x8000 + 0x20 * i + 8 * k))

/-- Write a log entry. -/
def State.putEntry (s : State) (i : Nat) (e : List Byte) : State :=
  (List.range 4).foldl (fun (s : State) k => s.putN .hub (0x8000 + 0x20 * i + 8 * k) (byteFld e (8 * k) 8)) s

/-- The key by which a source's reports merge: the channel, the tray node or the queue; none for other sources (15 R407). -/
def mergeKey (source detail : Nat) : Option Nat :=
  if source = 0x03 then some (bits detail 32 8) else if source = 0x1C then some (bits detail 0 3)
  else if source = 0x18 then some (bits detail 0 18) else none

/-- The newest entry of a source and key, among the entries of the ring. -/
def State.lastEntry (s : State) (source : Nat) (key : Option Nat) : Option Nat :=
  let seq := s.fldAt .hub 0x000 32 32
  ((List.range 256).map fun j => (seq + 2 ^ 32 - j) % 2 ^ 32).findSome? fun n =>
    let e := s.logEntry (n % 256)
    if byteFld e 8 4 = n ∧ n ≠ 0 ∧ byteFld e 12 1 = source ∧ mergeKey source (byteFld e 16 8) = key then some (n % 256) else none

/-- Whether a report names a domain whose state it changes: NORMAL to FAULT, or SELFTEST to FENCED (15 R413). -/
def State.changes (s : State) (d : Option Nat) : Bool :=
  match d with
  | some d => s.domainState d == 0 || s.domainState d == 2
  | none => false

/-- Log a report (15 R406–R408, Table 15-6). -/
def State.logReport (s : State) (r : Report) : State :=
  let cls := sourceClass r.source
  let merged := match mergeKey r.source r.detail with
    | none => none
    | some k => match s.lastEntry r.source (some k) with
      | some i => if s.now < byteFld (s.logEntry i) 0 8 + 1_000_000 then some i else none
      | none => none
  match merged with
  | some i => let e := s.logEntry i; s.putEntry i (setByteFld e 24 4 (byteFld e 24 4 + 1))
  | none =>
    let seq := (s.fldAt .hub 0x000 32 32 + 1) % 2 ^ 32
    let entry := leBytes 8 s.now ++ leBytes 4 seq ++ leBytes 1 r.source ++ leBytes 1 (cls + (if s.changes r.domain then 4 else 0))
      ++ leBytes 2 (r.domain.getD 0xFFFF) ++ leBytes 8 r.detail ++ leBytes 8 0
    let s := if byteFld (s.logEntry (seq % 256)) 8 4 = 0 then s else s.putBit .hub 0x000 1 true
    let s := (s.putEntry (seq % 256) entry).putFld .hub 0x000 32 32 seq
    let s := if 2 ≤ cls then s.archiveEntry entry else s
    if 2 ≤ cls ∧ s.bitAt .hub 0x008 6 ∧ s.bitAt .hub (0x1000 + 8 * r.source) 1 then
      s.ringHost (s.fldAt .hub 0x008 0 6) (BitVec.ofNat 64 (seq + r.source * 2 ^ 32 + cls * 2 ^ 40))
    else s

/-- Sources whose condition lasts until it clears (15 R414). -/
def lasting : List Nat := [0x05, 0x32, 0x33, 0x34, 0x35, 0x36]

/-- A report acts on the domain that it names (15 R413, R414). -/
def State.reportDomain (s : State) (r : Report) (d : Nat) : State :=
  let s := (s.putFld .hub (fdOff d 0) 8 8 r.source).putN .hub (fdOff d 0x10) s.now
  let s := s.lifePut (0x6000 + 16 * d + 12) (leBytes 1 r.source)
  let s := if lasting.contains r.source then
      s.setDomain d { s.domain d with open_ := (r.source, r.detail % 2 ^ 8) :: (s.domain d).open_.filter fun o => o != (r.source, r.detail % 2 ^ 8) }
    else s
  match s.domainState d with
  | 0 => (((s.setDomState d 1).lifeDomain d 0).startQuiet d).faultReaction d
  | 1 => s.startQuiet d
  | 2 => s.enterFenced d
  | _ => s

/-- The hub handles a report: count, log, domain, safe state (15 R405). -/
def State.handleReport (s : State) (r : Report) : State :=
  let s := s.addSat .hub (0x1400 + 8 * r.source) 0 64 1
  let s := s.lifeAdd (0x8000 + 8 * r.source) 8 1
  let s := if s.bitAt .hub (0x1000 + 8 * r.source) 0 then s.logReport r else s
  let s := match r.domain with
    | some d => s.reportDomain r d
    | none => s
  if sourceClass r.source = 3 then s.enterSafe else s

/-- Replace the first element that equals one. -/
def dropReport (r : Report) : List Report → List Report
  | [] => []
  | x :: xs => if x = r then xs else x :: dropReport r xs

/-- The report that the hub handles next: the earliest, and of those the lowest source code (15 R405). -/
def State.nextReport (s : State) : Option Report := leastBy (fun r => r.tide * 64 + r.source % 64) s.reports

/-- FAULT_RELEASE and CH_RECOVER of a domain in FENCED or FAULT (15 R416). -/
def State.releaseDomain (s : State) (d : Nat) : State := (s.putFld .hub (fdOff d 0) 32 8 0).enterSelftest d

/-- A condition of the package's domain clears: its quiet period runs from this moment (15 R414). -/
def State.clearCondition (s : State) (d source sensor : Nat) : State :=
  let r := s.domain d
  if r.open_.contains (source, sensor) then
    (s.setDomain d { r with open_ := r.open_.filter fun o => o != (source, sensor) }).startQuiet d
  else s

/-- The quiet period of a domain has ended (15 R413, R414, R418). -/
def State.quietOver (s : State) (d : Nat) : Bool :=
  let r := s.domain d
  s.domainState d == 1 && r.open_.isEmpty && decide (r.quietFrom + r.quietMs * 1_000_000 ≤ s.clock) && !s.suspended d

/-- A condition of the package's domain that has no sensor clears (15 R414). -/
def State.clearSource (s : State) (source : Nat) : State :=
  let r := s.domain 467
  if r.open_.any fun o => o.1 == source then
    (s.setDomain 467 { r with open_ := r.open_.filter fun o => o.1 != source }).startQuiet 467
  else s

/-! ## Sensors (10 R258, 15 R402, R403, R422, R423) -/

/-- A reading of a sensor: 0–3 CDs, 4 PD, 5–6 FDs, 7–18 HBM stacks; a stack's stands in MC_TEMP. -/
def State.readSensor (s : State) (sensor reading : Nat) : State :=
  if 7 ≤ sensor then s.putFld (.stack (sensor - 7)) 0x010 0 16 reading else s

/-- A sensor has reached a threshold, in 0.01 °C above −40 °C: its source is raised. -/
def State.tooHot (s : State) (source : Nat) (domain : Option Nat) (sensor reading threshold : Nat) : State :=
  let s := s.readSensor sensor reading
  if reading < threshold then s else s.report source domain (sensorDetail sensor reading)

/-- A stack at 95 °C or a logic die at 105 °C: the forced change to EFF comes at the next multiple of 1 000 ns (15 R403). -/
def State.hot (s : State) (source sensor reading threshold : Nat) : State :=
  let t := s.tooHot source none sensor reading threshold
  if reading < threshold then t else t.markEff

/-- A sensor has fallen 5 °C below its fatal threshold (15 R403, R414). -/
def State.thermalClear (s : State) (sensor reading : Nat) : State :=
  let s := s.readSensor sensor reading
  if reading ≤ (if 7 ≤ sensor then 14_000 else 15_000) then s.clearCondition 467 (if 7 ≤ sensor then 0x05 else 0x32) sensor else s

/-- One second of a sensor (15 R422, Table 15-6): its bin, and the seconds above 85 °C of a stack's channels. -/
def State.sampleSensor (s : State) (sensor reading : Nat) : State :=
  let s := (s.readSensor sensor reading).lifeAdd (0x1000 + 128 * sensor + 4 * tempBin reading) 4 1
  if 7 ≤ sensor ∧ 12_500 < reading then
    (List.range 16).foldl (fun (s : State) i => s.lifeAdd (0x3000 + 32 * (16 * (sensor - 7) + i) + 28) 4 1) s
  else s

/-- Samples of the sensors from a number on. -/
def State.sampleAll : Nat → State → List Nat → State
  | _, s, [] => s
  | i, s, r :: rs => State.sampleAll (i + 1) (s.sampleSensor i r) rs

/-- Energy of the last 1 ms, in mJ by part: by part and mode while awake, of the package by depth otherwise (15 R423). -/
def State.integrate (s : State) (parts : List Nat) : State :=
  let total := sumNat parts
  let s := if s.power.depth = 0 then
      parts.zipIdx.foldl (fun (s : State) e => s.lifeAdd (0x200 + (3 * e.2 + s.mode) * 8) 8 e.1) s
    else s.lifeAdd (0x2C0 + 8 * (s.power.depth - 1)) 8 total
  (s.lifeAdd 0x2D8 8 total).addWrap .hub 0x010 0 64 total

/-! ## Commands of the hub and the domains -/

/-- The hub takes the next report. -/
def State.takeReport (s : State) : State :=
  match s.nextReport with
  | none => s
  | some r => { s with reports := dropReport r s.reports }.handleReport r

/-- A self-test may end: the domain is in SELFTEST and its recovery is not suspended. -/
def State.testing (s : State) (d : Nat) : Bool := s.domainState d == 2 && !s.suspended d

/-- SELFTEST_PASS: a channel passes at the end of its refill, a port when it is UP (15 Table 15-4). -/
def State.passTest (s : State) (d : Nat) : State :=
  if !s.testing d || (decide (256 ≤ d) && decide (d < 448)) || (decide (448 ≤ d) && decide (d < 464) && !s.portUp (d - 448)) then s
  else s.selftestPass d

/-- SELFTEST_FAIL. -/
def State.failTest (s : State) (d : Nat) : State :=
  if !s.testing d then s else s.enterFenced d

/-- A channel's PHY has lost lock (10 R263). -/
def State.phyLoss (s : State) (ch : Nat) : State :=
  if 2 ≤ s.chState ch ∧ ¬ (s.channel ch).recover then s else s.fenceChannel ch

/-- VR_FAULT_N has been low for 100 ns; the input is ignored while POR_N is low (18 R482). -/
def State.vrFault (s : State) : State :=
  if !s.power.porN then s else { s with power := { s.power with vrFaultN := false } }.report 0x34 (some 467) 0

/-- A condition without a sensor has cleared (15 R414). -/
def State.conditionOver (s : State) (source : Nat) : State :=
  let s := if source = 0x34 then { s with power := { s.power with vrFaultN := true } } else s
  if 0x33 ≤ source ∧ source ≤ 0x36 then s.clearSource source else s

end Sys2Proof.Machine
end

