-- ==== Sys2Proof/Machine/CmdOps.lean ====
section
/-! DEFINITION. What the harbourmaster's commands do (14 Table 14-7, 10 R265, 15 R416, 17 R456–R467). -/

namespace Sys2Proof.Machine

/-- The first multiple of 1 000 ns at least 10 µs after now (14 Table 14-7). -/
def State.defaultMark (s : State) : Nat := ceilDiv (s.now + 10_000) 1000 * 1000

/-- The mark of a command at bytes 24–31, where 0 asks for the default. -/
def State.cmdMark (s : State) (m : List Byte) : Nat := if zeroAt m 24 8 then s.defaultMark else byteFld m 24 8

/-- The harbourmaster as a requester. -/
def State.harbourSender (s : State) : Sender := s.localSender 320

/-! ## QUERY_VERSION -/

/-- LEVEL and MIN_LEVEL of an image kind, lowest over its instances. -/
def State.kindLevel (s : State) (kind lo : Nat) : Nat :=
  let l := (kindImages kind).map fun i => s.fldAt .boot (0x040 + 8 * i) lo 16
  l.foldl min (l.headD 0)

def queryVersion (s : State) (m : List Byte) : State :=
  if !argsZero m [] then s.replyTo m rcArg
  else
    let b := fun (i : Nat) => s.bitAt .harbour 0x00 i
    s.replyTo m rcOk
      (leBytes 2 0x00B0 ++ leBytes 2 s.opLevel ++ leBytes 1 ((if b 2 then 1 else 0) + (if b 3 then 2 else 0)) ++ leBytes 1 0
        ++ leBytes 2 (s.fldAt .harbour 0x00 24 16) ++ ([0, 1, 2, 3].flatMap fun k => leBytes 2 (s.kindLevel k 16))
        ++ ([0, 1, 2, 3].flatMap fun k => leBytes 2 (s.kindLevel k 32)) ++ leBytes 1 (if b 1 then 1 else 0))

def nopCommand (s : State) (m : List Byte) : State := s.replyTo m (if argsZero m [] then rcOk else rcArg)

/-! ## Power and sleep (01 R34–R37, 18 R476, R481, R485) -/

def setPowerMode (s : State) (m : List Byte) : State :=
  let mode := byteFld m 16 1
  let forced := byteFld m 17 1 == 1
  let mark := s.cmdMark m
  if !argsZero m [(16, 2), (24, 8)] || decide (2 < mode) || decide (1 < byteFld m 17 1) then s.replyTo m rcArg
  else if s.safe || s.brakeBlocks mode then s.replyTo m rcBusy
  else if !forced && s.modeRefused mode mark none then s.replyTo m rcDeadline
  else
    let c : Marked := { value := mode, forced := forced, mark := mark, msg := m }
    let t : State := { s with harbour := { s.harbour with modes := s.harbour.modes ++ [c] } }
    t.replyTo m rcOk

/-- DOZE and DEEP are refused: admitted work, an active group, or a checkpoint or restore (01 R37, 16 R426). -/
def State.sleepRefused (s : State) (depth : Nat) : Bool :=
  decide (2 ≤ depth) && (!s.work.isEmpty || s.guaranteedOpen (fun _ => true) || (s.groups.any fun e => e.2.state == 2) || s.ckpt.isSome)

/-- SET_SLEEP: to awake or IDLE it is answered when it is taken, to DOZE or DEEP when the entry ends (18 R485). -/
def setSleep (s : State) (m : List Byte) : State :=
  let depth := byteFld m 16 1
  if !argsZero m [(16, 1), (24, 8)] || decide (3 < depth) then s.replyTo m rcArg
  else if s.sleepRefused depth then s.replyTo m rcBusy
  else
    let c : Marked := { value := depth, forced := false, mark := s.cmdMark m, msg := m }
    let t : State := { s with harbour := { s.harbour with sleeps := s.harbour.sleeps ++ [c] } }
    if depth ≤ 1 then t.replyTo m rcOk else t

/-! ## Ports, cores and berths -/

/-- SET_FEC (11 R275): the port's FEC request, and a retraining. -/
def setFec (s : State) (m : List Byte) : State :=
  let p := byteFld m 16 1
  let light := byteFld m 17 1 == 1
  if !argsZero m [(16, 2)] || decide (15 < p) || decide (1 < byteFld m 17 1) then s.replyTo m rcArg
  else if !(s.committed p).mayTrain p then s.replyTo m rcState
  else
    let a := blockBase (.port p)
    let t := (s.putBit (.port p) 0x000 1 light).setShadow a (setBit (s.getShadow a) 1 light)
    (t.retrainPort p).replyTo m rcOk

/-- The cores that a mask of 32 bytes names. -/
def maskCores (m : List Byte) : List Nat := (List.range 256).filter fun c => (byteFld m 16 32).testBit c

/-- CORE_STATE (04 R116, R117): the request goes to every named core; those that discard it are reported. -/
def coreStateCmd (s : State) (m : List Byte) : State :=
  let req := byteFld m 48 1
  if !argsZero m [(16, 33)] || req == 0 || decide (3 < req) then s.replyTo m rcArg
  else
    let cores := maskCores m
    let gone := cores.filter fun c => s.coreRefuses c req
    let t := cores.foldl (fun (s : State) c => s.coreRequest c req) s
    t.replyTo m rcOk (leBytes 32 (sumNat (gone.map fun c => 2 ^ c)))

/-- CORE_LOAD (04 R94): the program goes to the start of each pilot region, and PILOT_PC is set. -/
def coreLoad (s : State) (m : List Byte) : State :=
  let src := byteFld m 48 8
  let len := byteFld m 56 4
  let pc := byteFld m 60 4
  let r := s.memRead src len
  let cores := maskCores m
  if !argsZero m [(16, 48)] || len == 0 || decide (262_144 < len) || len % 4 != 0 || src % 4 != 0 || decide (hbmEnd < src + len)
      || decide (2 ^ 22 ≤ pc) then s.replyTo m rcArg
  else if cores.any fun c => s.coreState c != 2 then s.replyTo m rcState
  else
    let t := cores.foldl (fun (s : State) c => (s.memWrite (wellBase c + 0x2C_0000) r.data r.poison).putN (.core c) 0x018 pc) (s.afterRead src len)
    t.replyTo m rcOk

/-- BERTH_ASSIGN. -/
def berthAssign (s : State) (m : List Byte) : State :=
  let b := byteFld m 16 1
  let owner := byteFld m 18 2
  if !argsZero m [(16, 1), (18, 3)] || decide (b < 8) || (decide (322 < owner) && owner != 511) || decide (1 < byteFld m 20 1) then
    s.replyTo m rcArg
  else if !(s.berth b).msgs.isEmpty then s.replyTo m rcState
  else (s.setBerth b { s.berth b with owner := owner, enable := byteFld m 20 1 == 1 }).replyTo m rcOk

/-- HOST_NOTIFY (14 R388). -/
def hostNotify (s : State) (m : List Byte) : State :=
  let node := byteFld m 16 1
  let base := byteFld m 24 8
  if !argsZero m [(16, 1), (24, 8)] || decide (7 < node) || base % 8 != 0 then s.replyTo m rcArg
  else ((s.putN .harbour 0x08 (node + 8)).putN .harbour 0x10 base).replyTo m rcOk

/-! ## Channels (10 R263–R267, 15 R416) -/

/-- An accepted change marksMeet an interval. -/
def marksMeet (a an b bn : Nat) : Bool := decide (a < b + bn) && decide (b < a + an)

/-- Another channel is HELD at some time in the 15 µs after a mark (10 R265). -/
def State.otherHeld (s : State) (ch mark : Nat) : Bool :=
  ((List.range 192).any fun c => c != ch && s.chState c == 1 && decide (mark < (s.channel c).heldFrom + 15_000))
    || s.harbour.retrains.any fun r => r.value != ch && marksMeet r.mark 15_000 mark 15_000

/-- Admitted work is outstanding with a deadline after a mark (10 R265). -/
def State.workAfter (s : State) (mark : Nat) : Bool :=
  (s.work.any fun w => decide (mark < w.deadline)) || s.guaranteedOpen (fun o => decide (mark < o.deadline))
    || s.groups.any fun e => match e.2.op with
      | some o => o.admitted && o.status.isNone && decide (mark < o.finish)
      | none => false

/-- A forced retraining voids every such promise: cause HBM (10 R265, 12 Table 12-8). -/
def State.voidAfter (s : State) (mark : Nat) : State :=
  (s.voidWork fun w => decide (mark < w.deadline)).voidQuays 5 (fun o => decide (mark < o.deadline)) (fun o => decide (mark < o.finish))

/-- CH_RETRAIN (10 R265, 19 R506): an accepted one is answered when the retraining ends. -/
def chRetrain (s : State) (m : List Byte) : State :=
  let ch := byteFld m 16 1
  let forced := byteFld m 17 1 == 1
  let mark := byteFld m 24 8
  if !argsZero m [(16, 2), (24, 8)] || decide (191 < ch) || decide (1 < byteFld m 17 1) then s.replyTo m rcArg
  else if s.chState ch ≠ 0 ∨ s.domainState (256 + ch) ≠ 0 ∨ s.otherHeld ch mark ∨ s.harbour.retrains.any (fun r => r.value == ch)
      ∨ (!forced && s.workAfter mark) then s.replyTo m rcDeadline
  else if s.harbour.activations.any fun a => imgKind a.value == 1 && marksMeet mark 15_000 a.mark 12_000 then s.replyTo m rcBusy
  else
    let t := if forced then s.voidAfter mark else s
    { t with harbour := { t.harbour with retrains := t.harbour.retrains ++ [{ value := ch, forced := forced, mark := mark, msg := m }] } }

/-- CH_ISOLATE. -/
def chIsolate (s : State) (m : List Byte) : State :=
  let ch := byteFld m 16 1
  let iso := byteFld m 17 1
  if !argsZero m [(16, 2)] || decide (191 < ch) || decide (1 < iso) then s.replyTo m rcArg
  else if iso = 1 ∧ s.chState ch = 3 ∧ ¬ (s.channel ch).recover then (s.setChState ch 2).replyTo m rcOk
  else if iso = 0 ∧ s.chState ch = 2 then (s.setChState ch 3).replyTo m rcOk
  else s.replyTo m rcState

/-- Accept a long command and go on with its operation. -/
def State.acceptLong (s : State) (m : List Byte) (status total : Nat) (f : State → LongOp → State) : State :=
  let t := s.startLong m status total
  match s.longAt status, t.longAt status with
  | none, some o => f t o
  | _, _ => t

/-- CH_RECOVER (10 R267, 15 R416). -/
def chRecover (s : State) (m : List Byte) : State :=
  let ch := byteFld m 16 1
  let d := 256 + ch
  if !argsZero m [(16, 1), (24, 8)] || decide (191 < ch) then s.replyTo m rcArg
  else if s.domainState d ≠ 1 ∧ s.domainState d ≠ 3 then s.replyTo m rcState
  else s.acceptLong m (byteFld m 24 8) 0x6000_0000 fun s _ => s.releaseDomain d

/-! ## Registers -/

/-- The address of word `i` of a command's register range; none outside the die's window. -/
def cmdReg (m : List Byte) (i : Nat) : Option Nat :=
  let off := byteFld m 24 8 + 8 * i
  if off + 8 ≤ 0x400_0000 then some (dieWindow (byteFld m 16 1) + off) else none

/-- Read words until one meets a bus error. -/
def State.readCmdWords (s : State) (m : List Byte) : Nat → Nat → List Byte → State × List Byte × Option Nat
  | 0, _, acc => (s, acc, none)
  | n + 1, i, acc =>
    match cmdReg m i with
    | none => (s, acc, some i)
    | some a => let (v, t) := s.readReg a; t.readCmdWords m n (i + 1) (acc ++ leBytes 8 v.toNat)

/-- REG_READ. -/
def regRead (s : State) (m : List Byte) : State :=
  let n := byteFld m 17 1
  if !argsZero m [(16, 2), (24, 8)] || decide (6 < byteFld m 16 1) || n == 0 || decide (5 < n) || byteFld m 24 8 % 8 != 0 then
    s.replyTo m rcArg
  else match s.readCmdWords m n 0 [] with
    | (t, d, none) => t.replyTo m rcOk d
    | (t, _, some i) => t.replyTo m rcFailed (leBytes 1 i)

/-- Write words until one meets a bus error. -/
def State.writeCmdWords (s : State) (m : List Byte) (word : Nat → Word) : Nat → Nat → State × Option Nat
  | 0, _ => (s, none)
  | n + 1, i =>
    match cmdReg m i with
    | none => (s, some i)
    | some a => (s.writeReg s.harbourSender a true (word i)).writeCmdWords m word n (i + 1)

/-- REG_WRITE. -/
def regWrite (s : State) (m : List Byte) : State :=
  let n := byteFld m 17 1
  if !argsZero m [(16, 2), (24, 8), (32, 8 * n)] || decide (6 < byteFld m 16 1) || n == 0 || decide (4 < n) || byteFld m 24 8 % 8 != 0 then
    s.replyTo m rcArg
  else match s.writeCmdWords m (fun i => BitVec.ofNat 64 (byteFld m (32 + 8 * i) 8)) n 0 with
    | (t, none) => t.replyTo m rcOk
    | (t, some i) => t.replyTo m rcFailed (leBytes 1 i)

/-- REG_COPY. -/
def regCopy (s : State) (m : List Byte) : State :=
  let n := byteFld m 40 4
  let src := byteFld m 32 8
  if !argsZero m [(16, 1), (24, 20), (48, 8)] || decide (6 < byteFld m 16 1) || byteFld m 24 8 % 8 != 0 || src % 8 != 0
      || decide (hbmEnd < src + n) || n == 0 || n % 8 != 0 || decide (0x100_0000 < n) then s.replyTo m rcArg
  else s.startLong m (byteFld m 48 8) n

/-! ## Faults (15 R412, R416–R418) -/

/-- FAULT_STATUS. -/
def faultStatus (s : State) (m : List Byte) : State :=
  let d := byteFld m 16 2
  if !argsZero m [(16, 2)] || decide (467 < d) then s.replyTo m rcArg
  else s.replyTo m rcOk ([0, 8, 0x10, 0x18].flatMap fun k => leBytes 8 (s.regN .hub (fdOff d k)))

/-- FAULT_RELEASE. -/
def faultRelease (s : State) (m : List Byte) : State :=
  let d := byteFld m 16 2
  if !argsZero m [(16, 2)] || decide (467 < d) then s.replyTo m rcArg
  else if s.domainState d = 1 ∨ s.domainState d = 3 then (s.releaseDomain d).replyTo m rcOk
  else s.replyTo m rcState

/-! ## Images (17 R456, R457, R506) -/

/-- The instances that FW_STAGE and FW_ACTIVATE name; empty where the name is out of range. -/
def namedImages (m : List Byte) : List Nat :=
  let l := kindImages (byteFld m 16 1)
  let k := byteFld m 17 1
  if 3 < byteFld m 16 1 then [] else if k = 0xFF then l else match l[k]? with | some i => [i] | none => []

/-- An activation of a kind is pending. -/
def State.kindPending (s : State) (kind : Nat) : Bool := s.harbour.activations.any fun a => imgKind a.value == kind

/-- FW_STAGE: the image stands in HBM, or in a cistern in recovery mode (17 R450, R456). -/
def fwStage (s : State) (m : List Byte) : State :=
  let a := byteFld m 24 8
  let n := byteFld m 32 4
  let home := if s.inRecovery then (match placeOf a with | .cistern _ => true | _ => false) else decide (a + n ≤ hbmEnd)
  if !argsZero m [(16, 2), (24, 12), (40, 8)] || (namedImages m).isEmpty then s.replyTo m rcArg
  else if s.inRecovery && byteFld m 16 1 != 0 then s.replyTo m rcLimited
  else if n == 0 || !home || !s.reachable a n then s.replyTo m rcArg
  else if s.kindPending (byteFld m 16 1) then s.replyTo m rcBusy
  else s.startLong m (byteFld m 40 8) (2 * n)

/-- The set as it will be once some instances run their inactive banks. -/
def State.setAfter (s : State) (is : List Nat) : List ImgInfo :=
  (List.range 9).map fun i => let b := s.image i; infoOf (imgKind i) (b.image (if is.contains i then b.spare else b.runs))

/-- The refusals of 17 Table 17-4 at acceptance, and that of 19 R506. -/
def State.activationRefusal (s : State) (is : List Nat) (mark : Nat) : Option Nat :=
  let one := fun (i : Nat) =>
    match imgKind i with
    | 0 => if s.harbour.longOps.isEmpty then none else some rcBusy
    | 1 =>
      let q := i - 1
      if (s.quays.any fun e => quayOf e.1 == q && e.2.ops.any fun o => o.admitted && o.status.isNone && decide (mark ≤ o.deadline))
          || (s.groups.any fun e => groupQuay e.1 == q && (match e.2.op with
            | some o => o.admitted && o.status.isNone && decide (mark ≤ o.finish)
            | none => false)) then some rcDeadline
      else if s.harbour.retrains.any fun r => marksMeet r.mark 15_000 mark 12_000 then some rcBusy
      else none
    | 2 =>
      let d := i - 3
      if ((List.range 48).any fun c => s.chState (48 * d + c) == 1)
          || (s.harbour.retrains.any fun r => r.value / 48 == d && decide (mark ≤ r.mark) && decide (r.mark ≤ mark + 2_000_000)) then some rcBusy
      else none
    | _ =>
      let f := i - 7
      if (List.range 8).any fun p => s.portState (8 * f + p) == 1 || !(s.port (8 * f + p)).retuning.isEmpty then some rcBusy else none
  is.findSome? one

/-- FW_ACTIVATE: an accepted one is answered when the activation ends (17 R457). -/
def fwActivate (s : State) (m : List Byte) : State :=
  let is := namedImages m
  let mark := s.cmdMark m
  if !argsZero m [(16, 2), (24, 8)] || is.isEmpty || decide (s.now + 10_000_000_000 < mark) then s.replyTo m rcArg
  else if s.inRecovery && byteFld m 16 1 != 0 then s.replyTo m rcLimited
  else if is.any fun i => !(s.image i).checked (s.image i).spare then s.replyTo m rcState
  else if !s.inRecovery && (evaluateImages (s.setAfter is)).isNone then s.replyTo m rcVersion
  else if s.kindPending (byteFld m 16 1) then s.replyTo m rcBusy
  else match s.activationRefusal is mark with
    | some r => s.replyTo m r
    | none =>
      { s with harbour := { s.harbour with activations := s.harbour.activations ++
          [{ value := is.headD 0, forced := false, mark := mark, msg := m }] } }

/-! ## ATTEST (17 R461–R463) -/

/-- The device's seed, derived from UDS (17 R461). -/
def deviceSeed : List Byte :=
  shake256 ((List.range 32).map (fun i => Config.uds i) ++ "KN1-DEVID".toList.map fun c => BitVec.ofNat 8 c.toNat) 96

/-- The report body of 17 Table 17-5. LIFECYCLE is 0, a production part; the slot that signed a ROM default is a free value. -/
def State.attestBody (s : State) (nonce : List Byte) : List Byte :=
  let hm := fun (i : Nat) => s.bitAt .harbour 0x00 i
  let flags := (if hm 2 then 1 else 0) + (if hm 3 then 2 else 0) + (if s.inRecovery then 4 else 0) + (if s.named then 8 else 0)
  let slot := (s.signerSlot (((s.image 0).image (s.image 0).runs).take 768)).getD ((Config.freeWord s.draws).toNat % 16)
  leBytes 4 0x5241_4B47 ++ leBytes 2 1 ++ leBytes 2 0 ++ nonce ++ ((List.range 64).map fun i => Config.slhPublic256f deviceSeed i)
    ++ leBytes 2 0x00B0 ++ leBytes 1 0 ++ leBytes 1 flags ++ leBytes 2 s.opLevel ++ leBytes 2 0 ++ leBytes 8 s.now
    ++ leBytes 1 s.lockState ++ leBytes 3 0 ++ leBytes 4 s.selfNgi ++ ([0, 1, 2, 3].flatMap fun k => leBytes 1 (s.svnFloor k))
    ++ leBytes 1 (s.revoked.toNat + slot % 16 * 2 ^ 4) ++ leBytes 3 0
    ++ ((List.range 9).flatMap fun i => (List.range 4).flatMap fun k => leBytes 8 (s.regN .boot (0x100 + 0x20 * i + 8 * k)))
    ++ ((List.range 9).flatMap fun i => leBytes 1 (s.image i).runs) ++ List.replicate 75 0 ++ leBytes 4 (Config.certLength % 65537)

/-- The report with its signature, and the certificate. -/
def State.attestReport (s : State) (nonce : List Byte) : List Byte :=
  let body := s.attestBody nonce
  body ++ ((List.range 49_856).map fun i => Config.slhSign256f deviceSeed body i)
    ++ (List.range (Config.certLength % 65537)).map fun i => Config.certByte i

/-- ATTEST. -/
def attest (s : State) (m : List Byte) : State :=
  let a := byteFld m 48 8
  let total := 50_368 + Config.certLength % 65537
  if !argsZero m [(16, 48)] || a % 64 != 0 || !s.reachable a total then s.replyTo m rcArg
  else s.acceptLong m (byteFld m 56 8) total fun s o =>
    (s.updateLong { o with data := s.attestReport ((m.drop 16).take 32) }).drawn

/-- LIFETIME_READ (15 R420). -/
def lifetimeRead (s : State) (m : List Byte) : State :=
  let n := byteFld m 28 4
  if !argsZero m [(16, 24)] || decide (0x10_0000 < byteFld m 24 4 + n) || n == 0 || !s.reachable (byteFld m 16 8) n then s.replyTo m rcArg
  else s.startLong m (byteFld m 32 8) n

/-! ## SET_NGI (17 R464, R467) -/

/-- Ports that advertise zero capacity while the node is UNNAMED (17 R464). -/
def State.unnamedZero (s : State) (p : Nat) : Bool := !trayPort p && !(p == 15 && s.power.straps.toNat.testBit 4)

/-- SET_NGI. -/
def setNgi (s : State) (m : List Byte) : State :=
  let ngi := byteFld m 16 4
  if !argsZero m [(16, 4)] || decide (2 ^ 18 ≤ ngi) then s.replyTo m rcArg
  else if (s.quays.any fun e => e.2.state != 0) || (s.groups.any fun e => e.2.state != 0) || !s.tray.isEmpty then s.replyTo m rcState
  else
    let fresh := !s.named
    let t := ((s.putBoth .router 0x010 (BitVec.ofNat 64 ngi)).putBit .boot 0x000 4 true).dueHello
    let t := if fresh then
        allPorts.foldl (fun (t : State) p => if t.unnamedZero p && t.portUp p then t.retrainPort p else t) t
      else t
    t.replyTo m rcOk

/-- ABORT_OP (14 R394): the operation ends at its next unit boundary. -/
def abortOpCmd (s : State) (m : List Byte) : State :=
  if !argsZero m [(16, 8)] then s.replyTo m rcArg
  else match s.longAt (byteFld m 16 8) with
    | none => s.replyTo m rcArg
    | some o => (s.updateLong { o with abort := true }).replyTo m rcOk

/-! ## Progress of long operations (14 R394) -/

/-- A number of units done since the last update: the spec gives bounds on the time only, so it is a free value. -/
def State.freeUnits (s : State) (n : Nat) : Nat := 1 + (Config.freeWord s.draws).toNat % n

/-- Copy words of REG_COPY: the state, and the word that failed. -/
def State.copyWords (s : State) (m : List Byte) : Nat → Nat → State × Option Nat
  | 0, _ => (s, none)
  | n + 1, i =>
    let src := byteFld m 32 8 + 8 * i
    let r := s.memRead src 8
    match cmdReg m i with
    | none => (s, some i)
    | some a =>
      if r.poison then (s, some i)
      else ((s.afterRead src 8).writeReg s.harbourSender a true (BitVec.ofNat 64 (leNat r.data))).copyWords m n (i + 1)

/-- An operation has done more units. -/
def State.wentOn (s : State) (o : LongOp) : State := (s.updateLong o).putStatus o 1 0

/-- An operation is done when it has no unit left. -/
def State.doneOr (s : State) (o : LongOp) : State := if o.done = o.total then s.endLong o 2 rcOk else s.wentOn o

/-- The next units of REG_COPY. -/
def State.stepRegCopy (s : State) (o : LongOp) : State :=
  let k := s.freeUnits ((o.total - o.done) / 8)
  match s.drawn.copyWords o.msg k (o.done / 8) with
  | (t, none) => t.doneOr { o with done := o.done + 8 * k }
  | (t, some i) => t.endLong { o with done := 8 * i, detail := i } 3 rcFailed

/-- The next units of an operation that writes bytes it has to memory. -/
def State.stepWrite (s : State) (o : LongOp) (a : Nat) (bytes : Nat → Nat → List Byte) : State :=
  let k := s.freeUnits (o.total - o.done)
  (s.drawn.memWrite (a + o.done) (bytes o.done k)).doneOr { o with done := o.done + k }

/-- A bank is written, whole and checked, or in part. -/
def ImageBank.write (b : ImageBank) (img : List Byte) (checked : Bool) : ImageBank :=
  if b.spare = 0 then { b with bankA := img, checkA := checked } else { b with bankB := img, checkB := checked }

/-- Put an image into the inactive bank of every instance that a command names. -/
def State.writeBanks (s : State) (m img : List Byte) (checked : Bool) : State :=
  (namedImages m).foldl (fun (s : State) i => (s.setImage i ((s.image i).write img checked)).showImage i) s

/-- The next units of FW_STAGE: the check, then the writing (17 R456). -/
def State.stepStage (s : State) (o : LongOp) : State :=
  let n := o.total / 2
  let a := byteFld o.msg 24 8
  if o.done < n then
    let k := s.freeUnits (n - o.done)
    let s := s.drawn
    let o := { o with done := o.done + k }
    if o.done < n then s.wentOn o
    else
      let img := s.memRead a n
      let s := s.afterRead a n
      let v := if img.poison then rcSignature else s.verifyImage img.data (byteFld o.msg 16 1)
      if v = 0 then (s.writeBanks o.msg img.data false).wentOn { o with data := img.data } else s.endLong o 3 v
  else
    let k := s.freeUnits (o.total - o.done)
    let s := s.drawn
    let o := { o with done := o.done + k }
    if o.done < o.total then s.wentOn o else (s.writeBanks o.msg o.data true).endLong { o with data := [] } 2 rcOk

/-- CH_RECOVER: bytes refilled, while the poison refill runs; the end comes with CHANNEL_REFILL_DONE. -/
def State.stepRecover (s : State) (o : LongOp) : State :=
  let ch := byteFld o.msg 16 1
  if !(s.channel ch).recover then s.endLong o 3 rcFailed
  else if s.bitAt (groupOf ch) (chOff ch 0x100) 2 ∧ o.done < o.total then
    let k := (Config.freeWord s.draws).toNat % (o.total - o.done)
    s.drawn.wentOn { o with done := o.done + k }
  else s.wentOn o

/-- An aborted operation ends; a channel's recovery ends as a self-test that failed. -/
def State.abortLong (s : State) (o : LongOp) : State :=
  let s := if o.opcode = 0x0032 then
      let ch := byteFld o.msg 16 1
      s.enterFenced (256 + ch)
    else s
  s.endLong o 4 rcAborted

/-- A status word's update (14 R394). A checkpoint and a restore end by their own commands. -/
def State.stepLong (s : State) (o : LongOp) : State :=
  if o.opcode = 0x0060 ∨ o.opcode = 0x0061 then s.putStatus o 1 0
  else if o.abort then s.abortLong o
  else match o.opcode with
    | 0x0042 => s.stepRegCopy o
    | 0x0070 => s.stepStage o
    | 0x0072 => s.stepWrite o (byteFld o.msg 48 8) fun i k => (o.data.drop i).take k
    | 0x0080 => s.stepWrite o (byteFld o.msg 16 8) fun i k => cellBytes s.life.nvm (byteFld o.msg 24 4 + i) k
    | _ => s.stepRecover o

end Sys2Proof.Machine
end

