-- ==== Sys2Proof/Machine/CkptOps.lean ====
section
/-! DEFINITION. Checkpoint and restore (16 R425–R442). -/

namespace Sys2Proof.Machine

/-! ## The plan (16 Tables 16-1 to 16-4) -/

def plSegs (p : List Byte) : Nat := byteFld p 1 1
def plDests (p : List Byte) : Nat := byteFld p 2 1
def plFlag (p : List Byte) (i : Nat) : Bool := (byteFld p 3 1).testBit i
def plStage (p : List Byte) : Nat := byteFld p 24 8
def plCores (p : List Byte) : List Nat := (List.range 256).filter fun c => (byteFld p 128 32).testBit c

/-- Entry s of the segments and entry d of the destinations: a field of it. -/
def sgFld (p : List Byte) (s off n : Nat) : Nat := byteFld p (256 + 32 * s + off) n
def dsFld (p : List Byte) (d off n : Nat) : Nat := byteFld p (512 + 64 * d + off) n

def sgKind (p : List Byte) (s : Nat) : Nat := sgFld p s 0 1
def sgSrc (p : List Byte) (s : Nat) : Fmt := fmtOf (sgFld p s 4 2)
def sgStore (p : List Byte) (s : Nat) : Fmt := fmtOf (sgFld p s 6 2)
def sgAddr (p : List Byte) (s : Nat) : Nat := sgFld p s 8 8
def sgCount (p : List Byte) (s : Nat) : Nat := sgFld p s 16 8
/-- Address of generation g at destination d. -/
def dsGen (p : List Byte) (d g : Nat) : Nat := dsFld p d (8 + 8 * g) 8

/-- Bytes of a segment in the body, padded to 64 (16 R434). -/
def sgBytes (p : List Byte) (s : Nat) : Nat := ceilDiv (sgCount p s * (sgStore p s).size) 64 * 64

/-- Offset of a segment in the body. -/
def sgOff (p : List Byte) : Nat → Nat
  | 0 => 256
  | s + 1 => sgOff p s + sgBytes p s

/-- Bytes of the body. -/
def bodyBytes (p : List Byte) : Nat := sgOff p (plSegs p)

/-- The CDs that hold a range of HBM: all four where a region of it is SPREAD (10 R247, R252). -/
def State.cdsOf (s : State) (a n : Nat) : List Nat :=
  let first := a / 2 ^ 30
  let rs := (List.range ((a + n - 1) / 2 ^ 30 + 1 - first)).map fun i => s.reg .regionTable (0x1000 + 8 * (first + i))
  [0, 1, 2, 3].filter fun cd => rs.any fun e => bit e 0 || fld e 2 2 == cd

/-- The combinations of 16 Table 16-4. -/
def kindFormats (kind src store : Nat) : Bool :=
  let f := fmtOf src
  let g := fmtOf store
  match kind with
  | 0 => src == store
  | 1 => f.code == 0 && g.code == 0
  | 2 => f.code == 0 && g.code == 2 && (g.rnd == 0 || g.rnd == 3)
  | 3 => src == store && (f.code == 5 || f.code == 6)
  | _ => false

/-- A segment entry keeps Tables 16-2 and 16-4 and R70. -/
def segmentOk (p : List Byte) (restore : Bool) (s : Nat) : Bool :=
  let size := (sgSrc p s).size
  kindFormats (sgKind p s) (sgFld p s 4 2) (sgFld p s 6 2) && fmtOk (sgFld p s 4 2) restore && fmtOk (sgFld p s 6 2) (!restore)
    && sgFld p s 1 3 == 0 && sgFld p s 24 8 == 0 && sgAddr p s % 64 == 0 && decide (1 ≤ sgCount p s) && decide (sgCount p s ≤ 2 ^ 34)
    && decide (sgAddr p s + sgCount p s * size ≤ hbmEnd)

/-- A destination entry keeps Table 16-3, and its areas hold the shard. -/
def State.destinationOk (s : State) (p : List Byte) (d : Nat) : Bool :=
  let kind := dsFld p d 0 1
  let cap := dsFld p d 24 8
  dsFld p d 1 3 == 0 && dsFld p d 32 32 == 0 && decide (8192 + bodyBytes p ≤ cap)
    && (if kind = 2 then decide (dsFld p d 4 4 < 2 ^ 18) else dsFld p d 4 4 == 0)
    && [0, 1].all fun g =>
      let a := dsGen p d g
      a % 4096 == 0 && (match kind with
        | 1 => s.remoteTray a && decide (a < 2 ^ 48)
        | 2 => decide (a < 2 ^ 50)
        | 3 => decide (a + cap ≤ hbmEnd)
        | _ => false)

/-- The GROUP_SHAPE field of the header. -/
def shapeOk (g : Nat) : Bool :=
  let levels := bits g 0 8
  decide (1 ≤ levels) && decide (levels ≤ 4) && bits g 40 8 == 0
    && [0, 1, 2, 3].all fun l => decide (l < levels) || bits g (8 + 8 * l) 8 == 0

/-- A plan keeps R428, for a checkpoint or a restore. -/
def State.planOk (s : State) (p : List Byte) (restore : Bool) : Bool :=
  byteFld p 0 1 == (if restore then 2 else 1) && decide (1 ≤ plSegs p) && decide (plSegs p ≤ 8) && decide (1 ≤ plDests p)
    && decide (plDests p ≤ 4) && byteFld p 3 1 / 4 == 0 && (restore || !plFlag p 1) && byteFld p 4 2 != 0 && zeroAt p 6 2
    && decide (byteFld p 8 4 < byteFld p 12 4) && decide (byteFld p 12 4 ≤ 262_144) && decide (1 ≤ byteFld p 16 4)
    && decide (byteFld p 16 4 ≤ 262_144) && (plFlag p 1 || zeroAt p 20 4) && shapeOk (byteFld p 64 8)
    && (if restore then zeroAt p 24 8 else plStage p % 4096 == 0 && decide (plStage p + bodyBytes p + 0x10_0000 ≤ hbmEnd))
    && (!plFlag p 0 || (match placeOf (byteFld p 48 8) with | .bell => true | _ => false))
    && zeroAt p 92 36 && zeroAt p 160 96
    && (List.range (plSegs p)).all (segmentOk p restore) && (List.range (plDests p)).all (s.destinationOk p)
    && (restore || (List.range (plSegs p)).all fun g =>
      (s.cdsOf (sgAddr p g) (sgCount p g * (sgSrc p g).size)).all fun cd => (plCores p).any fun c => c / 64 == cd)

/-- The plan at an address; none where it cannot be read. -/
def State.readPlan (s : State) (a : Nat) : Option (List Byte) :=
  let r := s.memRead a 768
  if a % 64 = 0 ∧ a + 768 ≤ hbmEnd ∧ r.ok ∧ ¬ r.poison then some r.data else none

/-- A plan that a command may start. -/
def State.commandPlan (s : State) (a : Nat) (restore : Bool) : Option (List Byte) :=
  (s.readPlan a).filter fun p => s.planOk p restore

/-! ## Starting and ending (16 R425, R426, R437) -/

/-- TOTAL of a checkpoint (16 R437). -/
def ckptTotal (p : List Byte) : Nat := bodyBytes p * (1 + plDests p)

/-- CHECKPOINT (16 R425, R426, R428): an accepted one waits for its start mark. -/
def checkpointCmd (s : State) (m : List Byte) : State :=
  let status := byteFld m 32 8
  if !argsZero m [(16, 24)] then s.replyTo m rcArg
  else match s.commandPlan (byteFld m 16 8) false with
    | none => s.replyTo m rcArg
    | some p =>
      if s.ckpt.isSome then s.replyTo m rcBusy
      else s.acceptLong m status (ckptTotal p) fun s _ =>
        { s with ckpt := some { planAt := byteFld m 16 8, status := status, mark := byteFld m 24 8, step := s.stepNo } }

/-- The bits of a list of destinations that satisfy a test. -/
def destBits (ds : List Destination) (f : Destination → Bool) : Nat := sumNat (ds.zipIdx.map fun e => if f e.1 then 2 ^ e.2 else 0)

/-- DETAIL (16 Table 16-9). -/
def Checkpoint.detail (k : Checkpoint) : Nat :=
  k.phase % 16 + destBits k.dests Destination.committed * 2 ^ 4 + destBits k.dests Destination.failed * 2 ^ 8
    + destBits k.dests (fun d => d.gen == 1) * 2 ^ 12 + k.cause * 2 ^ 16 + k.events * 2 ^ 32

/-- DONE: bytes formed and bytes shipped (16 R437). -/
def Checkpoint.doneBytes (k : Checkpoint) : Nat := k.formed + bodyBytes k.plan * (k.dests.filter Destination.shipped).length

/-- The counts of the checkpoint's long operation. -/
def Checkpoint.counts (k : Checkpoint) (o : LongOp) : LongOp := { o with done := k.doneBytes, detail := k.detail }

/-- Put the checkpoint, and its counts where its status word takes them from. -/
def State.putCkpt (s : State) (k : Checkpoint) : State :=
  let t : State := { s with ckpt := some k }
  match t.longAt k.status with
  | some o => t.updateLong (k.counts o)
  | none => t

/-- The checkpoint ends: the final status word, and the second reply (16 R437). -/
def State.endCkpt (s : State) (k : Checkpoint) (st result : Nat) : State :=
  let t : State := { s with ckpt := none }
  match t.longAt k.status with
  | some o => t.endLong (k.counts o) st result
  | none => t

def State.failCkpt (s : State) (k : Checkpoint) : State := s.endCkpt k 3 rcFailed

/-- The first cause stands. -/
def Checkpoint.because (k : Checkpoint) (cause : Nat) : Checkpoint := { k with cause := if k.cause = 0 then cause else k.cause }

/-- A piece is entered and not completed. -/
def Piece.inFlight (p : Piece) : Bool := p.core.isSome && !p.done

/-- Pieces whose completion word is written are done (16 R431). -/
def State.pollPieces (s : State) : State :=
  match s.ckpt with
  | none => s
  | some k =>
    let came := fun (p : Piece) => p.inFlight && s.memReadN (p.chain + 64) 8 != 0
    let got := sumNat ((k.pieces.filter came).map fun p => p.count * (sgStore k.plan p.segment).size)
    s.putCkpt { k with formed := k.formed + got, pieces := k.pieces.map fun p => if came p then { p with done := true } else p }

/-- Ring the checkpoint's bell (16 R431). -/
def State.ringCkpt (s : State) (k : Checkpoint) : State :=
  if plFlag k.plan 0 then (s.writeBell (byteFld k.plan 48 8) (BitVec.ofNat 64 (byteFld k.plan 56 8))).getD s else s

/-- ABORT_OP ends the checkpoint at the next piece or copy boundary (16 R436). -/
def State.ckptAborts (s : State) : State :=
  match s.ckpt with
  | none => s
  | some k =>
    match s.longAt k.status with
    | none => s
    | some o =>
      if !o.abort then s
      else if k.pieces.any Piece.inFlight then s.putCkpt { k with noMore := true }
      else s.endCkpt k 4 rcAborted

/-! ## Destinations (16 R434–R436)

What stands in another node's memory, and what it answers, is outside this node: bytes read there and the answers to accesses
there are free values. -/

/-- The access reaches a destination: 0 OK, 5 dead, 6 refused. A tray node that is marked dead or has no route ends it as dead; a
queue that is not ACTIVE or not of class 0 refuses it. -/
def State.destAnswer (s : State) (p : List Byte) (d g : Nat) : Nat × State :=
  let free := match (Config.freeWord s.draws).toNat % 3 with | 0 => 0 | 1 => 5 | _ => 6
  match dsFld p d 0 1 with
  | 1 =>
    let a := dsGen p d g
    let node := bits a 44 3
    let quay := match s.trayRoute node with | some q => q / 8 | none => 0
    if (s.trayRoute node).isNone || bit (s.reg (.quay quay) 0x038) node then
      (5, s.dieTray quay { id := s.trayNext, owner := .node, target := node, addr := a, kind := 1, since := s.clock, vc := 5, quay := quay, size := 64 })
    else (free, s.drawn)
  | 2 =>
    let q := s.quayQueue (dsFld p d 4 4)
    if q.state = 1 ∧ ¬ q.guaranteed then (free, s.drawn) else (6, s)
  | _ => (0, s)

/-- Write bytes into a generation area: to memory for EXPORT; another node's memory is not this node's state. -/
def State.destWrite (s : State) (p : List Byte) (d g off : Nat) (data : List Byte) : State :=
  if dsFld p d 0 1 = 3 then s.memWrite (dsGen p d g + off) data else s

/-- Read bytes of a generation area; none where they cannot be had or are poisoned. -/
def State.destRead (s : State) (p : List Byte) (d g off n : Nat) : Option (List Byte) × State :=
  let a := dsGen p d g + off
  if dsFld p d 0 1 = 3 then
    let r := s.memRead a n
    (if r.ok && !r.poison then some r.data else none, s.afterRead a n)
  else match s.destAnswer p d g with
    | (0, t) => (some ((List.range n).map fun i => BitVec.ofNat 8 (Config.freeByte t.draws (a + i))), t.drawn)
    | (_, t) => (none, t)

/-- A commit record is committed for a plan (16 R434, Table 16-7). -/
def committedRec (p r : List Byte) : Bool :=
  byteFld r 0 4 == 0x4D43_4B47 && byteFld r 4 2 == 1 && byteFld r 16 4 == byteFld p 8 4 && byteFld r 20 4 == byteFld p 12 4

/-- The target generation and the new SEQ, from the two commit records (16 R435). -/
def chooseGen (p : List Byte) (r0 r1 : Option (List Byte)) : Nat × Nat :=
  let seq := fun (r : Option (List Byte)) => (r.filter (committedRec p)).map fun b => byteFld b 12 4
  match seq r0, seq r1 with
  | none, none => (0, 1)
  | none, some b => (0, (b + 1) % 2 ^ 32)
  | some a, none => (1, (a + 1) % 2 ^ 32)
  | some a, some b => (if a ≤ b then 0 else 1, (max a b + 1) % 2 ^ 32)

/-- INVALIDATE of one destination (16 R430, R435). -/
def State.invalidate (s : State) (k : Checkpoint) (d : Nat) : State × Checkpoint :=
  let (r0, s) := s.destRead k.plan d 0 0 64
  let (r1, s) := s.destRead k.plan d 1 0 64
  let (gen, seq) := chooseGen k.plan r0 r1
  let (st, s) := s.destAnswer k.plan d gen
  let dst : Destination := { gen := gen, seq := seq, failed := st != 0 }
  let k := { k with dests := k.dests ++ [dst] }
  if st = 0 then (s.destWrite k.plan d gen 0 (leBytes 4 0), k) else (s, k.because st)

/-- INVALIDATE of every destination. -/
def State.invalidateAll : Nat → Nat → State × Checkpoint → State × Checkpoint
  | 0, _, x => x
  | n + 1, d, x => State.invalidateAll n (d + 1) (x.1.invalidate x.2 d)

/-! ## FORM (16 R431, R432) -/

/-- The pieces of a segment: at most 64 MiB of source and one pump descriptor, within one region. -/
def cutPieces (p : List Byte) (g : Nat) : Nat → Nat → Nat → List Piece
  | 0, _, _ => []
  | fuel + 1, first, left =>
    if left = 0 then []
    else
      let size := (sgSrc p g).size
      let a := sgAddr p g + first * size
      let k := min (min left (2 ^ 24)) (min (2 ^ 26) (2 ^ 30 - a % 2 ^ 30) / size)
      { segment := g, first := first, count := k, chain := 0 } :: cutPieces p g fuel (first + k) (left - k)

/-- Every piece of a plan. -/
def planPieces (p : List Byte) : List Piece :=
  (List.range (plSegs p)).flatMap fun g => cutPieces p g (sgCount p g / 2 ^ 17 + 8) 0 (sgCount p g)

/-- The directory of the body (16 R434). -/
def directory (p : List Byte) : List Byte :=
  ((List.range (plSegs p)).flatMap fun g =>
    (p.drop (256 + 32 * g)).take 8 ++ leBytes 8 (sgCount p g) ++ leBytes 8 (sgOff p g) ++ leBytes 8 0)
    ++ List.replicate (256 - 32 * plSegs p) 0

/-- FORM begins: the directory and the padding of the body stand in STAGE. -/
def State.beginForm (s : State) (k : Checkpoint) : State :=
  let p := k.plan
  let s := s.memWrite (plStage p) (directory p)
  let s := (List.range (plSegs p)).foldl (fun (s : State) g =>
    let n := sgCount p g * (sgStore p g).size
    s.memWrite (plStage p + sgOff p g + n) (List.replicate (sgBytes p g - n) 0)) s
  s.putCkpt { k with phase := 2, formFrom := s.clock, pieces := planPieces p, formed := 256 }

/-- The harbourmaster's firmware runs. -/
def State.hmRuns (s : State) : Bool := !s.harbour.inReset && !s.harbour.hold && s.bitAt .harbour 0x00 0

/-- A schedule request that waits becomes the checkpoint; its status word is zeroed where it is final (16 R425, R426). -/
def State.takeRequest16 (s : State) : State :=
  match s.ckpt, s.harbour.requests with
  | none, (plan, mark, step) :: rest =>
    let status := s.memReadN (plan + 32) 8
    let s := if 2 ≤ s.memReadN (status + 10) 1 then s.memWrite status (List.replicate 64 0) else s
    let o : LongOp := { msg := List.replicate 64 0, opcode := 0x0060, status := status, done := 0, total := 0, start := s.now }
    let t : State := { s with harbour := { s.harbour with requests := rest }
                              ckpt := some { planAt := plan, status := status, mark := mark, step := step } }
    (t.setLong (t.harbour.longOps ++ [o])).putStatus o 1 0
  | _, _ => s

/-- CHECKPOINT_BEGIN: the plan is read, every destination is invalidated, and FORM begins (16 R425–R430). -/
def State.beginCkpt (s : State) : State :=
  if !s.hmRuns then s
  else
    let s := s.takeRequest16
    match s.ckpt with
    | none => s
    | some k =>
      if k.phase ≠ 0 ∨ s.now < k.mark then s
      else match s.commandPlan k.planAt false with
        | none => s.failCkpt { k with cause := 1 }
        | some p =>
          let s := s.afterRead k.planAt 768
          let s := match s.longAt k.status with
            | some o => s.updateLong { o with total := ckptTotal p }
            | none => s
          let (s, k) := State.invalidateAll (plDests p) 0 (s, { k with plan := p, phase := 1 })
          s.beginForm k

/-- Where a core's FORM chain stands: 128 bytes of the chain area hold its descriptor and its completion word. -/
def chainAt (p : List Byte) (c : Nat) : Nat := plStage p + bodyBytes p + 128 * c

/-- The pump descriptor of a piece (04 Table 4-7, 16 R431): CONVERT for MOMENTS, a copy of codes otherwise. -/
def pieceDesc (p : List Byte) (x : Piece) (chain : Nat) : List Byte :=
  let g := x.segment
  let conv := sgKind p g == 2
  leBytes 8 (descKind 5 + 2 ^ 8) ++ leBytes 8 (sgAddr p g + x.first * (sgSrc p g).size)
    ++ leBytes 8 (plStage p + sgOff p g + x.first * (sgStore p g).size) ++ leBytes 4 x.count ++ leBytes 2 0
    ++ leBytes 2 (if conv then 4 else 0) ++ leBytes 8 0 ++ leBytes 2 (sgFld p g (if conv then 4 else 6) 2) ++ leBytes 2 (sgFld p g 6 2)
    ++ leBytes 4 1 ++ leBytes 8 0 ++ leBytes 8 (chain + 64)

/-- A core may carry a piece: it is named in CORES and lies on a CD of the source. -/
def State.mayCarry (s : State) (k : Checkpoint) (x : Piece) (c : Nat) : Bool :=
  (plCores k.plan).contains c && x.tried != some c
    && (s.cdsOf (sgAddr k.plan x.segment + x.first * (sgSrc k.plan x.segment).size) (x.count * (sgSrc k.plan x.segment).size)).contains (c / 64)

/-- Replace the first element that satisfies a test. -/
def replaceFirst {α : Type} (p : α → Bool) (f : α → α) : List α → List α
  | [] => []
  | x :: xs => if p x then f x :: xs else x :: replaceFirst p f xs

/-- FORM_PIECE_ENTER (16 R431): the next piece goes into pump 1 of a core that carries none. -/
def State.enterPiece (s : State) (c : Nat) : State :=
  let s := s.pollPieces.ckptAborts
  match s.ckpt with
  | none => s
  | some k =>
    if !s.hmRuns || k.phase != 2 || k.noMore || k.pieces.any (fun x => x.inFlight && x.core == some c) then s
    else
      let mine := fun (x : Piece) => x.core.isNone && !x.done && s.mayCarry k x c
      match k.pieces.find? mine with
      | none => s
      | some x =>
        let a := chainAt k.plan c
        match s.enterHarbour c 5 a with
        | none => s
        | some t =>
          (t.memWrite a (pieceDesc k.plan x a ++ leBytes 8 0)).putCkpt
            { k with pieces := replaceFirst mine (fun y => { y with core := some c, chain := a }) k.pieces }

/-- The chain of a piece still stands in its pump's queue. -/
def State.chainStands (s : State) (c a : Nat) : Bool :=
  let r := s.queue c 5
  r.chains.any (fun e => e.addr == a) || r.reserved == some a || r.running.any (fun e => e.addr == a)

/-- What the harbourmaster makes of one piece that it has entered (16 R431, R436): a halted descriptor is retired with SKIP, and no
further piece is entered; a chain that ended ABORTED may be entered on another core. -/
def State.pollPiece (s : State) (k : Checkpoint) (x : Piece) : State × Checkpoint :=
  match x.core with
  | none => (s, k)
  | some c =>
    if x.done then (s, k)
    else
      let is := fun (y : Piece) => y == x
      match (s.queue c 5).halted with
      | some h =>
        if h.addr = x.chain then
          let code := s.fldAt (.core c) (qOff 5 0x120) 8 8
          (s.skipQueue c 5, { (k.because (if code = 3 then 3 else 1)) with
            noMore := true, pieces := replaceFirst is (fun y => { y with done := true }) k.pieces })
        else if s.chainStands c x.chain then (s, k)
        else (s, { k with pieces := replaceFirst is (fun y => { y with core := none, tried := some c }) k.pieces })
      | none =>
        if s.chainStands c x.chain then (s, k)
        else (s, { k with pieces := replaceFirst is (fun y => { y with core := none, tried := some c }) k.pieces })

/-- A piece that no ONLINE core can carry (16 R431). -/
def State.stranded (s : State) (k : Checkpoint) (x : Piece) : Bool :=
  x.core.isNone && !x.done && !(List.range 256).any fun c => s.coreState c == 0 && s.mayCarry k x c

/-- FORM_POLL (16 R431). -/
def State.pollForm (s : State) : State :=
  let s := s.pollPieces.ckptAborts
  match s.ckpt with
  | none => s
  | some k =>
    if !s.hmRuns || k.phase != 2 then s
    else
      let (s, k) := k.pieces.foldl (fun (x : State × Checkpoint) p => x.1.pollPiece x.2 p) (s, k)
      s.putCkpt (if k.pieces.any (s.stranded k) then { (k.because 2) with noMore := true } else k)

/-- A destination whose queue is not ACTIVE when SHIP starts is as one that refuses (16 R436). -/
def State.shipStart (s : State) (k : Checkpoint) : Checkpoint :=
  let bad := fun (d : Nat) => dsFld k.plan d 0 1 == 2 && (s.quayQueue (dsFld k.plan d 4 4)).state != 1
  let any := k.dests.zipIdx.any fun e => bad e.2 && !e.1.failed
  let k := if any then k.because 6 else k
  { k with phase := 3, formedAt := s.now, dests := k.dests.zipIdx.map fun e => if bad e.2 then { e.1 with failed := true } else e.1 }

/-- When every destination has committed or failed, the checkpoint ends (16 R430, R437). -/
def State.settleCkpt (s : State) (k : Checkpoint) : State :=
  if k.dests.all fun d => d.committed || d.failed then
    let k := { k with phase := 5 }
    if k.dests.all Destination.committed then s.endCkpt k 2 rcOk else s.failCkpt k
  else s.putCkpt k

/-- FORM_END (16 R430, R431, R436): BELL is rung, and SHIP begins or the checkpoint has failed. -/
def State.endForm (s : State) : State :=
  let s := s.pollPieces.ckptAborts
  match s.ckpt with
  | none => s
  | some k =>
    if !s.hmRuns || k.phase != 2 || k.pieces.any Piece.inFlight then s
    else if k.noMore then
      (if k.cause = 2 then s else s.ringCkpt k).failCkpt k
    else if k.pieces.all Piece.done then
      let s := s.ringCkpt k
      s.settleCkpt (s.shipStart { k with formed := bodyBytes k.plan })
    else s

/-- FORM_LATE (16 R432): no further chain is entered; it ends when those entered have completed. -/
def State.lateForm (s : State) : State :=
  let s := s.pollPieces
  match s.ckpt with
  | none => s
  | some k =>
    let limit := byteFld k.plan 40 8
    if !s.hmRuns || k.phase != 2 || limit == 0 || decide (s.clock < k.formFrom + limit) || k.pieces.all Piece.done then s
    else
      let k := { (k.because 4) with noMore := true }
      if k.pieces.any Piece.inFlight then s.putCkpt k else (s.ringCkpt k).failCkpt k

/-! ## SHIP and COMMIT (16 R430, R434, R436) -/

/-- The shard header before its digest (16 Table 16-6). -/
def shardHead (k : Checkpoint) (d : Destination) : List Byte :=
  let p := k.plan
  leBytes 4 0x4B53_4B47 ++ leBytes 2 1 ++ leBytes 2 (byteFld p 4 2) ++ leBytes 4 k.step ++ leBytes 4 d.seq ++ (p.drop 8).take 12
    ++ leBytes 1 (plSegs p) ++ leBytes 3 0 ++ leBytes 8 (bodyBytes p) ++ leBytes 8 k.formedAt ++ (p.drop 64).take 8 ++ (p.drop 72).take 16
    ++ ((List.range 8).flatMap fun g => leBytes 2 (if g < plSegs p then sgFld p g 6 2 else 0)) ++ leBytes 8 0

/-- A commit record, from the header (16 Table 16-7). -/
def commitRecord (h : List Byte) : List Byte :=
  leBytes 4 0x4D43_4B47 ++ (h.drop 4).take 20 ++ (h.drop 32).take 8 ++ (h.drop 96).take 32

/-- Replace a destination. -/
def Checkpoint.setDest (k : Checkpoint) (i : Nat) (d : Destination) : Checkpoint :=
  { k with dests := k.dests.zipIdx.map fun e => if e.2 = i then d else e.1 }

/-- A destination fails. -/
def Checkpoint.failDest (k : Checkpoint) (i cause : Nat) (d : Destination) : Checkpoint :=
  (k.because cause).setDest i { d with failed := true }

/-- SHIP_DONE: body, digest and header of a destination (16 R434). A staged body that reads as poisoned or cannot be read fails it. -/
def State.shipDone (s : State) (i : Nat) : State :=
  let s := s.ckptAborts
  match s.ckpt with
  | none => s
  | some k =>
    match k.dests[i]? with
    | none => s
    | some d =>
      if !s.hmRuns || k.phase != 3 || d.shipped || d.failed then s
      else
        let n := bodyBytes k.plan
        let r := s.memRead (plStage k.plan) n
        let s := s.afterRead (plStage k.plan) n
        if !r.ok || r.poison then s.settleCkpt (k.failDest i 3 d)
        else match s.destAnswer k.plan i d.gen with
          | (0, s) =>
            let head := shardHead k d
            let h := head ++ shake256 (head ++ r.data) 32
            let s := (s.destWrite k.plan i d.gen 8192 r.data).destWrite k.plan i d.gen 4096 h
            s.putCkpt (k.setDest i { d with shipped := true, header := h })
          | (st, s) => s.settleCkpt (k.failDest i st d)

/-- COMMIT: the commit record of a destination (16 R430). -/
def State.commitDest (s : State) (i : Nat) : State :=
  let s := s.ckptAborts
  match s.ckpt with
  | none => s
  | some k =>
    match k.dests[i]? with
    | none => s
    | some d =>
      if !s.hmRuns || k.phase != 3 || !d.shipped || d.committed || d.failed then s
      else match s.destAnswer k.plan i d.gen with
        | (0, s) =>
          (s.destWrite k.plan i d.gen 0 (commitRecord d.header)).settleCkpt (k.setDest i { d with committed := true })
        | (st, s) => s.settleCkpt (k.failDest i st d)

/-! ## Restore (16 R438–R442) -/

/-- A candidate: destination, generation and commit record. -/
structure Candidate where
  dest : Nat
  gen  : Nat
  rec_ : List Byte
  deriving DecidableEq, Repr

def Candidate.step (c : Candidate) : Nat := byteFld c.rec_ 8 4
def Candidate.seq (c : Candidate) : Nat := byteFld c.rec_ 12 4

/-- Every committed generation of every destination. -/
def State.candidates (p : List Byte) : List (Nat × Nat) → State → List Candidate × State
  | [], s => ([], s)
  | (d, g) :: rest, s =>
    let (r, s) := s.destRead p d g 0 64
    let (cs, s) := State.candidates p rest s
    (match r with
     | some b => if committedRec p b then { dest := d, gen := g, rec_ := b } :: cs else cs
     | none => cs, s)

/-- Order: STEP descending, SEQ descending, destination, generation (16 R440). -/
def Candidate.before (a b : Candidate) : Bool :=
  decide (b.step < a.step) || (a.step == b.step && (decide (b.seq < a.seq)
    || (a.seq == b.seq && (decide (a.dest < b.dest) || (a.dest == b.dest && decide (a.gen < b.gen))))))

def insertCand (c : Candidate) : List Candidate → List Candidate
  | [] => [c]
  | x :: xs => if c.before x then c :: x :: xs else x :: insertCand c xs

/-- A header and a directory fit a plan (16 R439). -/
def fitsPlan (p h dir : List Byte) : Bool :=
  byteFld h 0 4 == 0x4B53_4B47 && byteFld h 4 2 == 1 && (h.drop 16).take 12 == (p.drop 8).take 12
    && (h.drop 48).take 24 == (p.drop 64).take 24 && dir == directory p
    && (List.range 8).all fun g => byteFld h (72 + 2 * g) 2 == (if g < plSegs p then sgFld p g 6 2 else 0)

/-- Copy a segment out of the body: E8M7 is widened, everything else is copied (16 R429). -/
def State.copySegment (s : State) (p body : List Byte) (g : Nat) : State :=
  let sz := (sgStore p g).size
  let codes := (List.range (sgCount p g)).map fun i => byteFld body (sgOff p g + sz * i) sz
  let out := if sgKind p g = 2 then codes.flatMap fun x => leBytes 4 (convert (sgStore p g) (sgSrc p g) 0 x).code
    else codes.flatMap fun x => leBytes sz x
  s.memWrite (sgAddr p g) out

/-- Every segment address holds undefined values: free bytes (16 R441). -/
def State.scramble (s : State) (p : List Byte) : State :=
  (List.range (plSegs p)).foldl (fun (s : State) g =>
    let n := sgCount p g * (sgSrc p g).size
    (s.memWrite (sgAddr p g) ((List.range n).map fun i => BitVec.ofNat 8 (Config.freeByte s.draws (sgAddr p g + i)))).drawn) s

/-- What a restore keeps while it runs: bytes read, candidates rejected, and whether one of another shape was met. -/
structure Restoring where
  bytes    : Nat := 0
  tried    : Nat := 0
  rejected : Nat := 0
  shape    : Bool := false
  deriving DecidableEq, Repr

/-- The loop of R440: the candidate restored, if any. -/
def State.tryCandidates (p : List Byte) : List Candidate → Restoring → State → Option Candidate × Restoring × State
  | [], r, s => (none, r, s)
  | c :: cs, r, s =>
    let r := { r with tried := r.tried + 1 }
    let n := bodyBytes p
    let (h, s) := s.destRead p c.dest c.gen 4096 128
    let (dir, s) := s.destRead p c.dest c.gen 8192 256
    let fits := match h, dir with
      | some h, some d => fitsPlan p h d
      | _, _ => false
    let hd := h.getD []
    if !fits || (hd.drop 96).take 32 != (c.rec_.drop 32).take 32 then
      State.tryCandidates p cs { r with rejected := r.rejected + 1, shape := r.shape || !fits } s
    else
      let (body, s) := s.destRead p c.dest c.gen 8192 n
      let b := body.getD []
      let s := (List.range (plSegs p)).foldl (fun (s : State) g => s.copySegment p b g) s
      let (again, s) := s.destRead p c.dest c.gen 0 64
      let r := { r with bytes := r.bytes + n }
      if body.isSome && shake256 (hd.take 96 ++ b) 32 == (hd.drop 96).take 32 && again == some c.rec_ then (some c, r, s)
      else State.tryCandidates p cs { r with rejected := r.rejected + 1 } (s.scramble p)

/-- RESTORE runs (16 R440, R442). -/
def State.runRestore (s : State) (p : List Byte) (o : LongOp) : State :=
  let all := (List.range (plDests p)).flatMap fun d => [(d, 0), (d, 1)]
  let (cs, s) := State.candidates p all s
  let cs := if plFlag p 1 then cs.filter fun c => c.step == byteFld p 20 4 else cs
  let (got, r, s) := State.tryCandidates p (cs.foldr insertCand []) {} s
  let o := { o with done := r.bytes, total := bodyBytes p * max 1 r.tried }
  let rej := min r.rejected 0xFFFF * 2 ^ 48
  match got with
  | some c => s.endLong { o with detail := c.step + c.dest * 2 ^ 32 + c.gen * 2 ^ 34 + rej } 2 rcOk
  | none =>
    let cause := if r.shape then 8 else if plFlag p 1 then 9 else 7
    (s.scramble p).endLong { o with detail := cause * 2 ^ 40 + rej } 3 rcFailed

/-- RESTORE (16 R426, R428, R438): it runs whole when it is taken. -/
def restoreCmd (s : State) (m : List Byte) : State :=
  if !argsZero m [(16, 8), (32, 8)] then s.replyTo m rcArg
  else match s.commandPlan (byteFld m 16 8) true with
    | none => s.replyTo m rcArg
    | some p =>
      if s.ckpt.isSome then s.replyTo m rcBusy
      else s.acceptLong m (byteFld m 32 8) (bodyBytes p) fun s o => (s.afterRead (byteFld m 16 8) 768).runRestore p o

/-- While a checkpoint waits for its mark, the step that it will record is the present one (16 R425). -/
def State.markStep (s : State) : State :=
  match s.ckpt with
  | some k => if k.phase = 0 ∧ s.now ≤ k.mark then { s with ckpt := some { k with step := s.stepNo } } else s
  | none => s

end Sys2Proof.Machine
end

