-- ==== Sys2Proof/Machine/StartOps.lean ====
section
/-! DEFINITION. Power-up, resets, the start-up stages and activations as they happen (17 R446–R459, 18 R487–R490). -/

namespace Sys2Proof.Machine

/-! ## Pins and stages -/

/-- STAGE of BOOT_STATUS. -/
def State.stage (s : State) : Nat := s.fldAt .boot 0x000 0 4

/-- VAON rises, with POR_N low: the island starts, the tide is cleared and POWER_CYCLES counts (02 R40, 18 R487). -/
def State.vaonUp (s : State) : State :=
  if s.power.porN then s
  else
    let p := s.power
    let off : State :=
      { pending := s.pending, life := { s.life with live := [] }, images := dropTrials s.images
        revoked := s.revoked, svnMin := s.svnMin, draws := s.draws
        power := { vaon := true, brakeN := p.brakeN, alertN := p.alertN, vrFaultN := p.vrFaultN } }
    off.lifeAdd 0x18 4 1

/-- POR_N rises (17 R446, 18 R487, R490). -/
def State.porUp (s : State) (straps : BitVec 5) : State :=
  if !s.power.vaon || s.power.porN || !s.power.slpDeepN then s else s.start straps

/-- POR_N falls (18 R488). -/
def State.porDown (s : State) : State := if s.power.porN then s.powerOff else s

/-- RESET_N low for 10 µs while POR_N is high: a start from stage 2 (18 R489, R490). -/
def State.resetPin (s : State) (straps : BitVec 5) : State := if s.power.porN then s.powerOff.start straps else s

/-- A stage runs once the one before it is reached. -/
def State.runStage (s : State) (reached : Nat) (f : State → State) : State := if s.power.porN && s.stage == reached then f s else s

/-! ## Activations (17 R457, R458) -/

/-- Take an instance's activation out of the accepted ones. -/
def State.dropActivation (s : State) (i : Nat) : State :=
  { s with harbour := { s.harbour with activations := s.harbour.activations.filter fun a => a.value != i } }

/-- The activation of an instance fails: FAILED with its index. -/
def State.failActivation (s : State) (i : Nat) (m : List Byte) : State := (s.dropActivation i).replyTo m rcFailed (leBytes 1 i)

/-- The bank of an instance that is to run starts unconfirmed; instance 0 restarts, and commands wait (17 Table 17-4). -/
def State.switchImage (s : State) (i : Nat) : State :=
  let b := s.image i
  let s := s.setImage i { b with trial := some b.spare, trialMark := s.clock }
  if i = 0 then ({ s with harbour := { s.harbour with hold := true } }).putBit .harbour 0x00 0 false else s

/-- In recovery mode a successful activation restarts the node from stage 3, which finds the bank that passes (17 R450). -/
def State.leaveRecovery (s : State) (m : List Byte) : State :=
  let s := (s.dropActivation 0).replyTo m rcOk
  (s.putBit .boot 0x000 5 false).putFld .boot 0x000 0 4 2

/-- ACTIVATION_MARK. -/
def State.activate (s : State) (i : Nat) : State :=
  if s.harbour.inReset || s.harbour.hold then s
  else match s.harbour.activations.find? fun a => a.value == i with
    | none => s
    | some a =>
      if s.now < a.mark ∨ (s.image i).trial.isSome then s
      else if s.inRecovery then s.leaveRecovery a.msg
      else if (evaluateImages (s.setAfter [i])).isNone then s.failActivation i a.msg
      else s.switchImage i

/-- Instance 0's hold ends: its firmware takes commands (17 Table 17-4). -/
def State.endHold (s : State) : State :=
  if s.harbour.hold then ({ s with harbour := { s.harbour with hold := false } }).putBit .harbour 0x00 0 true else s

/-- The activation of a confirmed instance: the next instance of its kind after 1 ms, or the reply (17 R457). -/
def State.nextActivation (s : State) (i : Nat) : State :=
  match s.harbour.activations.find? fun a => a.value == i with
  | none => s
  | some a =>
    let t := s.dropActivation i
    if byteFld a.msg 17 1 = 0xFF ∧ (kindImages (imgKind i)).contains (i + 1) then
      let c : Marked := { a with value := i + 1, mark := s.now + 1_000_000 }
      { t with harbour := { t.harbour with activations := t.harbour.activations ++ [c] } }
    else t.replyTo a.msg rcOk

/-- INSTANCE_CONFIRM (17 R458). -/
def State.instanceConfirm (s : State) (i : Nat) (running : Bool) : State :=
  match (s.image i).trial with
  | none => s
  | some b =>
    if i = 0 then (if running then s.endHold else s)
    else if running then (s.confirmImage i b).nextActivation i
    else
      let t := s.revertImage i
      match t.harbour.activations.find? fun a => a.value == i with
      | some a => t.failActivation i a.msg
      | none => t

/-- ACTIVATION_CONFIRM_TIMEOUT (17 R458): the old bank restarts with ACT_FAIL, and the old firmware replies. -/
def State.confirmTimeout (s : State) : State :=
  if (s.image 0).trial.isNone || decide (s.clock < (s.image 0).trialMark + 500_000_000) then s
  else
    let t := ((s.revertImage 0).putBit .boot 0x000 6 true).endHold
    match t.harbour.activations.find? fun a => a.value == 0 with
    | some a => t.failActivation 0 a.msg
    | none => t

end Sys2Proof.Machine
end

