-- ==== Sys2Proof/Machine/Boot.lean ====
section
/-! DEFINITION. The commands of start-up and activation (17, 18 R487–R490). -/

namespace Sys2Proof.Machine

/-- VAON_POWER_UP (02 R40). -/
def execVaonPowerUp (s : State) : Host.Outcome State Fault Refusal := .next s.vaonUp

/-- POR_RISE (18 R487, R490). -/
def execPorRise (straps : BitVec 5) (s : State) : Host.Outcome State Fault Refusal := .next (s.porUp straps)

/-- POR_FALL (18 R488). -/
def execPorFall (s : State) : Host.Outcome State Fault Refusal := .next s.porDown

/-- RESET_N (18 R489). -/
def execResetN (straps : BitVec 5) (s : State) : Host.Outcome State Fault Refusal := .next (s.resetPin straps)

/-- BOOT_ROM (17 R446, R450). -/
def execBootRom (s : State) : Host.Outcome State Fault Refusal := .next (s.runStage 2 State.romStage)

/-- FIRMWARE_STAGE (17 R446). -/
def execFirmwareStage (s : State) : Host.Outcome State Fault Refusal :=
  .next (if s.inRecovery then s else s.runStage 4 State.firmwareStart)

/-- HBM_STAGE (17 R446, R447). -/
def execHbmStage (failed : List Nat) (s : State) : Host.Outcome State Fault Refusal :=
  .next (s.runStage 5 fun s => s.hbmStart failed)

/-- ACTIVATION_MARK (17 R457). -/
def execActivationMark (image : Fin 9) (s : State) : Host.Outcome State Fault Refusal := .next (s.activate image.val)

/-- ACTIVATION_CONFIRM_TIMEOUT (17 R458). -/
def execActivationConfirmTimeout (s : State) : Host.Outcome State Fault Refusal := .next s.confirmTimeout

/-- INSTANCE_CONFIRM (17 R458). -/
def execInstanceConfirm (image : Fin 9) (running : Bool) (s : State) : Host.Outcome State Fault Refusal :=
  .next (s.instanceConfirm image.val running)

end Sys2Proof.Machine
end

