-- ==== Sys2Proof/Machine/Checkpoint.lean ====
section
/-! DEFINITION. The checkpoint's own commands (16 R430–R437). -/

namespace Sys2Proof.Machine

/-- CHECKPOINT_BEGIN. -/
def execCheckpointBegin (s : State) : Host.Outcome State Fault Refusal := .next s.beginCkpt

/-- FORM_PIECE_ENTER. -/
def execFormPieceEnter (core : Fin 256) (s : State) : Host.Outcome State Fault Refusal := .next (s.enterPiece core.val)

/-- FORM_POLL. -/
def execFormPoll (s : State) : Host.Outcome State Fault Refusal := .next s.pollForm

/-- FORM_END. -/
def execFormEnd (s : State) : Host.Outcome State Fault Refusal := .next s.endForm

/-- FORM_LATE. -/
def execFormLate (s : State) : Host.Outcome State Fault Refusal := .next s.lateForm

/-- SHIP_DONE. -/
def execShipDone (dest : Fin 4) (s : State) : Host.Outcome State Fault Refusal := .next (s.shipDone dest.val)

/-- COMMIT. -/
def execCommit (dest : Fin 4) (s : State) : Host.Outcome State Fault Refusal := .next (s.commitDest dest.val)

end Sys2Proof.Machine
end

