-- ==== Sys2Proof/Machine/QuayRun.lean ====
section
/-! DEFINITION. Packets that arrive at a quay: requests and answers of queues, and tray requests (12 R321–R325, R336–R340). -/

namespace Sys2Proof.Machine

/-! ## Taking packets -/

/-- RMODE of the answer to a request (12 R322, R336): 1 for a guaranteed queue and for a tray request, else the answering queue's, and
where DQ has no context the request's own (log 82). -/
def State.answerMode (s : State) (p : Packet) : Nat :=
  let r := s.quayQueue (p.dq % 2 ^ 18)
  if p.guar ∨ 11 ≤ p.tkind then 1 else if r.state = 0 then p.rmode else r.rmode

/-- Answer a packet with ERROR: PSN, and in DATA the kind, of the request (12 R323, R336). -/
def State.sendError (s : State) (quay : Nat) (p : Packet) (dq status : Nat) : State :=
  let s := if status = 6 then s.quayCount quay 10 1 else s
  s.inject
    { vc := if p.vc = 0 then 0 else respVc p.guar, ovc := 0, rmode := s.answerMode p, dst := p.src, src := 0, tag := p.tag, tkind := 15, last := true, guar := p.guar
      code := status, dq := dq, sq := p.dq % 2 ^ 18, psn := p.psn, data := p.tkind }

/-! ## Atomic operations (12 Table 12-2, 07 Table 7-3) -/

/-- Perform an atomic operation on memory; a poisoned operand makes the result poisoned. -/
def State.amoAt (s : State) (a n aop x y : Nat) (poison : Bool) : State :=
  s.memWrite a (leBytes n (amoResult aop n (s.memReadN a n) x y)) poison

/-! ## The receiving end of a queue (12 R323, R324) -/

/-- Send a cumulative ACK with the stamp of the last request performed (12 R321, R324); bit 0 of DATA carries TIDE_Q. It acknowledges every PSN
below RX_PSN, so that of the fetched ATOMIC results only one of the PSN just below is kept on. -/
def State.sendAck (s : State) (q : Nat) : State :=
  let r := s.quayQueue q
  let kept := r.kept.filter fun e => decide (diff32 r.rxPsn e.1 ≤ 1)
  (s.setQuayQueue q { r with unacked := 0, ackFrom := none, kept := kept }).sendControl q 7 r.rxPsn r.stamp (if s.tideQ then 1 else 0)

/-- A field of an opening as requests that arrive now see it (12 R323). -/
def State.openWord (s : State) (quay i k : Nat) : Word := s.laggedReg (blockBase (.quay quay) + 0x1_0000 + 0x20 * i + 8 * k)

/-- The node address of a range of an opening, or the status that ERROR carries: TAG or ACCESS (12 R323). -/
def State.openAt (s : State) (q : Nat) (p : Packet) (n right : Nat) : Except Nat Nat :=
  let i := bits p.addr 40 10
  let off := p.addr % 2 ^ 40
  let w := fun k => s.openWord (quayOf q) i k
  if fld (w 2) 0 16 ≠ p.tag then .error 6
  else if !bit (w 2) 23 || !bit (w 2) right || decide (fld (w 1) 0 41 < off + n) then .error 2
  else .ok (fld (w 0) 0 48 + off)

/-- The sender of the writes that a quay makes for a peer. -/
def State.quaySender (s : State) : Sender := s.localSender 322

/-- The operation has not ended and a PSN is one of its packets. -/
def QuayOp.owns (o : QuayOp) (psn : Nat) : Bool := o.status.isNone && decide (diff32 psn o.firstPsn < diff32 o.endPsn o.firstPsn)

/-- The data of a tray store: up to 8 bytes stand in DATA, more in the payload; DQ [13:1] counts them (12 Table 12-6; log 20). -/
def storeData (p : Packet) : List Byte :=
  let n := bits p.dq 1 13
  if n ≤ 8 then leBytes n p.data else p.payload.take n

/-- The HBM range that a packet's performance reads or writes takes no access now (10 R263). -/
def State.packetWaits (s : State) (p : Packet) : Bool :=
  let q := p.dq % 2 ^ 18
  let r := s.quayQueue q
  let opening := fun (n right : Nat) => match s.openAt q p n right with
    | .ok a => s.hbmWaits a n
    | .error _ => false
  let local_ := fun (o : QuayOp) => s.hbmWaits (wrLocal o.request + 4096 * diff32 p.psn o.firstPsn) (max 1 (max p.payload.length (wrAsize o.request)))
  match p.tkind with
  | 1 => opening p.payload.length 16
  | 2 => opening p.data 17
  | 3 | 6 => (r.ops.filter fun o => o.owns p.psn).any local_
  | 4 => (r.rqN != 0 && s.hbmWaits (r.fld 40 8 + r.slotSize * (r.rqTail % r.rqN) + p.addr) p.payload.length)
      || (p.last && s.hbmWaits r.recordAt 32)
  | 5 => opening (if p.code.testBit 4 then 8 else 4) 18
  | 11 => s.hbmWaits (trayLocal p.addr) p.data
  | 12 => s.hbmWaits (trayLocal p.addr) (storeData p).length
  | 13 => s.hbmWaits (trayLocal p.addr) 8
  | _ => false

/-- The packet that a quay takes next, where it is of one of the kinds given. Packets wait while an activation holds the quay
(17 Table 17-4), and while the memory that they name takes no access (10 R263); in the safe state none is taken (15 R410). -/
def State.takeArrived (s : State) (quay : Nat) (kinds : List Nat) : Option (Packet × State) :=
  if s.safe || s.quayHeld quay then none
  else match s.arrived.find? fun e => e.1 == quay with
    | some e => if kinds.contains e.2.tkind && !s.packetWaits e.2 then some (e.2, { s with arrived := s.arrived.erase e }) else none
    | none => none

/-- A request has been performed: its stamp, and an ACK on a LAST packet. -/
def State.performed (s : State) (q : Nat) : State := s.setQuayQueue q { s.quayQueue q with stamp := s.now }

/-- PUT: the payload lands in the opening, and its window bytes are free (12 R323, R325). -/
def State.performPut (s : State) (q : Nat) (p : Packet) : State :=
  match s.openAt q p p.payload.length 16 with
  | .error e => s.sendError (quayOf q) p p.sq e
  | .ok a =>
    match s.nodeWrite s.quaySender a p.payload p.poison with
    | (s, false) => s.sendError (quayOf q) p p.sq 2
    | (s, true) =>
      let r := s.quayQueue q
      let r := { r.put 96 8 (r.rxFreed + p.payload.length) with freeFrom := some (r.freeFrom.getD s.clock) }
      (s.setQuayQueue q r).performed q

/-- GET_REQ: the data of the opening is sent in a GET_RESP (12 R321, R323). -/
def State.performGet (s : State) (q : Nat) (p : Packet) : State :=
  match s.openAt q p p.data 17 with
  | .error e => s.sendError (quayOf q) p p.sq e
  | .ok a =>
    match s.nodeRead s.quaySender a p.data with
    | (m, t) =>
      if !m.ok then s.sendError (quayOf q) p p.sq 2
      else
        (t.inject { vc := respVc p.guar, ovc := 0, rmode := t.answerMode p, dst := p.src, src := 0, tag := p.tag, tkind := 3, last := p.last, guar := p.guar
                    poison := m.poison, dq := p.sq, sq := q, psn := p.psn, addr := p.addr, data := p.data, payload := m.data }).performed q

/-- SEND: the packet lands in the next receive slot; with the last one a receive record is written (12 R319, R323). -/
def State.performSend (s : State) (q : Nat) (p : Packet) : State :=
  let r := s.quayQueue q
  let total := p.addr + p.payload.length
  if r.rqN = 0 ∨ r.slotSize < total then s.sendError (quayOf q) p p.sq 2
  else
    let slot := r.fld 40 8 + r.slotSize * (r.rqTail % r.rqN)
    let s := s.memWrite (slot + p.addr) p.payload p.poison
    if !p.last then s
    else
      let i := r.cqTail
      let poison := (s.memRead slot total).poison
      let flags := phaseOf i r.cqN + (if s.tideQ then 8 else 0) + (if poison then 16 else 0) + 32
      let rec_ := recordBytes (if poison then 3 else 0) 0 flags total s.now r.rqTail (p.sq % 2 ^ 18)
      let s := s.memWrite r.recordAt rec_
      (s.setQuayQueue q (((s.quayQueue q).put 56 4 (i + 1)).put 64 4 (r.rqTail + 1))).performed q

/-- The answer to a fetching ATOMIC. -/
def State.sendFetched (s : State) (q : Nat) (p : Packet) (old : Nat) (poison : Bool) : State :=
  s.inject { vc := respVc p.guar, ovc := 0, rmode := s.answerMode p, dst := p.src, src := 0, tag := p.tag, tkind := 6, last := true, guar := p.guar
             poison := poison, dq := p.sq, sq := q, psn := p.psn, data := old }

/-- ATOMIC: performed at the opening, and answered where it fetches (12 R321, R323). -/
def State.performAtomic (s : State) (q : Nat) (p : Packet) : State :=
  let n := if p.code.testBit 4 then 8 else 4
  match s.openAt q p n 18 with
  | .error e => s.sendError (quayOf q) p p.sq e
  | .ok a =>
    if !isMem a || a % n != 0 || !s.reachable a n then s.sendError (quayOf q) p p.sq 2
    else
      let m := s.memRead a n
      let old := leNat m.data
      let s := (s.amoAt a n (p.code % 16) p.data (leNat (p.payload.take 8)) p.poison).performed q
      if p.code.testBit 5 then
        let r := s.quayQueue q
        (s.setQuayQueue q { r with kept := r.kept ++ [(p.psn, if m.poison then 2 ^ 64 + old else old)] }).sendFetched q p old m.poison
      else s

/-- CTR_ADD: the add applies at a trigger counter whose block carries the packet's tag (13 R346). -/
def State.performCtrAdd (s : State) (q : Nat) (p : Packet) : State :=
  let n := p.addr % 2 ^ 17
  if s.trigTag n ≠ p.tag then s.sendError (quayOf q) p p.sq 6
  else (s.applyAdd { counter := n, inc := p.data % 2 ^ 32, source := 3, tag := p.tag }).performed q

/-- Perform the request that is next in a queue's order. -/
def State.performRequest (s : State) (q : Nat) (p : Packet) : State :=
  match p.tkind with
  | 1 => s.performPut q p
  | 2 => s.performGet q p
  | 4 => s.performSend q p
  | 5 => s.performAtomic q p
  | _ => s.performCtrAdd q p

/-- A SEND meets no free receive slot: it is not accepted and its sender sends it again. -/
def State.noSlot (s : State) (q : Nat) (p : Packet) : Bool :=
  let r := s.quayQueue q
  p.tkind == 4 && r.rqN != 0 && decide (r.rqN ≤ diff32 r.rqTail r.rqHead)

/-- Count an accepted packet for the ACK timer, and acknowledge a LAST packet or the 64th (12 R324). -/
def State.countAck (s : State) (q : Nat) (last : Bool) : State :=
  let r := s.quayQueue q
  let s := s.setQuayQueue q { r with unacked := r.unacked + 1, ackFrom := some (r.ackFrom.getD s.clock) }
  if last || decide (64 ≤ r.unacked + 1) then s.sendAck q else s

/-- Perform the held packets of a queue that follow in order. -/
def State.drainQueuePkts (s : State) (q : Nat) : Nat → State
  | 0 => s
  | fuel + 1 =>
    let r := s.quayQueue q
    match r.held.find? fun p => p.psn == r.rxPsn with
    | none => s
    | some p =>
      if s.noSlot q p then s
      else
        let held := r.held.erase p
        let r := { r.put 112 4 (r.rxPsn + 1) with held := held, gapFrom := if held.isEmpty then none else some s.clock }
        State.drainQueuePkts (((s.setQuayQueue q r).performRequest q p).countAck q p.last) q fuel

/-- A duplicate of a request performed already: an ATOMIC that fetched is answered from the kept results, a GET_REQ by reading
again, and a LAST packet is acknowledged again (12 R324). -/
def State.duplicate (s : State) (q : Nat) (p : Packet) : State :=
  let r := s.quayQueue q
  let s := if p.tkind = 2 then s.performGet q p
    else match r.kept.find? fun e => e.1 == p.psn && p.tkind == 5 with
      | some e => s.sendFetched q p (e.2 % 2 ^ 64) (decide (2 ^ 64 ≤ e.2))
      | none => s
  if p.last then s.sendAck q else s

/-- A request arrives at the quay that owns DQ (12 R323, R324). -/
def State.recvRequest (s : State) (quay : Nat) (p : Packet) : State :=
  let q := p.dq % 2 ^ 18
  let r := s.quayQueue q
  if r.state ≠ 1 then s.sendError quay p p.sq 8
  else if r.jobTag ≠ p.tag then s.sendError quay p p.sq 6
  else if diff32 p.psn r.rxPsn < 512 then
    (if r.held.any fun x => x.psn == p.psn then s
     else
      let held := r.held ++ [p]
      let r := { r with held := held, gapFrom := if p.psn = r.rxPsn then r.gapFrom else some (r.gapFrom.getD s.clock) }
      (s.setQuayQueue q r).drainQueuePkts q 513)
  else if 2 ^ 31 ≤ diff32 p.psn r.rxPsn then s.duplicate q p
  else s

/-- Take and perform one request of a kind. -/
def State.takeRequest (s : State) (quay kind : Nat) : State :=
  match s.takeArrived quay [kind] with
  | some (p, s) => s.recvRequest quay p
  | none => s

/-! ## The sending end of a queue (12 R320, R321, R324) -/

/-- Replace an operation of a queue. -/
def State.setOpAt (s : State) (q : Nat) (o : QuayOp) : State :=
  let r := s.quayQueue q
  s.setQuayQueue q { r with ops := r.ops.map fun x => if x.index = o.index then o else x }

/-- Progress of a queue: the retransmission timer starts again (12 R324). -/
def State.progressed (s : State) (q : Nat) : State := s.setQuayQueue q { s.quayQueue q with retries := 0, progress := s.clock }

/-- An operation ends with a status, stamped now by the local quay. -/
def State.endOpAt (s : State) (q : Nat) (o : QuayOp) (status : Nat) : State :=
  s.setOpAt q { o with status := some status, stamp := s.now, tideQ := s.tideQ }

/-- The status of an operation that completed (12 Table 12-5). -/
def QuayOp.okStatus (o : QuayOp) : Nat := if o.poison then 3 else 0

/-- A GET_RESP arrives: its data is written at LOCAL; with the last of them the GET completes (12 R321). -/
def State.recvGetResp (s : State) (p : Packet) : State :=
  let q := p.dq % 2 ^ 18
  match (s.quayQueue q).ops.find? fun o => o.owns p.psn && wrOpcode o.request == 2 with
  | none => s
  | some o =>
    if o.got.contains p.psn then s
    else
      let s := (s.memWrite (wrLocal o.request + 4096 * diff32 p.psn o.firstPsn) p.payload p.poison).progressed q
      let o := { o with got := o.got ++ [p.psn], poison := o.poison || p.poison }
      if o.got.length = wrPackets o.request then s.endOpAt q o o.okStatus else s.setOpAt q o

/-- An ATOMIC_RESP arrives: the fetched value goes to LOCAL and into the record (12 R321). -/
def State.recvAtomicResp (s : State) (p : Packet) : State :=
  let q := p.dq % 2 ^ 18
  match (s.quayQueue q).ops.find? fun o => o.owns p.psn && wrOpcode o.request == 4 && wrFetch o.request with
  | none => s
  | some o =>
    let n := wrAsize o.request
    let s := (s.memWrite (wrLocal o.request) (leBytes n p.data) p.poison).progressed q
    let o := { o with result := p.data % 2 ^ (8 * n), poison := o.poison || p.poison }
    s.endOpAt q o o.okStatus

/-- An operation that completes by its acknowledgement (12 R321). -/
def QuayOp.byAck (o : QuayOp) : Bool :=
  [1, 3, 5].contains (wrOpcode o.request) || (wrOpcode o.request == 4 && !wrFetch o.request)

/-- An ACK arrives: TX_ACKED advances, and the operations that it covers complete with the peer's stamp (12 R321, R324). -/
def State.recvAck (s : State) (p : Packet) : State :=
  let q := p.dq % 2 ^ 18
  let r := s.quayQueue q
  let ahead := diff32 p.psn r.txAcked
  if r.state = 0 ∨ ahead = 0 ∨ diff32 r.txPsn r.txAcked < ahead then s
  else
    let s := (s.setQuayQueue q (r.put 108 4 p.psn)).progressed q
    let r := s.quayQueue q
    s.setQuayQueue q { r with ops := r.ops.map fun o =>
      if o.status.isNone && o.byAck && decide (diff32 o.endPsn p.psn = 0 ∨ 2 ^ 31 ≤ diff32 o.endPsn p.psn) then
        { o with status := some o.okStatus, stamp := p.addr, tideQ := p.data % 2 == 1 }
      else o }

/-- A GRANT arrives: the highest is kept, the counts wrapping (12 R312, R325). -/
def State.recvGrant (s : State) (p : Packet) : State :=
  let q := p.dq % 2 ^ 18
  let r := s.quayQueue q
  if r.state = 0 ∨ 2 ^ 63 ≤ diff64 p.addr r.txGranted then s else s.setQuayQueue q (r.put 72 8 p.addr)

/-- An ERROR arrives: the operation ends with the status that it carries, its promise void with cause PEER (12 R320,
Table 12-8). -/
def State.recvError (s : State) (p : Packet) : State :=
  let q := p.dq % 2 ^ 18
  match (s.quayQueue q).ops.find? fun o => o.owns p.psn with
  | none => s
  | some o =>
    let s := (s.voidQueueOps q 8 fun x => x.index == o.index).progressed q
    match (s.quayQueue q).ops.find? fun x => x.index == o.index with
    | some o => s.endOpAt q o p.code
    | none => s

/-- The packets of an operation that are sent again: those not acknowledged, or for a GET those not answered. -/
def QuayOp.missing (o : QuayOp) (acked : Nat) : List Nat :=
  if o.status.isSome then []
  else (List.range (wrPackets o.request)).filter fun i =>
    let psn := (o.firstPsn + i) % 2 ^ 32
    if wrOpcode o.request = 2 then !o.got.contains psn
    else if o.byAck then decide (diff32 psn acked < 2 ^ 31)
    else true

/-- Send an operation's missing packets again: a promise is void with cause LOSS, and Q_LOSS is raised (12 R324, Table 12-8). -/
def State.resendOp (s : State) (q : Nat) (o : QuayOp) : State :=
  let is := o.missing (s.quayQueue q).txAcked
  if is.isEmpty then s
  else
    let s := (s.voidQueueOps q 3 fun x => x.index == o.index).report 0x18 none q
    let s := s.quayCount (quayOf q) 7 is.length
    match s.peerOf q with
    | (some dst, s) => s.sendOp q dst o is true
    | (none, s) => s

/-- Retransmit a queue's operations from TX_ACKED; after seven times without progress the oldest ends with PEER_LOST and
Q_PEER is raised (12 R324). -/
def State.retransmit (s : State) (q : Nat) : State :=
  let r := s.quayQueue q
  match r.ops.find? fun o => o.status.isNone && wrPackets o.request != 0 with
  | none => s
  | some o =>
    if 7 ≤ r.retries then (s.progressed q).endOpAt q o 7 |>.report 0x19 none q
    else
      let s := s.setQuayQueue q { r with retries := r.retries + 1, progress := s.clock }
      r.ops.foldl (fun (s : State) x => s.resendOp q x) s

/-! ## Tray requests at their target (12 R336–R338) -/

/-- The requester that a tray request names (14 Table 14-1). -/
def traySender (p : Packet) : Sender :=
  { endpoint := Fin.ofNat 512 (p.sq % 512), node := Fin.ofNat 8 (p.sq / 2 ^ 9), host := p.sq.testBit 12, vc0 := p.vc == 0 }

/-- The target performs a tray request with its own TRAY_TAG, or with tag 0 on VC0 from a harbourmaster (12 R336). -/
def State.trayTagOk (s : State) (quay : Nat) (p : Packet) : Bool :=
  p.tag == s.fldAt (.quay quay) 0x000 32 16 || (p.tag == 0 && p.vc == 0 && p.sq % 512 == 320)

/-- Answer a tray request with TRAY_RESP. -/
def State.trayAnswer (s : State) (p : Packet) (data : List Byte) (poison : Bool) : State :=
  s.inject { vc := if p.vc = 0 then 0 else 6, ovc := 0, rmode := 1, dst := p.src, src := 0, tag := p.tag, tkind := 14, last := true
             poison := poison, dq := p.dq % 2 + 2 * data.length, sq := p.sq, psn := p.psn, addr := p.addr, payload := data }

/-- TRAY_LD (12 R336). -/
def State.recvTrayLd (s : State) (quay : Nat) (p : Packet) : State :=
  let a := trayLocal p.addr
  if !s.trayTagOk quay p then s.sendError quay p p.dq 6
  else if !trayReach a then s.sendError quay p p.dq 2
  else match s.nodeRead (traySender p) a p.data with
    | (m, t) => if m.ok then t.trayAnswer p m.data m.poison else s.sendError quay p p.dq 2

/-- TRAY_ST (12 R336, R337). -/
def State.recvTraySt (s : State) (quay : Nat) (p : Packet) : State :=
  let a := trayLocal p.addr
  if !s.trayTagOk quay p then s.sendError quay p p.dq 6
  else if !trayReach a then s.sendError quay p p.dq 2
  else match s.nodeWrite (traySender p) a (storeData p) p.poison with
    | (s, true) => s.trayAnswer p [] false
    | (s, false) => s.sendError quay p p.dq 2

/-- TRAY_AMO (12 R338): at HBM, wells and cisterns only (07 Table 7-3). -/
def State.recvTrayAmo (s : State) (quay : Nat) (p : Packet) : State :=
  let a := trayLocal p.addr
  let n := if p.code.testBit 4 then 8 else 4
  if !s.trayTagOk quay p then s.sendError quay p p.dq 6
  else if !isMem a || a % n != 0 || !s.reachable a n then s.sendError quay p p.dq 2
  else
    let m := s.memRead a n
    ((s.afterRead a n).amoAt a n (p.code % 16) p.data (leNat (p.payload.take 8)) p.poison).trayAnswer p m.data m.poison

/-! ## Answers to tray requests (12 R336–R340, 14 R387) -/

/-- TRAY_RESP (12 R337): the request is complete; one that has ended already is discarded (R340). -/
def State.recvTrayResp (s : State) (p : Packet) : State :=
  match s.takeTray p.psn with
  | none => s
  | some r =>
    let s := s.dropTray r.id
    match r.owner with
    | .requester _ => s.answers 0 p.payload p.poison
    | .pump c q e => s.pumpAnswer c q { key := e, write := r.kind != 0, data := p.payload, poison := p.poison }
    | .hostBridge req => s.answerHost req p
    | .reply _ _ _ _ | .node => s

/-- What an ERROR does to the requester (12 R339); a reply that was rejected is posted again (14 R390). -/
def State.trayErrOwner (s : State) (quay : Nat) (r : TrayReq) (p : Packet) : State :=
  match r.owner with
  | .requester w =>
    let s := s.answers 2
    if r.kind = 0 then s.trapSender w 5 r.addr
    else
      let s := s.report 0x1B none (trayDetail r.target quay 3)
      if w.endpoint.val < 256 then s.trapSender w 7 r.addr else s
  | .pump c q e => s.pumpAnswer c q { key := e, write := r.kind != 0, error := true }
  | .hostBridge req => s.answerHost req p
  | .reply node berth msg since =>
    { s with harbour := { s.harbour with replies := s.harbour.replies ++
        [{ node := node, berth := berth, msg := msg, since := since, last := s.clock }] } }
  | .node => s

/-- TRAY_ERR (12 R339). -/
def State.recvTrayErr (s : State) (quay : Nat) (p : Packet) : State :=
  match s.takeTray p.psn with
  | none => s
  | some r => ((s.dropTray r.id).captureTray quay r.addr 3).trayErrOwner quay r p

/-- A request with no answer after DEAD_NS ends as dead (12 R340). -/
def State.trayTimeout (s : State) (quay id : Nat) : State :=
  match s.takeTray id with
  | none => s
  | some r =>
    if r.quay = quay ∧ r.since + r.deadNs ≤ s.clock then (s.dropTray id).dieTray quay r else s

/-! ## Requests of this node's harts and of the harbourmaster (12 R336) -/

/-- The fields of a load, store or AMO. For CSWAP, OPERAND holds the compare value and OPERAND2 the new one. -/
def trayCall (addr : Nat) : TrayOp → TrayCall
  | .load n => { kind := 0, addr := addr, size := n }
  | .store d poison => { kind := 1, addr := addr, size := d.length, data := d, poison := poison }
  | .amo aop wide x c =>
    { kind := 2, addr := addr, size := if wide then 8 else 4, code := aop.val + (if wide then 2 ^ 4 else 0) + 2 ^ 5
      operand := if aop.val = 9 then c.toNat else x.toNat, compare := if aop.val = 9 then x.toNat else 0 }

/-- An access whose tray address names this node itself reaches what a tray access reaches. -/
def State.trayHere (s : State) (w : Sender) (c : TrayCall) : State :=
  let a := trayLocal c.addr
  let err := fun (s : State) => (s.answers 1).trapSender w (if c.kind = 0 then 5 else 7) c.addr
  if !trayReach a then err s
  else if c.kind = 0 then
    (match s.nodeRead w a c.size with
     | (m, t) => if m.ok then t.answers 0 m.data m.poison else err s)
  else if c.kind = 1 then
    (match s.nodeWrite w a c.data c.poison with
     | (t, true) => t.answers 0
     | (t, false) => err t)
  else if !isMem a || a % c.size != 0 || !s.reachable a c.size then err s
  else
    let m := s.memRead a c.size
    (s.amoAt a c.size (c.code % 16) c.operand c.compare c.poison).answers 0 m.data m.poison

/-- A requester's access to a tray address: sent, ended as dead at once, or not taken while the quay has no room, its memory takes no access
(10 R263) or an earlier access of the same pilot core waits for its answer (04 R95). A PD hart's store is posted; any other access waits for its answer (12 R336, R337, R340). -/
def State.trayAccess (s : State) (w : Sender) (addr : Nat) (op : TrayOp) : State :=
  let c := trayCall addr op
  if 321 ≤ w.endpoint.val ∨ !addr.testBit 47 then (s.answers 1).trapSender w (if c.kind = 0 then 5 else 7) addr
  else if s.pilotWaits w.endpoint.val && !w.host then s.answers 5
  else if s.ownTray addr then (if s.hbmWaits (trayLocal addr) c.size then s.answers 5 else s.trayHere w c)
  else if !s.trayFree addr then s.answers 5
  else
    let posted := decide (256 ≤ w.endpoint.val) && decide (w.endpoint.val < 320) && c.kind == 1
    (s.answers (if posted then 0 else 4)).issueTray (.requester w) w c

/-! ## Requests of the host (14 R387) -/

/-- The bridge performs the first request that arrived from the host, as a tray request of its quay 1. -/
def State.hostRequest (s : State) : State :=
  match s.hostIn with
  | [] => s
  | p :: rest =>
    let t := { s with hostIn := rest }
    let w : Sender := { endpoint := 321, node := Fin.ofNat 8 s.trayPos, host := true, vc0 := p.vc == 0 }
    let error := fun (s : State) => s.answerHost p { vc := 6, ovc := 6, dst := 0, src := 0, tag := 0, tkind := 15, last := true, code := 2, data := p.tkind }
    if s.safe || s.quayHeld 1 then s
    else if p.tkind < 11 ∨ 13 < p.tkind ∨ !p.addr.testBit 47 then error t
    else
      let c : TrayCall :=
        { kind := p.tkind - 11, addr := p.addr % 2 ^ 48, size := if p.tkind = 11 then p.data else if p.tkind = 12 then (storeData p).length
            else if p.code.testBit 4 then 8 else 4
          data := if p.tkind = 12 then storeData p else [], poison := p.poison, code := p.code, operand := p.data
          compare := leNat (p.payload.take 8) }
      if s.ownTray p.addr && s.hbmWaits (trayLocal p.addr) c.size then s
      else if s.ownTray p.addr then
        let a := trayLocal p.addr
        let ok := fun (s : State) (d : List Byte) (poison : Bool) =>
          s.answerHost p { vc := 6, ovc := 6, dst := 0, src := 0, tag := 0, tkind := 14, last := true, poison := poison
                           dq := 2 * d.length, payload := d }
        if !trayReach a then error t
        else if c.kind = 0 then
          (match t.nodeRead w a c.size with
           | (m, u) => if m.ok then ok u m.data m.poison else error t)
        else if c.kind = 1 then
          (match t.nodeWrite w a c.data c.poison with
           | (u, true) => ok u [] false
           | (u, false) => error u)
        else if !isMem a || a % c.size != 0 || !s.reachable a c.size then error t
        else
          let m := t.memRead a c.size
          ok (t.amoAt a c.size (c.code % 16) c.operand c.compare c.poison) m.data m.poison
      else if !s.trayRoom 1 then s
      else t.issueTray (.hostBridge p) w c (p.vc == 0)

end Sys2Proof.Machine
end

