-- ==== Sys2Proof/Machine/Collectives.lean ====
section
/-! DEFINITION. The commands of trigger counters and collective groups (13). -/

namespace Sys2Proof.Machine

/-! ## Trigger counters (13 R344–R347) -/

/-- The first add on its way reaches its counter. -/
def reachCounter (s : State) : State :=
  match takeAdd s s.adds with
  | some (a, rest) => ({ s with adds := rest }).applyAdd a
  | none => s

/-- TRIGGER_ADD. -/
def execTriggerAdd (s : State) : Host.Outcome State Fault Refusal := .next (reachCounter s)

/-- TRIG_DROPS_READ. -/
def execTrigDropsRead (quay : Fin 2) (s : State) : Host.Outcome State Fault Refusal :=
  .next (s.readClear (.collective quay.val) 0x050 0 32)

/-- CL_STRAY_READ (13 R350). -/
def execClStrayRead (quay : Fin 2) (s : State) : Host.Outcome State Fault Refusal :=
  .next (s.readClear (.collective quay.val) 0x060 0 32)

/-! ## GCTL and group bells (13 R351, R352) -/

/-- A write of GCTL that names a group, at the group's own quay. -/
def gctl (g cmd : Nat) (s : State) : State := (s.writeGctl (groupQuay g) (g + cmd * 2 ^ 12)).answers 0

/-- ARM. -/
def execArm (group : Fin 4096) (s : State) : Host.Outcome State Fault Refusal := .next (gctl group.val 1 s)

/-- GROUP_ACTIVATE. -/
def execGroupActivate (group : Fin 4096) (s : State) : Host.Outcome State Fault Refusal := .next (s.activateGroup group.val)

/-- QUIESCE. -/
def execQuiesce (group : Fin 4096) (s : State) : Host.Outcome State Fault Refusal := .next (gctl group.val 2 s)

/-- DISABLE. -/
def execDisable (group : Fin 4096) (s : State) : Host.Outcome State Fault Refusal := .next (gctl group.val 3 s)

/-- GROUP_BELL_SQ_TAIL. -/
def execGroupBellSqTail (group : Fin 4096) (index : BitVec 32) (s : State) : Host.Outcome State Fault Refusal :=
  .next ((s.groupBell group.val 0 index.toNat).answers 0)

/-- GROUP_BELL_CQ_HEAD. -/
def execGroupBellCqHead (group : Fin 4096) (index : BitVec 32) (s : State) : Host.Outcome State Fault Refusal :=
  .next ((s.groupBell group.val 1 index.toNat).answers 0)

/-! ## Operations (13 R352–R356) -/

/-- ALLREDUCE. -/
def execAllreduce (group : Fin 4096) (s : State) : Host.Outcome State Fault Refusal := .next (s.beginColl group.val 1)

/-- REDUCE_SCATTER. -/
def execReduceScatter (group : Fin 4096) (s : State) : Host.Outcome State Fault Refusal := .next (s.beginColl group.val 2)

/-- ALLGATHER. -/
def execAllgather (group : Fin 4096) (s : State) : Host.Outcome State Fault Refusal := .next (s.beginColl group.val 3)

/-- BROADCAST. -/
def execBroadcast (group : Fin 4096) (s : State) : Host.Outcome State Fault Refusal := .next (s.beginColl group.val 4)

/-- ALLTOALL. -/
def execAlltoall (group : Fin 4096) (s : State) : Host.Outcome State Fault Refusal := .next (s.beginColl group.val 5)

/-- ALLTOALLV. -/
def execAlltoallv (group : Fin 4096) (s : State) : Host.Outcome State Fault Refusal := .next (s.beginColl group.val 6)

/-- GATHER. -/
def execGather (group : Fin 4096) (s : State) : Host.Outcome State Fault Refusal := .next (s.beginColl group.val 7)

/-- GATHERV. -/
def execGatherv (group : Fin 4096) (s : State) : Host.Outcome State Fault Refusal := .next (s.beginColl group.val 8)

/-- SCATTER. -/
def execScatter (group : Fin 4096) (s : State) : Host.Outcome State Fault Refusal := .next (s.beginColl group.val 9)

/-- SCATTERV. -/
def execScatterv (group : Fin 4096) (s : State) : Host.Outcome State Fault Refusal := .next (s.beginColl group.val 10)

/-! ## Arriving packets (13 R355–R362) -/

/-- Take a packet of a group of a kind and handle it. -/
def takeCollPkt (quay kind : Nat) (f : State → Packet → State) (s : State) : State :=
  match s.takeArrived quay [kind] with
  | some (p, s) => f s p
  | none => s

/-- CHUNK. -/
def execChunk (quay : Fin 2) (s : State) : Host.Outcome State Fault Refusal :=
  .next (if s.chunkWaits quay.val then s else takeCollPkt quay.val 16 (fun s p => s.recvColl quay.val p) s)

/-- C_ACK. -/
def execCAck (quay : Fin 2) (s : State) : Host.Outcome State Fault Refusal := .next (takeCollPkt quay.val 17 State.recvCAck s)

/-- C_GRANT. -/
def execCGrant (quay : Fin 2) (s : State) : Host.Outcome State Fault Refusal := .next (takeCollPkt quay.val 18 State.recvCGrant s)

/-- C_COUNT. -/
def execCCount (quay : Fin 2) (s : State) : Host.Outcome State Fault Refusal :=
  .next (if s.chunkWaits quay.val then s else takeCollPkt quay.val 19 (fun s p => s.recvColl quay.val p) s)

/-! ## Windows, completion and statistics (13 R348, R367, R368) -/

/-- STEP_WINDOW_END. -/
def execStepWindowEnd (group : Fin 4096) (s : State) : Host.Outcome State Fault Refusal := .next (s.windowEnd group.val)

/-- The channel of the place of a group's next record takes no access now (10 R263). -/
def State.recordWaits (s : State) (g : Nat) : Bool :=
  let r := s.group g
  s.hbmWaits (r.fld 48 8 + 32 * (r.cqTail % r.cqN)) 32

/-- COLLECTIVE_COMPLETE. -/
def execCollectiveComplete (group : Fin 4096) (s : State) : Host.Outcome State Fault Refusal := .next (if s.recordWaits group.val then s else s.completeColl group.val)

/-- Every 10 µs the statistics of an ACTIVE group are written back. -/
def writebackStats (g : Nat) (s : State) : State :=
  if (s.group g).state = 2 ∧ (s.group g).written + 10_000 ≤ s.clock ∧ !s.safe then s.writeGroupStats g else s

/-- GROUP_STAT_WRITEBACK. -/
def execGroupStatWriteback (group : Fin 4096) (s : State) : Host.Outcome State Fault Refusal := .next (writebackStats group.val s)

end Sys2Proof.Machine
end

