-- ==== Sys2Proof/Machine/Commands.lean ====
section
/-! DEFINITION. The commands of the harbourmaster (14 R389–R395). -/

namespace Sys2Proof.Machine

/-- QUERY_VERSION. -/
def execQueryVersion (berth : Fin 2) (s : State) : Host.Outcome State Fault Refusal :=
  .next (s.takeCommand berth.val 0x0001 queryVersion)

/-- NOP. -/
def execNop (berth : Fin 2) (s : State) : Host.Outcome State Fault Refusal := .next (s.takeCommand berth.val 0x0002 nopCommand)

/-- SET_POWER_MODE (01 R35, 18 R476, R481). -/
def execSetPowerMode (berth : Fin 2) (s : State) : Host.Outcome State Fault Refusal :=
  .next (s.takeCommand berth.val 0x0010 setPowerMode)

/-- SET_SLEEP (01 R37, 16 R426, 18 R485). -/
def execSetSleep (berth : Fin 2) (s : State) : Host.Outcome State Fault Refusal := .next (s.takeCommand berth.val 0x0011 setSleep)

/-- SET_FEC (11 R275). -/
def execSetFec (berth : Fin 2) (s : State) : Host.Outcome State Fault Refusal := .next (s.takeCommand berth.val 0x0012 setFec)

/-- CORE_STATE (04 R116, R117). -/
def execCoreState (berth : Fin 2) (s : State) : Host.Outcome State Fault Refusal :=
  .next (s.takeCommand berth.val 0x0020 coreStateCmd)

/-- CORE_LOAD (04 R94, R117). -/
def execCoreLoad (berth : Fin 2) (s : State) : Host.Outcome State Fault Refusal := .next (s.takeCommand berth.val 0x0021 coreLoad)

/-- CH_RETRAIN (10 R265, 19 R506). -/
def execChRetrain (berth : Fin 2) (s : State) : Host.Outcome State Fault Refusal := .next (s.takeCommand berth.val 0x0030 chRetrain)

/-- CH_ISOLATE (10 Table 10-6). -/
def execChIsolate (berth : Fin 2) (s : State) : Host.Outcome State Fault Refusal := .next (s.takeCommand berth.val 0x0031 chIsolate)

/-- CH_RECOVER (10 R267, 15 R416). -/
def execChRecover (berth : Fin 2) (s : State) : Host.Outcome State Fault Refusal := .next (s.takeCommand berth.val 0x0032 chRecover)

/-- REG_READ. -/
def execRegRead (berth : Fin 2) (s : State) : Host.Outcome State Fault Refusal := .next (s.takeCommand berth.val 0x0040 regRead)

/-- REG_WRITE. -/
def execRegWrite (berth : Fin 2) (s : State) : Host.Outcome State Fault Refusal := .next (s.takeCommand berth.val 0x0041 regWrite)

/-- REG_COPY. -/
def execRegCopy (berth : Fin 2) (s : State) : Host.Outcome State Fault Refusal := .next (s.takeCommand berth.val 0x0042 regCopy)

/-- BERTH_ASSIGN (14 R400). -/
def execBerthAssign (berth : Fin 2) (s : State) : Host.Outcome State Fault Refusal :=
  .next (s.takeCommand berth.val 0x0050 berthAssign)

/-- HOST_NOTIFY (14 R388). -/
def execHostNotify (berth : Fin 2) (s : State) : Host.Outcome State Fault Refusal := .next (s.takeCommand berth.val 0x0051 hostNotify)

/-- CHECKPOINT (16 R425–R428). -/
def execCheckpoint (berth : Fin 2) (s : State) : Host.Outcome State Fault Refusal :=
  .next (s.takeCommand berth.val 0x0060 checkpointCmd)

/-- RESTORE (16 R426, R438). -/
def execRestore (berth : Fin 2) (s : State) : Host.Outcome State Fault Refusal := .next (s.takeCommand berth.val 0x0061 restoreCmd)

/-- FW_STAGE (17 R452, R456). -/
def execFwStage (berth : Fin 2) (s : State) : Host.Outcome State Fault Refusal := .next (s.takeCommand berth.val 0x0070 fwStage)

/-- FW_ACTIVATE (17 R457, Table 17-4, 19 R506). -/
def execFwActivate (berth : Fin 2) (s : State) : Host.Outcome State Fault Refusal := .next (s.takeCommand berth.val 0x0071 fwActivate)

/-- ATTEST (17 R461–R463). -/
def execAttest (berth : Fin 2) (s : State) : Host.Outcome State Fault Refusal := .next (s.takeCommand berth.val 0x0072 attest)

/-- LIFETIME_READ (15 R420). -/
def execLifetimeRead (berth : Fin 2) (s : State) : Host.Outcome State Fault Refusal :=
  .next (s.takeCommand berth.val 0x0080 lifetimeRead)

/-- FAULT_STATUS (15 R417). -/
def execFaultStatus (berth : Fin 2) (s : State) : Host.Outcome State Fault Refusal := .next (s.takeCommand berth.val 0x0090 faultStatus)

/-- FAULT_RELEASE (15 R416, R418). -/
def execFaultRelease (berth : Fin 2) (s : State) : Host.Outcome State Fault Refusal :=
  .next (s.takeCommand berth.val 0x0091 faultRelease)

/-- SET_NGI (17 R464, R467). -/
def execSetNgi (berth : Fin 2) (s : State) : Host.Outcome State Fault Refusal := .next (s.takeCommand berth.val 0x00A0 setNgi)

/-- ABORT_OP (14 R394). -/
def execAbortOp (berth : Fin 2) (s : State) : Host.Outcome State Fault Refusal := .next (s.takeCommand berth.val 0x00F0 abortOpCmd)

/-- REPLY_RETRY (14 R390). -/
def execReplyRetry (slot : Nat) (s : State) : Host.Outcome State Fault Refusal :=
  .next (if s.harbour.inReset then s else s.retryReply slot)

/-- A long operation's status word is updated. -/
def updateStatusWord (slot : Nat) (s : State) : State :=
  match s.harbour.longOps[slot]? with
  | some o => if s.harbour.inReset then s else (s.stepLong o).ckptAborts
  | none => s

/-- STATUS_WORD_UPDATE (14 R394). -/
def execStatusWordUpdate (slot : Nat) (s : State) : Host.Outcome State Fault Refusal := .next (updateStatusWord slot s)

end Sys2Proof.Machine
end

