-- ==== Sys2Proof/Machine/HartMem.lean ====
section
/-! DEFINITION. Loads and stores of the harts: translation and protection, PD caches, and the node's address space
(07 R175–R183). The page-table walk, PMP and the permissions of the cache operations are those of the RISC-V
specifications that 07 Table 7-2 names (PRESUMED, log entry 10). -/

namespace Sys2Proof.Machine

/-! ## PD caches (01 R24, 07 R183) -/

/-- The block of the PD caches at an index, block address ÷ 64. -/
def State.block (s : State) (k : Nat) : CacheBlock := Tab.get {} s.caches k
def State.setBlock (s : State) (k : Nat) (b : CacheBlock) : State := { s with caches := Tab.set {} s.caches k b }

/-- Drop a block from every PD cache. -/
def State.dropBlock (s : State) (k : Nat) : State := s.setBlock k {}

/-- The block is brought into the caches where it is not held. DESIGN CHOICE (log 60): a cache holds what it has until a cache-block instruction
takes it out; the spec is silent on replacement. -/
def State.fillBlock (s : State) (k : Nat) : State :=
  if (s.block k).valid then s
  else
    let m := s.memRead (64 * k) 64
    (s.afterRead (64 * k) 64).setBlock k { data := m.data, dirty := false, poison := m.poison, valid := true }

/-- A dirty block is written to HBM and stays valid. -/
def State.cleanBlock (s : State) (k : Nat) : State :=
  let b := s.block k
  if b.valid && b.dirty then (s.setBlock k { b with dirty := false }).memWrite (64 * k) b.data b.poison else s

/-- A dirty block is written to HBM; the block leaves every cache. -/
def State.flushBlock (s : State) (k : Nat) : State := (s.cleanBlock k).dropBlock k

/-- Bytes of HBM as a PD hart sees them, for one access within a block. -/
def State.pdPeek (s : State) (a n : Nat) : List Byte :=
  let b := s.block (a / 64)
  if b.valid then (b.data.drop (a % 64)).take n else (s.memRead a n).data

/-- A PD hart writes bytes of one block. A whole block of unpoisoned data clears its poison. -/
def State.pdWrite (s : State) (a : Nat) (data : List Byte) (poison : Bool) : State :=
  let s := s.fillBlock (a / 64)
  let b := s.block (a / 64)
  let bytes := b.data.take (a % 64) ++ data ++ b.data.drop (a % 64 + data.length)
  s.setBlock (a / 64) { b with data := bytes, dirty := true, poison := poison || (b.poison && data.length != 64) }

/-! ## Privilege and protection (07 R175) -/

/-- The privilege of a hart's data accesses: MPP where mstatus.MPRV is set in M mode. -/
def Hart.dataPriv (h : Hart) : Nat := if h.priv = 3 && bit h.mstatus 17 then fld h.mstatus 11 2 else h.priv

/-- The configuration byte and address of a PMP entry. -/
def Hart.pmpCfg (h : Hart) (i : Nat) : Nat := fld (Tab.get 0 h.pmp (16 + i / 8)) (8 * (i % 8)) 8
def Hart.pmpAddr (h : Hart) (i : Nat) : Nat := fld (Tab.get 0 h.pmp i) 0 54

/-- Trailing ones of a number. -/
def trailingOnes : Nat → Nat → Nat
  | 0, _ => 0
  | fuel + 1, n => if n % 2 = 1 then 1 + trailingOnes fuel (n / 2) else 0

/-- The range of addresses that a PMP entry covers. -/
def Hart.pmpRange (h : Hart) (i : Nat) : Nat × Nat :=
  let a := h.pmpAddr i
  match bits (h.pmpCfg i) 3 2 with
  | 0 => (0, 0)
  | 1 => ((if i = 0 then 0 else 4 * h.pmpAddr (i - 1)), 4 * a)
  | 2 => (4 * a, 4 * a + 4)
  | _ => let k := trailingOnes 54 a; (a / 2 ^ (k + 1) * 2 ^ (k + 1) * 4, a / 2 ^ (k + 1) * 2 ^ (k + 1) * 4 + 2 ^ (k + 3))

/-- PMP allows an access with a privilege. -/
def Hart.pmpOk (h : Hart) (priv a n : Nat) (write : Bool) : Bool :=
  match (List.range 16).find? fun i => decide (a < (h.pmpRange i).2) && decide ((h.pmpRange i).1 < a + n) with
  | none => priv == 3
  | some i =>
    let c := h.pmpCfg i
    decide ((h.pmpRange i).1 ≤ a) && decide (a + n ≤ (h.pmpRange i).2)
      && (if priv == 3 && !c.testBit 7 then true else c.testBit (if write then 1 else 0))

/-! ## Translation (07 R175) -/

/-- Cause of a page fault and of an access fault. -/
def pageFault (write : Bool) : Nat := if write then 15 else 13
def accessFault (write : Bool) : Nat := if write then 7 else 5

/-- A leaf entry allows the access. -/
def Hart.leafOk (h : Hart) (priv pte level : Nat) (write : Bool) : Bool :=
  (if priv = 0 then pte.testBit 4 else !pte.testBit 4 || bit h.mstatus 18)
    && (if write then pte.testBit 2 else pte.testBit 1 || (bit h.mstatus 19 && pte.testBit 3))
    && bits pte 10 (9 * level) == 0 && pte.testBit 6 && (!write || pte.testBit 7)

/-- One level of a page-table walk: the physical address, or the next table, or the cause of the exception. -/
def State.walkStep (s : State) (h : Hart) (priv va : Nat) (write : Bool) (level table : Nat) : Except Nat (Nat × Bool) :=
  let a := table + 8 * bits va (12 + 9 * level) 9
  if !h.pmpOk 1 a 8 false || decide (hbmEnd ≤ a) then .error (accessFault write)
  else
    let pte := leNat (s.pdPeek a 8)
    if !pte.testBit 0 || (!pte.testBit 1 && pte.testBit 2) || bits pte 54 10 != 0 then .error (pageFault write)
    else if pte.testBit 1 || pte.testBit 3 then
      (if h.leafOk priv pte level write then
        .ok (bits pte 10 44 / 2 ^ (9 * level) * 2 ^ (12 + 9 * level) + bits va 0 (12 + 9 * level), true)
       else .error (pageFault write))
    else .ok (bits pte 10 44 * 4096, false)

/-- Walk the page table from a level down: the physical address, or the cause of the exception. -/
def State.walk (s : State) (h : Hart) (priv va : Nat) (write : Bool) : Nat → Nat → Except Nat Nat
  | 0, table => match s.walkStep h priv va write 0 table with
    | .ok (a, true) => .ok a
    | .ok (_, false) => .error (pageFault write)
    | .error c => .error c
  | l + 1, table => match s.walkStep h priv va write (l + 1) table with
    | .ok (a, true) => .ok a
    | .ok (t, false) => State.walk s h priv va write l t
    | .error c => .error c

/-- Translate a hart's address: Sv39 and Sv48 on PD harts, none on pilot cores (07 R175). -/
def State.translate (s : State) (h va n : Nat) (write : Bool) : Except Nat Nat :=
  let r := s.hart h
  let priv := r.dataPriv
  let mode := fld r.satp 60 4
  let pa := if isPd h && decide (priv ≤ 1) && (mode == 8 || mode == 9) then
      let width := if mode = 8 then 39 else 48
      if ofSigned 64 (toSigned width va) ≠ va then .error (pageFault write)
      else s.walk r priv va write (if mode = 8 then 2 else 3) (fld r.satp 0 44 * 4096)
    else .ok va
  match pa with
  | .error c => .error c
  | .ok a => if r.pmpOk priv a n write then .ok a else .error (accessFault write)

/-! ## One access of at most eight aligned bytes, or a whole block -/

/-- A hart's access must wait at its channel: a PD hart fetches the whole block where the caches do not hold it. -/
def State.hartWaits (s : State) (h a n : Nat) : Bool :=
  if isPd h && decide (a < hbmEnd) then !(s.block (a / 64)).valid && s.hbmWaits (a / 64 * 64) 64 else s.hbmWaits a n

/-- What hartLoad and hartStore answer for an access that must wait: no cause of an exception. -/
def mustWait : Nat := 64

/-- A hart loads: the data and the state after, or the cause. -/
def State.hartLoad (s : State) (h va n : Nat) : Except Nat (ReadResult × State) :=
  match s.translate h va n false with
  | .error c => .error c
  | .ok a =>
    if s.hartWaits h a n then .error mustWait
    else if isPd h && decide (a < hbmEnd) then
      let s := s.fillBlock (a / 64)
      let b := s.block (a / 64)
      .ok ({ ok := true, data := (b.data.drop (a % 64)).take n, poison := b.poison }, s)
    else
      let (m, s) := s.nodeRead { endpoint := Fin.ofNat 512 h } a n
      if m.ok then .ok (m, s) else .error 5

/-- A hart stores: the state after, or the cause. -/
def State.hartStore (s : State) (h va : Nat) (data : List Byte) (poison : Bool) : Except Nat State :=
  match s.translate h va data.length true with
  | .error c => .error c
  | .ok a =>
    if s.hartWaits h a data.length then .error mustWait
    else if isPd h && decide (a < hbmEnd) then .ok (s.pdWrite a data poison)
    else
      let (s, ok) := s.nodeWrite { endpoint := Fin.ofNat 512 h } a data poison
      if ok then .ok s else .error 7

/-- The hart executes instructions: a pilot core neither in WFI nor while an access of its own waits for an answer (04 R95, R105). -/
def State.hartRuns (s : State) (h : Nat) : Bool :=
  if h < 256 then s.coreRuns h && !s.bitAt (.core h) 0x008 3 && !s.pilotWaits h else decide (s.power.depth < 2)

/-! ## Cache-block operations (07 R183) -/

/-- A cache-block operation is allowed in the hart's mode: the bit of menvcfg and senvcfg that enables it. -/
def Hart.cboEnabled (h : Hart) (test : Word → Bool) : Bool :=
  h.priv == 3 || (test h.menvcfg && (h.priv == 1 || test h.senvcfg))

/-- cbo.inval acts as cbo.flush: CBIE = 01 in the register that governs the mode. -/
def Hart.cboFlushes (h : Hart) : Bool :=
  h.priv != 3 && (fld h.menvcfg 4 2 == 1 || (h.priv == 0 && fld h.senvcfg 4 2 == 1))

/-- Translate the block that a cache operation names: allowed where a load or a store would be. -/
def State.cboTarget (s : State) (h va : Nat) (store : Bool) : Except Nat Nat :=
  match s.translate h (va / 64 * 64) 64 true with
  | .ok a => .ok a
  | .error c => if store then .error c else match s.translate h (va / 64 * 64) 64 false with
    | .ok a => .ok a
    | .error _ => .error c

/-- An illegal-instruction exception: what mtval or stval then holds is a free value. -/
def State.illegal (s : State) (h : Nat) : State := (s.trapHart h 2 (Config.freeWord s.draws).toNat).drawn

/-- Perform a cache-block operation on a PD hart. -/
def State.cbo (s : State) (h va : Nat) (test : Word → Bool) (store : Bool) (f : State → Nat → Except Nat State) : State :=
  if !s.hartRuns h then s
  else if !(s.hart h).cboEnabled test then s.illegal h
  else match s.cboTarget h va store with
    | .error c => s.trapHart h c va
    | .ok a => if s.hbmWaits a 64 then s else match f s a with
      | .error c => s.trapHart h c va
      | .ok t => t.nextPc h

/-- Apply an operation on a block of HBM; other addresses are never cached. -/
def onBlock (f : State → Nat → State) (s : State) (a : Nat) : Except Nat State :=
  if a < hbmEnd then .ok (f s (a / 64)) else if placeOf a = .none then .error 7 else .ok s

/-- cbo.zero: zeros to a whole block. -/
def State.zeroBlock (s : State) (h a : Nat) : Except Nat State :=
  if a < hbmEnd then .ok (s.setBlock (a / 64) { dirty := true, valid := true })
  else
    let (t, ok) := s.nodeWrite { endpoint := Fin.ofNat 512 h } a (List.replicate 64 0) false
    if ok then .ok t else .error 7

end Sys2Proof.Machine
end

