-- ==== Sys2Proof/Machine/PumpOps.lean ====
section
/-! DEFINITION. The pumps: descriptor checks, reads, conversion and writes (04 R111–R115). -/

namespace Sys2Proof.Machine

/-! ## The descriptor (04 Table 4-7, R112) -/

def pmSrc (d : List Byte) : Nat := byteFld d 8 8
def pmDst (d : List Byte) : Nat := byteFld d 16 8
def pmInner (d : List Byte) : Nat := byteFld d 24 4
def pmRows (d : List Byte) : Nat := byteFld d 28 2 + 1
def pmMode (d : List Byte) : Nat := byteFld d 30 2
/-- 0 strided, 1 gather, 2 scatter. -/
def pmShape (d : List Byte) : Nat := pmMode d % 4
def pmConvert (d : List Byte) : Bool := (pmMode d).testBit 2
def pmScale (d : List Byte) : Bool := (pmMode d).testBit 3
def pmBlock (d : List Byte) : Nat := let b := bits (pmMode d) 4 4; 2 ^ (if b = 0 then 8 else b)
def pmSrcStride (d : List Byte) : Int := toSigned 32 (byteFld d 32 4)
def pmDstStride (d : List Byte) : Int := toSigned 32 (byteFld d 36 4)
def pmSrcFmt (d : List Byte) : Fmt := fmtOf (byteFld d 40 2)
def pmDstFmt (d : List Byte) : Fmt := fmtOf (byteFld d 42 2)
def pmAux (d : List Byte) : Nat := byteFld d 48 8
def pmPost (d : List Byte) : Nat := byteFld d 56 8
/-- Elements of the transfer. -/
def pmCount (d : List Byte) : Nat := pmInner d * pmRows d

/-- A pump descriptor breaks no rule of R112 that does not depend on the node. -/
def pumpOk (d : List Byte) : Bool :=
  let b := bits (pmMode d) 4 4
  let ss := (pmSrcFmt d).size
  let ds := (pmDstFmt d).size
  decide (1 ≤ pmInner d) && decide (pmInner d ≤ 16_777_216) && pmShape d != 3 && (b == 0 || (decide (5 ≤ b) && decide (b ≤ 10)))
    && bits (pmMode d) 8 8 == 0 && decide (pmSrc d < 2 ^ 48) && decide (pmDst d < 2 ^ 48)
    && fmtOk (byteFld d 40 2) false && fmtOk (byteFld d 42 2) true
    && (pmConvert d || byteFld d 40 2 == byteFld d 42 2)
    && (!pmScale d || (((pmSrcFmt d).isFp8 != (pmDstFmt d).isFp8) && pmShape d == 0))
    && pmSrc d % ss == 0 && pmDst d % ds == 0 && byteFld d 32 4 % ss == 0 && byteFld d 36 4 % ds == 0
    && pmPost d % 8 == 0 && (pmShape d != 0 || pmScale d || pmAux d == 0)

/-- Both sides are tray addresses of other nodes, or the descriptor breaks another rule: MALFORMED (04 R112). -/
def State.pumpMalformed (s : State) (d : List Byte) : Bool :=
  !pumpOk d || (s.remoteTray (pmSrc d) && s.remoteTray (pmDst d))

/-! ## Addresses in transfer order -/

/-- A run of consecutive elements within one 64-byte line; no address where the index that names it read poisoned. -/
structure Chunk where
  addr  : Option Nat
  first : Nat
  count : Nat
  deriving DecidableEq, Repr

/-- Add the next element's address to the chunks so far, the newest first. -/
def addChunk (size : Nat) (acc : List Chunk) (k : Nat) (a : Option Nat) : List Chunk :=
  match acc, a with
  | { addr := some b, first := f, count := n } :: rest, some x =>
    if x = b + n * size ∧ x / 64 = b / 64 then { addr := some b, first := f, count := n + 1 } :: rest
    else { addr := a, first := k, count := 1 } :: acc
  | _, _ => { addr := a, first := k, count := 1 } :: acc

/-- The chunks of a list of element addresses. -/
def chunksOf (size : Nat) (as : List (Option Nat)) : List Chunk :=
  (as.zipIdx.foldl (fun acc e => addChunk size acc e.2 e.1) []).reverse

/-- A signed sum of an address and a distance, modulo 2^48. -/
def plus48 (a : Nat) (i : Int) : Nat := (((a : Int) + i) % (2 ^ 48 : Nat)).toNat

/-- The addresses of rows of elements. -/
def rowAddrs (base : Nat) (stride : Int) (size inner rows : Nat) : List (Option Nat) :=
  (List.range rows).flatMap fun (r : Nat) =>
    (List.range inner).map fun (i : Nat) => some (plus48 base ((r : Int) * stride + ((i * size : Nat) : Int)))

/-! ## Accesses -/

/-- A pump as a requester (14 Table 14-1). -/
def State.pumpSender (s : State) : Sender := s.localSender 322

/-- The address that acts for one: a tray address of the pump's own node is the local one (04 R113). -/
def State.localAddr (s : State) (a : Nat) : Nat := if s.ownTray a then trayLocal a else a

/-- The aligned words that an access to a register, berth or bell window is made of; none where it is not aligned. -/
def windowWords : Nat → Nat → Nat → Option (List (Nat × Nat))
  | 0, _, n => if n = 0 then some [] else none
  | fuel + 1, a, n =>
    if n = 0 then some []
    else if a % 8 = 0 ∧ 8 ≤ n then (windowWords fuel (a + 8) (n - 8)).map ((a, 8) :: ·)
    else if a % 4 = 0 ∧ 4 ≤ n then (windowWords fuel (a + 4) (n - 4)).map ((a, 4) :: ·)
    else none

/-- The address lies in a window of registers, berths or bells. -/
def inWindow (a : Nat) : Bool :=
  match placeOf a with
  | .control | .berth | .bell => true
  | _ => false

/-- Read words one after the other; none where one is refused. -/
def State.readWords (w : Sender) : State → List (Nat × Nat) → Option (List Byte) × State
  | s, [] => (some [], s)
  | s, x :: xs =>
    let (r, t) := s.nodeRead w x.1 x.2
    if r.ok then
      let (rest, u) := State.readWords w t xs
      (rest.map (r.data ++ ·), u)
    else (none, t)

/-- Write words one after the other; `false` where one is refused. -/
def State.writeWords (w : Sender) : State → List Byte → List (Nat × Nat) → State × Bool
  | s, _, [] => (s, true)
  | s, bs, x :: xs =>
    match s.nodeWrite w x.1 (bs.take x.2) with
    | (t, true) => State.writeWords w t (bs.drop x.2) xs
    | (t, false) => (t, false)

/-- A pump's read of at most one line at a local address: data and poison, or none where no access is possible. -/
def State.pumpRead (s : State) (a n : Nat) : Option (List Byte × Bool) × State :=
  if inWindow a then
    match windowWords 16 a n with
    | some ws =>
      let (d, t) := State.readWords s.pumpSender s ws
      (d.map fun x => (x, false), t)
    | none => (none, s)
  else
    let (r, t) := s.nodeRead s.pumpSender a n
    (if r.ok then some (r.data, r.poison) else none, t)

/-- A pump's write of at most one line at a local address. -/
def State.pumpWrite (s : State) (a : Nat) (data : List Byte) (poison : Bool) : State × Bool :=
  if inWindow a then
    match windowWords 16 a data.length with
    | some ws => State.writeWords s.pumpSender s data ws
    | none => (s, false)
  else s.nodeWrite s.pumpSender a data poison

/-! ## Reading -/

/-- What a pump has read of one chunk. -/
structure Got where
  data   : List Byte := []
  poison : Bool := false
  dead   : Bool := false
  deriving DecidableEq, Repr

/-- One read of a pump: its key, address and bytes. -/
structure Fetch where
  key  : Nat
  addr : Option Nat
  size : Nat
  deriving DecidableEq, Repr

/-- The reply to an access of the current descriptor. -/
def Running.reply (r : Running) (key : Nat) (write : Bool) : Option PumpReply :=
  r.remote.find? fun x => x.key == key && x.write == write

/-- The access is on its way to another node. -/
def State.pumpOutstanding (s : State) (c q key : Nat) (write : Bool) : Bool :=
  s.tray.any fun t => t.owner == TrayOwner.pump c q key && (t.kind != 0) == write

/-- Tray-remote reads that a pump has outstanding. -/
def State.pumpReads (s : State) (c q : Nat) : Nat :=
  (s.tray.filter fun t => t.kind == 0 && (match t.owner with | .pump c' q' _ => c' == c && q' == q | _ => false)).length

/-- The address can be read: the fetch does not end the transfer. -/
def State.mayFetch (s : State) (a : Nat) : Bool :=
  s.remoteTray a ||
    (match placeOf (s.localAddr a) with
     | .hbm | .cistern _ | .control | .berth | .bell => true
     | .well k => s.domainState k != 2
     | _ => false)

/-- The reads before the first one that cannot be made, or whose answer was ERROR. -/
def State.reachFetches (s : State) (r : Running) : List Fetch → List Fetch
  | [] => []
  | f :: fs =>
    match f.addr with
    | none => f :: s.reachFetches r fs
    | some a =>
      if !s.mayFetch a || ((r.reply f.key false).map PumpReply.error).getD false then [] else f :: s.reachFetches r fs

/-- Issue the tray-remote reads that are not issued yet, at most 32 outstanding (04 R115). -/
def State.issueFetches (s : State) (c q : Nat) (r : Running) : List Fetch → State
  | [] => s
  | f :: fs =>
    match f.addr with
    | none => s.issueFetches c q r fs
    | some a =>
      if s.remoteTray a && (r.reply f.key false).isNone && !s.pumpOutstanding c q f.key false then
        (if s.pumpReads c q < 32 && s.trayFree a then
          (s.issueTray (.pump c q f.key) s.pumpSender { kind := 0, addr := a, size := f.size }).issueFetches c q r fs
         else s)
      else s.issueFetches c q r fs

/-- Every tray-remote read has its reply. -/
def State.fetched (s : State) (r : Running) (fs : List Fetch) : Bool :=
  fs.all fun f => match f.addr with
    | none => true
    | some a => !s.remoteTray a || (r.reply f.key false).isSome

/-- Take the data of the reads in order: local ones are made now. The list ends where a read is refused. -/
def State.takeFetches (s : State) (r : Running) : List Fetch → List Got × State
  | [] => ([], s)
  | f :: fs =>
    match f.addr with
    | none =>
      let d := leBytes f.size (Config.freeWord s.draws).toNat
      let (gs, t) := s.drawn.takeFetches r fs
      ({ data := d, poison := true } :: gs, t)
    | some a =>
      if s.remoteTray a then
        match r.reply f.key false with
        | none => ([], s)
        | some x =>
          let (gs, t) := s.takeFetches r fs
          ({ data := (x.data ++ List.replicate f.size 0xFF).take f.size, poison := x.poison, dead := x.dead } :: gs, t)
      else
        match s.pumpRead (s.localAddr a) f.size with
        | (none, t) => ([], t)
        | (some (d, p), t) =>
          let (gs, u) := t.takeFetches r fs
          ({ data := d, poison := p } :: gs, u)

/-! ## The index and scale arrays -/

/-- Entries of the index or scale array that the pump reads (04 R113, R114). -/
def auxCount (d : List Byte) : Nat :=
  if pmShape d ≠ 0 then pmCount d
  else if pmScale d && (pmSrcFmt d).isFp8 then ceilDiv (pmCount d) (pmBlock d)
  else 0

/-- The reads of the index or scale array: keys from 2^40 on. -/
def auxFetches (d : List Byte) : List (Chunk × Fetch) :=
  (chunksOf 4 ((List.range (auxCount d)).map fun i => some (plus48 (pmAux d) (4 * i : Nat)))).zipIdx.map fun e =>
    (e.1, { key := 2 ^ 40 + e.2, addr := e.1.addr, size := 4 * e.1.count })

/-- An entry of the array: its value, and whether its line read poisoned. -/
def auxEntries (gs : List Got) : List (Nat × Bool) :=
  gs.flatMap fun g => (List.range (g.data.length / 4)).map fun i => (byteFld g.data (4 * i) 4, g.poison)

/-- The source addresses (04 R113). -/
def srcAddrs (d : List Byte) (aux : List (Nat × Bool)) : List (Option Nat) :=
  if pmShape d = 1 then
    aux.map fun e => if e.2 then none else some (plus48 (pmSrc d) (toSigned 32 e.1 * ((pmSrcFmt d).size : Nat)))
  else rowAddrs (pmSrc d) (pmSrcStride d) (pmSrcFmt d).size (pmInner d) (pmRows d)

/-- The destination addresses. -/
def dstAddrs (d : List Byte) (aux : List (Nat × Bool)) : List (Option Nat) :=
  if pmShape d = 2 then
    aux.map fun e => if e.2 then none else some (plus48 (pmDst d) (toSigned 32 e.1 * ((pmDstFmt d).size : Nat)))
  else rowAddrs (pmDst d) (pmDstStride d) (pmDstFmt d).size (pmInner d) (pmRows d)

/-- The reads of the source: keys from 1 on. -/
def srcFetches (d : List Byte) (aux : List (Nat × Bool)) : List Fetch :=
  (chunksOf (pmSrcFmt d).size (srcAddrs d aux)).zipIdx.map fun e =>
    { key := 1 + e.2, addr := e.1.addr, size := (pmSrcFmt d).size * e.1.count }

/-- The elements read. -/
def gotElems (size : Nat) (gs : List Got) : List Elem :=
  gs.flatMap fun g => (List.range (g.data.length / size)).map fun i => { code := byteFld g.data (size * i) size, poison := g.poison }

/-! ## Conversion (04 R114) -/

/-- The elements as they are written, the block scales with their poison, and the NaN and saturation events. -/
structure Converted where
  elems  : List Elem
  scales : List Elem := []
  nans   : Nat := 0
  sats   : Nat := 0
  deriving DecidableEq, Repr

/-- Code each element by a function of its index. -/
def codeAll (f : Nat → Nat → Coded) (es : List Elem) : Converted :=
  let cs := es.zipIdx.map fun e => (f e.2 e.1.code, e.1.poison)
  { elems := cs.map fun c => { code := c.1.code, poison := c.2 }
    nans := sumNat (cs.map fun c => c.1.nans), sats := sumNat (cs.map fun c => c.1.sats) }

/-- The blocks of a list of elements. -/
def blocksOf (n : Nat) (es : List Elem) : List (List Elem) :=
  (List.range (ceilDiv es.length n)).map fun j => (es.drop (j * n)).take n

/-- Convert the elements of a transfer; `draw` gives the bits of stochastic rounding by element. A scale computed from a
poisoned element is written poisoned. -/
def pumpConvert (d : List Byte) (aux : List (Nat × Bool)) (draw : Nat → Nat) (es : List Elem) : Converted :=
  let sf := pmSrcFmt d
  let df := pmDstFmt d
  if !pmConvert d then { elems := es }
  else if !pmScale d then codeAll (fun i x => convert sf df (draw i) x) es
  else if df.isFp8 then
    let blocks := blocksOf (pmBlock d) es
    let scales := blocks.map fun b =>
      ({ code := blockScale df.code (b.map fun e => decodeNum sf e.code), poison := b.any Elem.poison } : Elem)
    let c := codeAll (fun i x => narrowScaled df ((scales.getD (i / pmBlock d) { code := 0 }).code) (draw i) (decodeNum sf x)) es
    { c with scales := scales }
  else
    let es := es.zipIdx.map fun e => { e.1 with poison := e.1.poison || (aux.getD (e.2 / pmBlock d) (0, false)).2 }
    codeAll (fun i x => widenScaled sf df (aux.getD (i / pmBlock d) (0, false)).1 (draw i) x) es

/-! ## Writing -/

/-- The writes of a run: a line, or its 32-byte sectors where only some of them hold a poisoned element. -/
def runWrites (s : State) (a : Nat) (size : Nat) (es : List Elem) : List LateWrite :=
  let bytes := elemBytes size es
  let pois := fun (i : Nat) => (es.getD (i / size) { code := 0 }).poison
  let all := es.all Elem.poison
  if s.remoteTray a || !(placeOf (s.localAddr a) == .hbm) || all || !es.any Elem.poison then
    [{ addr := a, data := bytes, poison := es.any Elem.poison }]
  else
    (poisonUnits (bytes.length / 32 + 2) (s.localAddr a) bytes.length).map fun u =>
      let off := u.1 - s.localAddr a
      { addr := a + off, data := (bytes.drop off).take u.2, poison := anyIn pois off u.2 }

/-- The writes of the elements in transfer order; an element that the scatter leaves unaddressed is not written. -/
def elemWrites (s : State) (size : Nat) (dst : List (Option Nat)) (es : List Elem) : List LateWrite :=
  (chunksOf size (dst.take es.length)).flatMap fun c =>
    match c.addr with
    | none => []
    | some a => runWrites s a size ((es.drop c.first).take c.count)

/-- The status that prevails: ACCESS before REMOTE_DEAD, REMOTE_DEAD before POISON (04 R113). -/
def worse (a b : Nat) : Nat :=
  if a = 2 ∨ b = 2 then 2 else if a = 5 ∨ b = 5 then 5 else if a = 3 ∨ b = 3 then 3 else 0

/-- Add the events of a descriptor to PUMP_CONV, each saturating (04 R114). -/
def State.countConv (s : State) (b : Block) (off nans sats : Nat) : State := (s.addSat b off 0 32 nans).addSat b off 32 32 sats

/-- A descriptor of a FORM chain counts its events in the checkpoint's EVENTS (16 R437). -/
def State.countForm (s : State) (c q n : Nat) : State :=
  match s.ckpt, (s.queue c q).current with
  | some k, some r =>
    if k.pieces.any fun p => p.core == some c && p.chain == r.addr then { s with ckpt := some { k with events := sat32 (k.events + n) } } else s
  | _, _ => s

/-- Elements whose index or scale has been read (04 R113): all, where the pump reads no such array. -/
def auxReach (d : List Byte) (entries : Nat) : Nat :=
  if entries = auxCount d then pmCount d else if pmShape d ≠ 0 then entries else entries * pmBlock d

/-- The reads are done: convert, and keep the writes that are to be made. An index or scale that could not be read ends the
transfer at its element, as a source element does (04 R112, R113). -/
def State.planWrites (s : State) (c q : Nat) (d : List Byte) (auxGot : List Got) (got : List Got) : State :=
  let aux := auxEntries auxGot
  let es := (gotElems (pmSrcFmt d).size got).take (auxReach d aux.length)
  let short := decide (es.length < pmCount d)
  let v := pumpConvert d aux (fun i => s.draw16 i) es
  let ws := elemWrites s (pmDstFmt d).size (dstAddrs d aux) v.elems
  let sw := if v.scales.isEmpty then [] else
    elemWrites s 4 ((List.range v.scales.length).map fun i => some (plus48 (pmAux d) (4 * i : Nat))) v.scales
  let pois := es.any Elem.poison || auxGot.any Got.poison
  let dead := got.any Got.dead || auxGot.any Got.dead
  let code := worse (if short then 2 else 0) (worse (if dead then 5 else 0) (if pois then 3 else 0))
  let s := ((s.drawnN es.length).countConv (.core c) (0x280 + 8 * (q - 4)) v.nans v.sats).countForm c q (v.nans + v.sats)
  s.updateCurrent c q fun r => { r with moved := true, code := code, writes := ws ++ sw, remote := [] }

/-- A local read or write of a pump must wait at its channel. -/
def State.pumpWaits (s : State) (a n : Nat) : Bool := !s.remoteTray a && s.hbmWaits (s.localAddr a) n

/-- A read of a pump must wait at its channel. -/
def State.fetchesWait (s : State) (fs : List Fetch) : Bool :=
  fs.any fun f => match f.addr with
    | some a => s.pumpWaits a f.size
    | none => false

/-- The read phase of a descriptor. -/
def State.pumpReadPhase (s : State) (c q : Nat) (r : Running) : State :=
  let d := r.desc
  let fs := s.reachFetches r ((auxFetches d).map (·.2))
  if s.fetchesWait fs then s
  else if !s.fetched r fs then s.issueFetches c q r fs
  else
    let (auxGot, s1) := s.takeFetches r fs
    let gs := s1.reachFetches r (srcFetches d (auxEntries auxGot))
    if s1.fetchesWait gs then s
    else if !s1.fetched r gs then s.issueFetches c q r gs
    else
      let (got, s2) := s1.takeFetches r gs
      s2.planWrites c q d auxGot got

/-- The write phase: the writes in transfer order. A tray-remote write waits for its answer before the next one. -/
def State.pumpWritePhase (c q : Nat) (r : Running) : State → Nat → List LateWrite → State
  | s, code, [] => s.endCurrent c q code
  | s, code, x :: xs =>
    let key := xs.length + 1
    if s.remoteTray x.addr then
      match r.reply key true with
      | some a => if a.error then s.endCurrent c q 2 else State.pumpWritePhase c q r s (if a.dead then worse code 5 else code) xs
      | none =>
        if s.pumpOutstanding c q key true || !s.trayFree x.addr then s
        else
          let s := s.updateCurrent c q fun r => { r with writes := x :: xs, code := code }
          s.issueTray (.pump c q key) s.pumpSender
            { kind := 1, addr := x.addr, size := x.data.length, data := x.data, poison := x.poison }
    else if s.pumpWaits x.addr x.data.length then s.updateCurrent c q fun r => { r with writes := x :: xs, code := code }
    else match s.pumpWrite (s.localAddr x.addr) x.data x.poison with
      | (s, true) => State.pumpWritePhase c q r s code xs
      | (s, false) => s.endCurrent c q 2

/-- The pump works on its current descriptor as far as it can. -/
def State.runPump (s : State) (c p : Nat) : State :=
  let q := 4 + p
  match (s.queue c q).current with
  | none => s
  | some r =>
    if s.pumpMalformed r.desc then s.endCurrent c q 1
    else
      let s := if r.moved then s else s.pumpReadPhase c q r
      match (s.queue c q).current with
      | none => s
      | some r => if r.moved then State.pumpWritePhase c q r s r.code r.writes else s

/-- POST_ADDR is written after the increment (04 R115). -/
def State.pumpPost (s : State) (c q : Nat) (d : List Byte) : State :=
  let a := pmPost d
  let data := leBytes 8 (byteFld d 44 4)
  if a = 0 then s
  else if s.remoteTray a then s.issueTray (.pump c q 0) s.pumpSender { kind := 1, addr := a, size := 8, data := data }
  else (s.nodeWrite s.pumpSender (s.localAddr a) data).1

/-- The oldest pump descriptor completes. -/
def State.completePump (s : State) (c p : Nat) : State :=
  match s.completing c (4 + p) with
  | none => s
  | some r => if pmPost r.desc != 0 && s.pumpWaits (pmPost r.desc) 8 then s else (s.retireDesc c (4 + p) r).pumpPost c (4 + p) r.desc

end Sys2Proof.Machine
end

