-- ==== Sys2Proof/Machine/Cores.lean ====
section
/-! DEFINITION. The core, queue and pump commands (04 R96–R118). -/

namespace Sys2Proof.Machine

/-- Q_TAIL_WRITE (04 R98, R117). -/
def execQTailWrite (core : Fin 256) (queue : Fin 6) (value : Word) (s : State) : Host.Outcome State Fault Refusal :=
  .next ((s.writeQTail core.val queue.val value.toNat).answers 0)

/-- Q_CHAIN_WRITE (04 R99, R117). -/
def execQChainWrite (core : Fin 256) (queue : Fin 6) (value : Word) (s : State) : Host.Outcome State Fault Refusal :=
  .next ((s.enterChain core.val queue.val (fld value 0 48)).answers 0)

/-- RESERVED_SLOT_ENTER (04 R99). -/
def execReservedSlotEnter (core : Fin 256) (queue : Fin 6) (s : State) : Host.Outcome State Fault Refusal :=
  .next (s.enterReserved core.val queue.val)

/-- DESCRIPTOR_START (04 R100, R104). -/
def execDescriptorStart (core : Fin 256) (queue : Fin 6) (s : State) : Host.Outcome State Fault Refusal :=
  .next (s.startDesc core.val queue.val)

/-- RESUME (04 R104). -/
def execResume (core : Fin 256) (queue : Fin 6) (s : State) : Host.Outcome State Fault Refusal :=
  .next (s.resumeQueue core.val queue.val)

/-- SKIP (04 R104). -/
def execSkip (core : Fin 256) (queue : Fin 6) (s : State) : Host.Outcome State Fault Refusal :=
  .next (s.skipQueue core.val queue.val)

/-- FLUSH (04 R104). -/
def execFlush (core : Fin 256) (queue : Fin 6) (s : State) : Host.Outcome State Fault Refusal :=
  .next (s.flushQueue core.val queue.val)

/-- A source enabled in WAKE_EN is set in WAKE_CAUSE (04 R105). -/
def State.mayWake (s : State) (c : Nat) : Bool := s.reg (.core c) 0x028 &&& s.reg (.core c) 0x030 != 0

/-- A pilot core executes WFI (04 R105): it waits, unless a source is set already. -/
def waitForInterrupt (c : Nat) (s : State) : State :=
  if !s.hartRuns c then s
  else if s.mayWake c then s.nextPc c
  else s.putBit (.core c) 0x008 3 true

/-- WFI (04 R105). -/
def execWfi (core : Fin 256) (s : State) : Host.Outcome State Fault Refusal := .next (waitForInterrupt core.val s)

/-- A waiting pilot core resumes (04 R105). -/
def wakePilot (c : Nat) (s : State) : State :=
  if s.coreRuns c && s.bitAt (.core c) 0x008 3 && s.mayWake c then (s.putBit (.core c) 0x008 3 false).nextPc c else s

/-- PILOT_WAKE (04 R105). -/
def execPilotWake (core : Fin 256) (s : State) : Host.Outcome State Fault Refusal := .next (wakePilot core.val s)

/-- PUMP_DESCRIPTOR (04 R111–R115): the pump does its current descriptor as far as the tray answers it waits for allow. -/
def execPumpDescriptor (core : Fin 256) (pump : Fin 2) (s : State) : Host.Outcome State Fault Refusal :=
  .next (if s.coreRuns core.val then s.runPump core.val pump.val else s)

/-- PUMP_COMPLETE (04 R100–R102, R115). -/
def execPumpComplete (core : Fin 256) (pump : Fin 2) (s : State) : Host.Outcome State Fault Refusal :=
  .next (if s.coreRuns core.val then s.completePump core.val pump.val else s)

/-- PUMP_CONV_READ (04 R114). -/
def execPumpConvRead (core : Fin 256) (pump : Fin 2) (s : State) : Host.Outcome State Fault Refusal :=
  .next (s.readClear (.core core.val) (0x280 + 8 * pump.val) 0 64)

/-- OFFLINE_DRAIN (04 R116, R117). -/
def execOfflineDrain (core : Fin 256) (s : State) : Host.Outcome State Fault Refusal := .next (s.coreRequest core.val 1)

/-- CORE_DRAIN_DONE (04 Table 4-9). -/
def execCoreDrainDone (core : Fin 256) (s : State) : Host.Outcome State Fault Refusal := .next (s.drainDone core.val)

/-- OFFLINE_ABORT (04 R116, R117). -/
def execOfflineAbort (core : Fin 256) (s : State) : Host.Outcome State Fault Refusal := .next (s.coreRequest core.val 2)

/-- ONLINE (04 R116, R117, 05 R130). -/
def execOnline (core : Fin 256) (s : State) : Host.Outcome State Fault Refusal := .next (s.coreRequest core.val 3)

end Sys2Proof.Machine
end

