-- ==== Sys2Proof/Machine/Faults.lean ====
section
/-! DEFINITION. The commands of the fault hub, its sources and the lifetime record (15). -/

namespace Sys2Proof.Machine

/-- FAULT_REPORT (15 R405). -/
def execFaultReport (s : State) : Host.Outcome State Fault Refusal := .next s.takeReport

/-- HBM_HOT (10 R258). -/
def execHbmHot (stack : Fin 12) (reading : BitVec 16) (s : State) : Host.Outcome State Fault Refusal :=
  .next (s.hot 0x04 (7 + stack.val) reading.toNat 13_500)

/-- HBM_CRIT (15 R402). -/
def execHbmCrit (stack : Fin 12) (reading : BitVec 16) (s : State) : Host.Outcome State Fault Refusal :=
  .next (s.tooHot 0x05 (some 467) (7 + stack.val) reading.toNat 14_500)

/-- DIE_HOT (15 R403). -/
def execDieHot (sensor : Fin 7) (reading : BitVec 16) (s : State) : Host.Outcome State Fault Refusal :=
  .next (s.hot 0x31 sensor.val reading.toNat 14_500)

/-- DIE_CRIT (15 R402). -/
def execDieCrit (sensor : Fin 7) (reading : BitVec 16) (s : State) : Host.Outcome State Fault Refusal :=
  .next (s.tooHot 0x32 (some 467) sensor.val reading.toNat 15_500)

/-- THERMAL_CLEAR (15 R403). -/
def execThermalClear (sensor : Fin 19) (reading : BitVec 16) (s : State) : Host.Outcome State Fault Refusal :=
  .next (s.thermalClear sensor.val reading.toNat)

/-- DROOP (15 R402, R422): deeper than 10 %, it counts in the histogram as well. -/
def execDroop (die : Fin 4) (s : State) : Host.Outcome State Fault Refusal :=
  .next ((s.countDroop die.val 1000).report 0x33 (some 467) 0)

/-- VR_FAULT (18 R482). -/
def execVrFault (s : State) : Host.Outcome State Fault Refusal := .next s.vrFault

/-- CLK_LOSS (18 R491). -/
def execClkLoss (s : State) : Host.Outcome State Fault Refusal := .next (s.report 0x35 (some 467) 0)

/-- MESH_DOWN (15 R402). -/
def execMeshDown (s : State) : Host.Outcome State Fault Refusal := .next (s.report 0x36 (some 467) 0)

/-- HUB_ERR (15 R402). -/
def execHubErr (s : State) : Host.Outcome State Fault Refusal := .next (s.report 0x37 (some 467) 0)

/-- HM_LOCKSTEP (14 R373). -/
def execHmLockstep (s : State) : Host.Outcome State Fault Refusal := .next (s.report 0x28 (some 466) 0)

/-- HM_WDOG (15 R402). -/
def execHmWdog (s : State) : Host.Outcome State Fault Refusal := .next (s.report 0x29 (some 466) 0)

/-- CORE_UE (15 R402). -/
def execCoreUe (core : Fin 256) (s : State) : Host.Outcome State Fault Refusal := .next (s.report 0x0A (some core.val) 0)

/-- QUAY_UE (15 R402). -/
def execQuayUe (quay : Fin 2) (s : State) : Host.Outcome State Fault Refusal := .next (s.report 0x1D (some (464 + quay.val)) 0)

/-- HBM_PHY (10 R263). -/
def execHbmPhy (channel : Fin 192) (s : State) : Host.Outcome State Fault Refusal := .next (s.phyLoss channel.val)

/-- QUIET_PERIOD_END (15 R413, R414). -/
def execQuietPeriodEnd (domain : Fin 468) (s : State) : Host.Outcome State Fault Refusal :=
  .next (if s.quietOver domain.val then s.enterSelftest domain.val else s)

/-- SELFTEST_PASS (15 R415). -/
def execSelftestPass (domain : Fin 468) (s : State) : Host.Outcome State Fault Refusal := .next (s.passTest domain.val)

/-- SELFTEST_FAIL (15 R413). -/
def execSelftestFail (domain : Fin 468) (s : State) : Host.Outcome State Fault Refusal := .next (s.failTest domain.val)

/-- LIFETIME_WRITE (15 R420): by the harbourmaster, while it is not held in reset. -/
def execLifetimeWrite (s : State) : Host.Outcome State Fault Refusal := .next (if s.harbour.inReset then s else s.writeLifetime)

/-- SENSOR_SAMPLE (15 R422). -/
def execSensorSample (readings : List (BitVec 16)) (s : State) : Host.Outcome State Fault Refusal :=
  .next (s.sampleAll 0 ((readings.take 19).map BitVec.toNat))

/-- ENERGY_INTEGRATE (15 R423). -/
def execEnergyIntegrate (parts : List Nat) (s : State) : Host.Outcome State Fault Refusal := .next (s.integrate (parts.take 8))

/-- CONDITION_CLEAR (15 R414). -/
def execConditionClear (source : Fin 64) (s : State) : Host.Outcome State Fault Refusal := .next (s.conditionOver source.val)

end Sys2Proof.Machine
end

