-- ==== Sys2Proof/Machine/Fle.lean ====
section
/-! DEFINITION. The Flow Engine commands (06 R143–R173). -/

namespace Sys2Proof.Machine

/-- FLE_CHAIN (06 R143–R167): the engine runs its current descriptor, or refuses it. -/
def execFleChain (core : Fin 256) (s : State) : Host.Outcome State Fault Refusal :=
  .next (if s.coreRuns core.val then s.runFle core.val else s)

/-- The oldest FLE descriptor completes (06 R168). -/
def State.completeFle (s : State) (c : Nat) : State :=
  match s.completing c 2 with
  | none => s
  | some x => (s.completeDesc c 2).flAdd x.desc

/-- FLE_COMPLETE (04 R100–R102, 06 R168). -/
def execFleComplete (core : Fin 256) (s : State) : Host.Outcome State Fault Refusal :=
  .next (if s.coreRuns core.val then s.completeFle core.val else s)

/-- FL_CONV_READ (06 R165). -/
def execFlConvRead (core : Fin 256) (s : State) : Host.Outcome State Fault Refusal :=
  .next (s.readClear (.fle core.val) 0x18 0 64)

end Sys2Proof.Machine
end

