-- ==== Sys2Proof/Machine/LongOps.lean ====
section
/-! DEFINITION. Xkmlv, the long-vector extension (07 R184–R201). -/

namespace Sys2Proof.Machine

/-- An Xkmlv instruction: its operation code of 07 Table 7-6 and its registers. -/
structure LvInstr where
  op  : Nat
  rd  : Nat
  rs1 : Nat
  rs2 : Nat
  rs3 : Nat
  deriving DecidableEq, Repr

/-- The operands of an instruction as the hart's registers and CSRs give them. -/
structure LvCtx where
  op     : Nat
  d      : Nat
  a      : Nat
  b      : Nat
  wordD  : Nat
  wordA  : Nat
  wordB  : Nat
  strD   : Int
  strA   : Int
  strB   : Int
  deriving DecidableEq, Repr

def LvCtx.fmtD (c : LvCtx) : Fmt := fmtOf c.wordD
def LvCtx.fmtA (c : LvCtx) : Fmt := fmtOf c.wordA
def LvCtx.fmtB (c : LvCtx) : Fmt := fmtOf c.wordB

/-- Element-wise operations: kadd to kcvt (07 R189). -/
def LvCtx.wise (c : LvCtx) : Bool := decide (c.op ≤ 7)
/-- Reductions: kdot, ksum, kamax. -/
def LvCtx.reduces (c : LvCtx) : Bool := decide (10 ≤ c.op)
/-- B, or the index vector, is in use. -/
def LvCtx.usesB (c : LvCtx) : Bool := decide (c.op ≤ 6) || c.op == 8 || c.op == 9 || c.op == 10
/-- kdot and ksum stop at groups of 16 elements (07 R195). -/
def LvCtx.grouped (c : LvCtx) : Bool := c.op == 10 || c.op == 11

/-- The operands of an instruction. -/
def Hart.lvCtx (h : Hart) (i : LvInstr) : LvCtx :=
  { op := i.op, d := (h.reg i.rs1).toNat, a := (h.reg i.rs2).toNat, b := (h.reg i.rs3).toNat
    wordD := fld h.lvfmt 0 16, wordA := fld h.lvfmt 16 16, wordB := fld h.lvfmt 32 16
    strD := toSigned 32 (fld h.lvstr0 0 32), strA := toSigned 32 (fld h.lvstr0 32 32), strB := toSigned 32 (fld h.lvstr1 0 32) }

/-- The address of element i of an operand. -/
def lvAddr (base : Nat) (stride : Int) (i : Nat) : Nat := ofSigned 64 ((base : Int) + i * stride)

/-! ## Checks (07 R188, R194) -/

/-- The ARITH operation of the same name (06 Table 6-7). -/
def lvArith (op : Nat) : Nat := if op = 6 then 8 else op

/-- A combination of 07 Table 7-7. -/
def LvCtx.formatsOk (c : LvCtx) : Bool :=
  let d := c.fmtD
  let a := c.fmtA
  let b := c.fmtB
  if c.op ≤ 6 then arithOk d (lvArith c.op) (if c.op = 3 then [a, b, d] else [a, b])
  else if c.op = 7 then true
  else if c.op ≤ 9 then b.code == 8
  else if c.op = 10 then d.code == 0 && decide (a.code ≤ 1) && a.code == b.code
  else if c.op = 11 then
    (if a.code ≤ 1 then decide (d.code ≤ 1) else decide (5 ≤ a.code) && decide (5 ≤ d.code))
  else c.wordA == c.wordD && (decide (a.code ≤ 1) || decide (5 ≤ a.code))

/-- A base or a stride is not a multiple of its element size. -/
def unaligned (base : Nat) (stride : Int) (size : Nat) : Bool := base % size != 0 || stride % (size : Int) != 0

/-- Why the instruction is refused with cause 24; 0 for none (07 Table 7-9). -/
def LvCtx.refusal (c : LvCtx) (i : LvInstr) : Nat :=
  if !fmtOk c.wordD true || !fmtOk c.wordA false || (c.usesB && !fmtOk c.wordB false) then 1
  else if !c.formatsOk then 2
  else if (c.reduces && i.rs1 != 0) || ((c.op == 7 || decide (11 ≤ c.op)) && i.rs3 != 0) then 3
  else if (!c.reduces && unaligned c.d (if c.op = 9 then 0 else c.strD) c.fmtD.size)
      || unaligned c.a (if c.op = 8 then 0 else c.strA) c.fmtA.size
      || (c.usesB && unaligned c.b c.strB c.fmtB.size) then 4
  else if c.wise && c.strD == 0 then 5
  else 0

/-! ## Ordered mode (07 R189) -/

/-- The lowest and one past the highest byte of a strided operand of n elements. -/
def lvSpan (base : Nat) (stride : Int) (size n : Nat) : Int × Int :=
  let e := ((n - 1 : Nat) : Int) * stride
  ((base : Int) + min 0 e, (base : Int) + max 0 e + size)

/-- The span of D meets the span of an operand that is not D itself. -/
def LvCtx.meets (c : LvCtx) (base : Nat) (stride : Int) (size n : Nat) : Bool :=
  let p := lvSpan c.d c.strD c.fmtD.size n
  let q := lvSpan base stride size n
  decide (p.1 < q.2) && decide (q.1 < p.2) && !(base == c.d && stride == c.strD && size == c.fmtD.size)

/-- The instruction runs in ordered mode. -/
def LvCtx.ordered (c : LvCtx) (n : Nat) : Bool :=
  c.op == 8 || c.op == 9
    || (c.wise && n != 0 && (c.meets c.a c.strA c.fmtA.size n || (c.usesB && c.meets c.b c.strB c.fmtB.size n)))

/-! ## Elements -/

/-- A hart reads one element. -/
def State.lvRead (s : State) (h a : Nat) (f : Fmt) : Except (Nat × Nat) (Elem × State) :=
  match s.hartLoad h a f.size with
  | .ok (m, t) => .ok ({ code := leNat m.data, poison := m.poison }, t)
  | .error c => .error (c, a)

/-- A hart writes one element. -/
def State.lvWrite (s : State) (h a : Nat) (f : Fmt) (code : Nat) (poison : Bool) : Except (Nat × Nat) State :=
  match s.hartStore h a (leBytes f.size code) poison with
  | .ok t => .ok t
  | .error c => .error (c, a)

/-- Count events in lvev (07 R192). -/
def Hart.countEv (h : Hart) (nans sats : Nat) : Hart :=
  { h with lvev := setFld (setFld h.lvev 0 32 (sat32 (fld h.lvev 0 32 + nans))) 32 32 (sat32 (fld h.lvev 32 32 + sats)) }

/-- Set lvstat.POISON (07 R193). -/
def Hart.poisoned (h : Hart) (p : Bool) : Hart := if p then { h with lvstat := setBit h.lvstat 0 true } else h

/-- Update a hart. -/
def State.onHart (s : State) (h : Nat) (f : Hart → Hart) : State := s.setHart h (f (s.hart h))

/-- The addresses of A and D for an element, given its index element (07 Table 7-6). -/
def LvCtx.addrA (c : LvCtx) (i idx : Nat) : Nat :=
  if c.op = 8 then ofSigned 64 ((c.a : Int) + toSigned 32 idx * c.fmtA.size) else lvAddr c.a c.strA i
def LvCtx.addrD (c : LvCtx) (i idx : Nat) : Nat :=
  if c.op = 9 then ofSigned 64 ((c.d : Int) + toSigned 32 idx * c.fmtD.size) else lvAddr c.d c.strD i

/-- The reads of element i: A, B or the index, and D for kfma; the index is read before the element that it names. -/
def State.lvReads (s : State) (h : Nat) (c : LvCtx) (i : Nat) : Except (Nat × Nat) ((Elem × Elem × Elem) × State) := do
  let zero : Elem := { code := 0 }
  let (x, s) ← if c.op = 8 ∨ c.op = 9 then s.lvRead h (lvAddr c.b c.strB i) c.fmtB else .ok (zero, s)
  let (a, s) ← s.lvRead h (c.addrA i x.code) c.fmtA
  let (b, s) ← if c.op = 8 ∨ c.op = 9 then .ok (x, s)
    else if c.usesB then s.lvRead h (lvAddr c.b c.strB i) c.fmtB else .ok (zero, s)
  let (d, s) ← if c.op = 3 then s.lvRead h (c.addrD i x.code) c.fmtD else .ok (zero, s)
  .ok ((a, b, d), s)

/-- The result of an element-wise operation, kgath or kscat (07 R187). -/
def LvCtx.result (c : LvCtx) (r a b d : Nat) : Coded :=
  if c.op ≤ 6 then
    arithStage c.fmtD (lvArith c.op) r
      (if c.op = 3 then [(c.fmtA, a), (c.fmtB, b), (c.fmtD, d)] else [(c.fmtA, a), (c.fmtB, b)])
  else convert c.fmtA c.fmtD r a

/-- One element of an element-wise operation, kgath or kscat. -/
def State.lvElement (s : State) (h : Nat) (c : LvCtx) (i : Nat) : Except (Nat × Nat) State := do
  let ((a, b, d), s) ← s.lvReads h c i
  let v := c.result (s.draw16 0) a.code b.code d.code
  let p := a.poison || b.poison || d.poison
  let s ← s.lvWrite h (c.addrD i b.code) c.fmtD v.code p
  .ok (s.drawn.onHart h fun t => (t.countEv v.nans v.sats).poisoned p)

/-! ## Reductions (07 R190, R191)

The accumulator must carry that a NaN or a poisoned element has been met, since R197 lets nothing else be kept over a stop.
The floating-point sum has bits 32 and 33 of lvacc0 for this; the 128-bit sum takes the form 2^127 + bits, outside every sum of
an instruction; the maximum stands in lvacc0 with bits 0 and 1 of lvacc1 (DESIGN CHOICE, log entry 62). -/

/-- A NaN element (bit 0) and a poisoned element (bit 1) have been met. -/
def Hart.lvMarks (h : Hart) (c : LvCtx) : Nat :=
  if c.op = 12 then fld h.lvacc1 0 2
  else if c.fmtA.isFp then fld h.lvacc0 32 2
  else if fld h.lvacc1 62 2 = 2 then fld h.lvacc0 0 2 else 0

/-- The 128-bit sum. -/
def Hart.lvSum (h : Hart) : Int := toSigned 128 (h.lvacc0.toNat + h.lvacc1.toNat * 2 ^ 64)

/-- Write the accumulators. -/
def Hart.setLvAcc (h : Hart) (lo hi : Nat) : Hart := { h with lvacc0 := BitVec.ofNat 64 lo, lvacc1 := BitVec.ofNat 64 hi }

/-- Elements of one group as the unit reads them: the terms, whether one is a NaN operand, and whether one is poisoned. -/
structure LvTerms where
  terms  : List Num := []
  codes  : List Nat := []
  nan    : Bool := false
  poison : Bool := false

/-- Read the elements from i on into the terms of a reduction. -/
def State.lvTerms (h : Nat) (c : LvCtx) : Nat → Nat → State → LvTerms → Except (Nat × Nat) (LvTerms × State)
  | 0, _, s, t => .ok (t, s)
  | n + 1, i, s, t =>
    match s.lvReads h c i with
    | .error e => .error e
    | .ok ((a, b, _), s) =>
      let x := decodeNum c.fmtA a.code
      let y := decodeNum c.fmtB b.code
      let dot := c.op == 10
      State.lvTerms h c n (i + 1) s
        { terms := t.terms ++ [if dot then x.mul y else x], codes := t.codes ++ [a.code]
          nan := t.nan || x.isNan || (dot && y.isNan), poison := t.poison || a.poison || (dot && b.poison) }

/-- Add a group to the floating-point running sum (07 R190). -/
def Hart.addFp (h : Hart) (c : LvCtx) (t : LvTerms) : Hart :=
  let v := place FP32 true 0 (sumTerms (decodeNum FP32 (fld h.lvacc0 0 32) :: t.terms))
  let m := h.lvMarks c ||| ((if t.nan then 1 else 0) + (if t.poison then 2 else 0))
  (h.setLvAcc (v.code + m * 2 ^ 32) h.lvacc1.toNat).countEv 0 v.sats

/-- Add elements to the exact sum of FX or INT codes (07 R191). -/
def Hart.addExact (h : Hart) (c : LvCtx) (t : LvTerms) : Hart :=
  let m := h.lvMarks c ||| ((if t.nan then 1 else 0) + (if t.poison then 2 else 0))
  if m ≠ 0 then h.setLvAcc m (2 ^ 63)
  else
    let sum := ofSigned 128 (h.lvSum + (t.codes.map (toSigned c.fmtA.width)).foldl (· + ·) 0)
    h.setLvAcc (sum % 2 ^ 64) (sum / 2 ^ 64)

/-- The running maximum: FP bits of A's format, or the magnitude's code (07 R191). -/
def Hart.addMax (h : Hart) (c : LvCtx) (t : LvTerms) : Hart :=
  let m := h.lvMarks c ||| ((if t.nan then 1 else 0) + (if t.poison then 2 else 0))
  let mag := fun (x : Nat) => if c.fmtA.isFp then x % 2 ^ (c.fmtA.width - 1) else (toSigned c.fmtA.width x).natAbs
  h.setLvAcc ((t.codes.map mag).foldl max h.lvacc0.toNat) m

/-- A run of elements of a reduction. -/
def State.lvReduce (s : State) (h : Nat) (c : LvCtx) (i n : Nat) : Except (Nat × Nat) State :=
  match State.lvTerms h c n i s {} with
  | .error e => .error e
  | .ok (t, s) => .ok (s.onHart h fun r =>
      (if c.op = 12 then r.addMax c t else if c.fmtA.isFp then r.addFp c t else r.addExact c t).poisoned t.poison)

/-- The value of a reduction and its final events (07 R190–R193, R509, R510). -/
def Hart.lvValue (h : Hart) (c : LvCtx) (r : Nat) : Coded :=
  let f := c.fmtD
  let m := h.lvMarks c
  if m.testBit 1 then { code := nanCode f, nans := if f.isInt && m.testBit 0 then 1 else 0 }
  else if c.op = 12 then
    (if m.testBit 0 then { code := nanCode f }
     else if f.isFp then { code := h.lvacc0.toNat % 2 ^ f.width }
     else arith f r false (.fin false h.lvacc0.toNat (if f.isFx then 2 ^ f.frac else 1)))
  else if c.fmtA.isFp then
    let x := fld h.lvacc0 0 32
    let made := (decodeNum FP32 x).isNan && !m.testBit 0
    if FP32.same f then { code := x, nans := if made then 1 else 0 }
    else let v := convert FP32 f r x; { v with nans := if made then 1 else 0 }
  else if m ≠ 0 then arith f r true .nan
  else
    let z := h.lvSum
    arith f r false (.fin (decide (z < 0)) z.natAbs (if c.fmtA.isFx then 2 ^ c.fmtA.frac else 1))

/-- A value as rd holds it: FP bits zero-extended, FX and INT codes sign-extended (07 R192). -/
def rdValue (f : Fmt) (code : Nat) : Word :=
  if f.isFp then BitVec.ofNat 64 code else BitVec.ofNat 64 (ofSigned 64 (toSigned f.width code))

/-! ## The instruction -/

/-- The elements left from i on, up to n: one element at a time, or one group. -/
def State.lvLoop (h : Nat) (c : LvCtx) (n : Nat) : Nat → State → Except (Nat × Nat) State
  | 0, s => .ok s
  | fuel + 1, s =>
    let i := fld (s.hart h).lvstart 0 25
    if n ≤ i then .ok s
    else
      let k := if c.grouped then min n (i / 16 * 16 + 16) - i else 1
      match (if c.reduces then s.lvReduce h c i k else s.lvElement h c i) with
      | .ok t => State.lvLoop h c n fuel (t.onHart h fun r => { r with lvstart := BitVec.ofNat 64 (i + k) })
      | .error e => if e.1 = mustWait then .error e else .ok (s.trapHart h e.1 e.2)

/-- An instruction that has processed every element writes rd, clears lvstart and retires (07 R192, R197). -/
def State.lvFinish (s : State) (h : Nat) (c : LvCtx) (i : LvInstr) : State :=
  let s := if c.reduces then
      let v := (s.hart h).lvValue c (s.draw16 0)
      s.drawn.onHart h fun r => (r.countEv v.nans v.sats).setReg i.rd (rdValue c.fmtD v.code)
    else s.onHart h fun r => r.setReg i.rd r.lvev
  (s.onHart h fun r => { r with lvstart := 0 }).nextPc h

/-- mstatus with XS Dirty, and SD with it (07 R185). -/
def dirtyXs (w : Word) : Word := setBit (setFld w 15 2 3) 63 true

/-- An instruction that starts with lvstart = 0 clears lvev, and a reduction its accumulator (07 R191, R192). -/
def Hart.lvBegin (h : Hart) (c : LvCtx) : Hart :=
  let h := { h with lvstat := setBit h.lvstat 1 (c.ordered (fld h.lvl 0 25)) }
  if h.lvstart = 0 then (if c.reduces then { h with lvev := 0, lvacc0 := 0, lvacc1 := 0 } else { h with lvev := 0 }) else h

/-- Where an instruction stopped by an interrupt stops: an element, or a group of kdot and ksum, at or above lvstart. -/
def LvCtx.stopAt (c : LvCtx) (start n stop : Nat) : Nat :=
  let m := min stop n
  max start (if c.grouped && m != n then m / 16 * 16 else m)

/-- Run an Xkmlv instruction on a hart; `stop` is the interrupt that stops it, as an element and a cause (07 R194–R197). An instruction
with an access that must wait at its channel waits. -/
def State.runLong (s : State) (h : Nat) (i : LvInstr) (stop : Option (Nat × Nat)) : State :=
  let before := s
  if !s.hartRuns h then s
  else if fld (s.hart h).mstatus 15 2 = 0 then s.illegal h
  else
    let s := s.onHart h fun r => { r with mstatus := dirtyXs r.mstatus }
    let c := (s.hart h).lvCtx i
    let why := c.refusal i
    if why ≠ 0 then s.trapHart h 24 why
    else
      let s := s.onHart h fun r => r.lvBegin c
      let n := fld (s.hart h).lvl 0 25
      let start := fld (s.hart h).lvstart 0 25
      let upto := match stop with
        | some (e, _) => c.stopAt start n e
        | none => n
      match State.lvLoop h c upto (upto - start) s with
      | .error _ => before
      | .ok t =>
        if (s.hart h).pc ≠ (t.hart h).pc ∨ fld (t.hart h).lvstart 0 25 < upto then t
        else match stop with
          | some (_, cause) => t.setHart h ((t.hart h).interrupt (isPd h) cause)
          | none => t.lvFinish h c i

end Sys2Proof.Machine
end

