-- ==== Sys2Proof/Machine/HartCsr.lean ====
section
/-! DEFINITION. The control and status registers of the harts, by number (07 R174–R176, R179, R182, R185, R201). Numbers, fields and
legal values of the standard registers are those of the RISC-V specifications of 07 Table 7-2 (PRESUMED, log entry 10). -/

namespace Sys2Proof.Machine

/-! ## The units that mstatus turns on -/

/-- SD of mstatus: FS, VS or XS is Dirty. -/
def withSd (w : Word) : Word := setBit w 63 (fld w 13 2 == 3 || fld w 9 2 == 3 || fld w 15 2 == 3)

/-- FS Dirty, and VS Dirty. -/
def dirtyFs (w : Word) : Word := withSd (setFld w 13 2 3)
def dirtyVs (w : Word) : Word := withSd (setFld w 9 2 3)

def Hart.fsOn (h : Hart) : Bool := fld h.mstatus 13 2 != 0
def Hart.vsOn (h : Hart) : Bool := fld h.mstatus 9 2 != 0
def Hart.xsOn (h : Hart) : Bool := fld h.mstatus 15 2 != 0

/-- VLEN: 512 bits on PD cores, 256 on pilot cores (07 R179). -/
def vlenOf (h : Nat) : Nat := if isPd h then 512 else 256

/-- The unit that a register belongs to is on. -/
def Hart.csrUnitOn (h : Hart) (num : Nat) : Bool :=
  if 1 ≤ num ∧ num ≤ 3 then h.fsOn
  else if num = 0x008 ∨ num = 0x009 ∨ num = 0x00A ∨ num = 0x00F ∨ 0xC20 ≤ num ∧ num ≤ 0xC22 then h.vsOn
  else if 0x800 ≤ num ∧ num ≤ 0x809 ∨ num = 0xCC0 then h.xsOn
  else true

/-! ## Reading -/

/-- The cycles of the hart's own clock, with what writes of mcycle have added (07 R176, 00 R8). -/
def State.hartCycles (s : State) (h : Nat) : Word :=
  BitVec.ofNat 64 ((if isPd h then s.cycles.pd else s.cycles.arith) / 1000) + (s.hart h).cycleOff

/-- lvinfo (07 Table 7-8). -/
def lvinfo (h : Nat) : Word := if isPd h then 0x140_0100_0000 else 0x110_0100_0000

/-- misa: RV64 with the extensions of 07 Table 7-1. -/
def misaOf (h : Nat) : Word := if isPd h then 0x8000_0000_0094_112D else 0x8000_0000_0090_1125

/-- mstatus as a hart reads it: UXL, and SXL on PD harts, name 64 bits. -/
def mstatusRead (h : Nat) (w : Word) : Word := setFld (if isPd h then setFld w 34 2 2 else w) 32 2 2

/-- The fields of mstatus that sstatus shows. -/
def sstatusMask : Word := 0x8000_0003_000D_E722

/-- The external interrupt pending. -/
def Hart.mip (h : Hart) : Word := setBit 0 11 (h.berthIrq || h.bellIrq)

/-- The performance counters that count: 8 on PD harts, 4 on pilot cores (07 Table 7-1). -/
def hpmCount (h : Nat) : Nat := if isPd h then 8 else 4

/-- The registers of every hart. -/
def State.csrCommon (s : State) (h : Nat) : List (Nat × Word) :=
  let r := s.hart h
  [(0x001, BitVec.ofNat 64 (fld r.fcsr 0 5)), (0x002, BitVec.ofNat 64 (fld r.fcsr 5 3)), (0x003, r.fcsr),
   (0x008, r.vstart), (0x009, BitVec.ofNat 64 (fld r.vcsr 0 1)), (0x00A, BitVec.ofNat 64 (fld r.vcsr 1 2)), (0x00F, r.vcsr),
   (0x300, mstatusRead h r.mstatus), (0x301, misaOf h), (0x304, r.mie), (0x305, r.mtvec), (0x306, Tab.get 0 r.counters 0),
   (0x30A, r.menvcfg), (0x320, Tab.get 0 r.counters 2), (0x340, r.mscratch), (0x341, r.mepc), (0x342, r.mcause), (0x343, r.mtval),
   (0x344, r.mip), (0x3A0, Tab.get 0 r.pmp 16), (0x3A2, Tab.get 0 r.pmp 17), (0xB00, s.hartCycles h), (0xB02, r.instret),
   (0xC00, s.hartCycles h), (0xC01, BitVec.ofNat 64 s.now), (0xC02, r.instret), (0xC20, r.vl), (0xC21, r.vtype),
   (0xC22, BitVec.ofNat 64 (vlenOf h / 8)), (0x800, r.lvl), (0x801, r.lvstart), (0x802, r.lvfmt), (0x803, r.lvstr0),
   (0x804, r.lvstr1), (0x805, r.lvacc0), (0x806, r.lvacc1), (0x807, r.lvev), (0x808, r.lvstat),
   (0x809, Tab.get (Config.entropy h) s.lvseed h), (0xCC0, lvinfo h), (0xF11, 0), (0xF12, 0), (0xF13, 0), (0xF14, BitVec.ofNat 64 h)]

/-- The registers of S mode, which only PD harts have (07 R175). -/
def Hart.csrSupervisor (r : Hart) (h : Nat) : List (Nat × Word) :=
  [(0x100, mstatusRead h r.mstatus &&& sstatusMask), (0x104, r.mie &&& r.mideleg), (0x105, r.stvec), (0x106, Tab.get 0 r.counters 1),
   (0x10A, r.senvcfg), (0x140, r.sscratch), (0x141, r.sepc), (0x142, r.scause), (0x143, r.stval), (0x144, r.mip &&& r.mideleg),
   (0x180, r.satp), (0x302, r.medeleg), (0x303, r.mideleg)]

/-- A performance counter: the spec names no events, so what it has counted is a free value; one that does not count reads 0. -/
def State.hpmValue (s : State) (h i : Nat) : Word := if i < hpmCount h then Config.freeWord (s.draws + i) else 0

/-- A number of a performance counter. -/
def hpmNumber (num : Nat) : Bool := decide (0xB03 ≤ num ∧ num ≤ 0xB1F ∨ 0xC03 ≤ num ∧ num ≤ 0xC1F)

/-- The value of a register; none where the hart has no register of the number. -/
def State.csrValue (s : State) (h num : Nat) : Option Word :=
  if 0x3B0 ≤ num ∧ num ≤ 0x3BF then some (Tab.get 0 (s.hart h).pmp (num - 0x3B0))
  else if 0x323 ≤ num ∧ num ≤ 0x33F then some (Tab.get 0 (s.hart h).counters (num - 0x320))
  else if 0xB03 ≤ num ∧ num ≤ 0xB1F then some (s.hpmValue h (num - 0xB03))
  else if 0xC03 ≤ num ∧ num ≤ 0xC1F then some (s.hpmValue h (num - 0xC03))
  else (s.csrCommon h ++ (if isPd h then (s.hart h).csrSupervisor h else [])).lookup num

/-- A user-mode counter is open to the hart's mode: mcounteren below M mode, and scounteren in U mode where there is S mode. -/
def Hart.counterOpen (h : Hart) (pd : Bool) (num : Nat) : Bool :=
  if 0xC00 ≤ num ∧ num ≤ 0xC1F then
    (h.priv == 3 || bit (Tab.get 0 h.counters 0) (num - 0xC00)) && (h.priv != 0 || !pd || bit (Tab.get 0 h.counters 1) (num - 0xC00))
  else true

/-- The access is allowed: the register exists, its mode and its unit allow it, and a written one is writable. -/
def State.csrOk (s : State) (h num : Nat) (writes : Bool) : Bool :=
  let r := s.hart h
  (s.csrValue h num).isSome && decide (bits num 8 2 ≤ r.priv) && !(writes && bits num 10 2 == 3) && r.csrUnitOn num
    && r.counterOpen (isPd h) num && !(num == 0x180 && r.priv == 1 && bit r.mstatus 20)

/-! ## Writing -/

/-- The bits of mstatus that software writes: those of S mode only on PD harts. -/
def mstatusMask (pd : Bool) : Word := if pd then 0x7F_FFAA else 0x23_FE88

/-- A write of mstatus: MPP keeps its value where the mode written does not exist. -/
def mstatusWrite (pd : Bool) (old v : Word) : Word :=
  let new := (old &&& ~~~mstatusMask pd) ||| (v &&& mstatusMask pd)
  let mpp := fld v 11 2
  withSd (setFld new 11 2 (if mpp = 3 ∨ mpp = 0 ∨ (pd ∧ mpp = 1) then mpp else fld old 11 2))

/-- A locked PMP entry, and its address register. -/
def Hart.pmpLocked (h : Hart) (i : Nat) : Bool := (h.pmpCfg i).testBit 7
def Hart.pmpAddrLocked (h : Hart) (i : Nat) : Bool :=
  h.pmpLocked i || (decide (i < 15) && h.pmpLocked (i + 1) && bits (h.pmpCfg (i + 1)) 3 2 == 1)

/-- A write of eight configuration bytes from entry `first` on. -/
def Hart.writePmpCfg (h : Hart) (first : Nat) (v : Word) : Hart :=
  let k := 16 + first / 8
  let w := (List.range 8).foldl (fun (w : Word) i => if h.pmpLocked (first + i) then w else setFld w (8 * i) 8 (fld v (8 * i) 8 &&& 0x9F))
    (Tab.get 0 h.pmp k)
  { h with pmp := Tab.set 0 h.pmp k w }

/-- A hart with a standard register written; FS and VS become Dirty with their registers. -/
def Hart.writeStandard (h : Hart) (pd : Bool) (cycles : Word) (num : Nat) (v : Word) : Hart :=
  let fp := fun (w : Word) => { h with fcsr := w, mstatus := dirtyFs h.mstatus }
  let vec := fun (w : Word) => { h with vcsr := w, mstatus := dirtyVs h.mstatus }
  if 0x3B0 ≤ num ∧ num ≤ 0x3BF then
    (if h.pmpAddrLocked (num - 0x3B0) then h else { h with pmp := Tab.set 0 h.pmp (num - 0x3B0) (BitVec.ofNat 64 (fld v 0 54)) })
  else if 0x323 ≤ num ∧ num ≤ 0x33F then { h with counters := Tab.set 0 h.counters (num - 0x320) v }
  else match num with
    | 0x001 => fp (setFld h.fcsr 0 5 (fld v 0 5))
    | 0x002 => fp (setFld h.fcsr 5 3 (fld v 0 3))
    | 0x003 => fp (v &&& 0xFF)
    | 0x008 => { h with vstart := v &&& (if pd then 0x1FF else 0xFF), mstatus := dirtyVs h.mstatus }
    | 0x009 => vec (setFld h.vcsr 0 1 (fld v 0 1))
    | 0x00A => vec (setFld h.vcsr 1 2 (fld v 0 2))
    | 0x00F => vec (v &&& 7)
    | 0x100 => { h with mstatus := mstatusWrite pd h.mstatus ((h.mstatus &&& ~~~sstatusMask) ||| (v &&& sstatusMask)) }
    | 0x104 => { h with mie := (h.mie &&& ~~~h.mideleg) ||| (v &&& h.mideleg) }
    | 0x105 => { h with stvec := setBit v 1 false }
    | 0x106 => { h with counters := Tab.set 0 h.counters 1 (v &&& 0xFFFF_FFFF) }
    | 0x10A => { h with senvcfg := v &&& 0xF1 }
    | 0x140 => { h with sscratch := v }
    | 0x141 => { h with sepc := setBit v 0 false }
    | 0x142 => { h with scause := v }
    | 0x143 => { h with stval := v }
    | 0x180 => if fld v 60 4 = 0 ∨ fld v 60 4 = 8 ∨ fld v 60 4 = 9 then { h with satp := v } else h
    | 0x300 => { h with mstatus := mstatusWrite pd h.mstatus v }
    | 0x302 => { h with medeleg := v &&& 0x100_B3FF }
    | 0x303 => { h with mideleg := v &&& 0x222 }
    | 0x304 => { h with mie := v }
    | 0x305 => { h with mtvec := setBit v 1 false }
    | 0x306 => { h with counters := Tab.set 0 h.counters 0 (v &&& 0xFFFF_FFFF) }
    | 0x30A => { h with menvcfg := v &&& 0xF1 }
    | 0x320 => { h with counters := Tab.set 0 h.counters 2 (v &&& 0xFFFF_FFFD) }
    | 0x340 => { h with mscratch := v }
    | 0x341 => { h with mepc := setBit v 0 false }
    | 0x342 => { h with mcause := v }
    | 0x343 => { h with mtval := v }
    | 0x3A0 => h.writePmpCfg 0 v
    | 0x3A2 => h.writePmpCfg 8 v
    | 0xB00 => { h with cycleOff := h.cycleOff + (v - cycles) }
    | 0xB02 => { h with instret := v }
    | _ => h

/-- A hart with an Xkmlv CSR written: 0 lvl, 1 lvstart, 2 lvfmt, 3 lvstr0, 4 lvstr1, 5 lvacc0, 6 lvacc1, 7 lvev, 8 lvstat. -/
def Hart.writeLong (h : Hart) (csr : Nat) (v : Word) : Hart :=
  match csr with
  | 0 => { h with lvl := if 16_777_216 < v.toNat then 16_777_216 else v }
  | 1 => { h with lvstart := v &&& 0x1FF_FFFF }
  | 2 => { h with lvfmt := v &&& 0xFFFF_FFFF_FFFF }
  | 3 => { h with lvstr0 := v }
  | 4 => { h with lvstr1 := v &&& 0xFFFF_FFFF }
  | 5 => { h with lvacc0 := v }
  | 6 => { h with lvacc1 := v }
  | 7 => { h with lvev := v }
  | 8 => { h with lvstat := setBit h.lvstat 0 (bit v 0) }
  | _ => h

/-- An Xkmlv CSR is written: XS becomes Dirty (07 R185, R201). -/
def State.writeLongCsr (s : State) (h csr : Nat) (v : Word) : State :=
  let s := s.onHart h fun r => { r.writeLong csr v with mstatus := dirtyXs r.mstatus }
  if csr = 9 then { s with lvseed := Tab.set (Config.entropy h) s.lvseed h v } else s

/-- A register is written. -/
def State.writeCsr (s : State) (h num : Nat) (v : Word) : State :=
  if 0x800 ≤ num ∧ num ≤ 0x809 then s.writeLongCsr h (num - 0x800) v
  else s.onHart h fun r => r.writeStandard (isPd h) (s.hartCycles h) num v

/-- A CSR instruction writes its register: csrrw always, the others where the source is not x0 or 0. -/
def csrWrites (op : CsrOp) (rs1 : Option (Fin 32)) (v : Word) : Bool :=
  op == .write || (match rs1 with | some r => r != 0 | none => v != 0)

/-- A CSR instruction: rd gets the old value, and the register the new one. A read of a counter that no rule gives a value uses a
free value. -/
def State.accessCsr (s : State) (h : Nat) (op : CsrOp) (num : Nat) (rd : Nat) (rs1 : Option (Fin 32)) (imm : Word) : State :=
  let writes := csrWrites op rs1 imm
  if !s.csrOk h num writes then s.illegal h
  else
    let old := (s.csrValue h num).getD 0
    let src := match rs1 with | some r => (s.hart h).reg r.val | none => imm
    let new := match op with | .write => src | .set => old ||| src | .clear => old &&& ~~~src
    let t := if writes then s.writeCsr h num new else s
    let t := if hpmNumber num then t.drawnN 8 else t
    (t.onHart h fun r => r.setReg rd old).nextPc h

end Sys2Proof.Machine
end

