-- ==== Sys2Proof/Machine/Ieee.lean ====
section
/-! DEFINITION. IEEE 754 arithmetic with flags, as the scalar and short-vector instructions of the harts do it (03 R78, R79, 07 R180,
R181). The rounding modes, the flags and the rules for NaN are those of the RISC-V specifications (PRESUMED, log entry 10). -/

namespace Sys2Proof.Machine

/-- A binary format: its bytes, mantissa bits and bias. -/
structure FpForm where
  size : Nat
  mant : Nat
  bias : Nat
  deriving DecidableEq, Repr

def binary16 : FpForm := { size := 2, mant := 10, bias := 15 }
def binary32 : FpForm := { size := 4, mant := 23, bias := 127 }
def binary64 : FpForm := { size := 8, mant := 52, bias := 1023 }

/-- The exponent field of infinities and NaNs. -/
def FpForm.top (f : FpForm) : Nat := 2 ^ (8 * f.size - 1 - f.mant) - 1
def FpForm.infCode (f : FpForm) (neg : Bool) : Nat := f.top * 2 ^ f.mant + (if neg then 2 ^ (8 * f.size - 1) else 0)
def FpForm.nanCode (f : FpForm) : Nat := f.top * 2 ^ f.mant + 2 ^ (f.mant - 1)

/-- The value of a code. -/
def FpForm.decode (f : FpForm) (c : Nat) : Num :=
  let s := c.testBit (8 * f.size - 1)
  let m := c % 2 ^ f.mant
  let e := bits c f.mant (8 * f.size - 1 - f.mant)
  if e = f.top then (if m = 0 then .inf s else .nan)
  else if e = 0 then scaled s m (1 - (f.bias : Int) - f.mant)
  else scaled s (2 ^ f.mant + m) ((e : Int) - f.bias - f.mant)

/-- A signalling NaN. -/
def FpForm.signals (f : FpForm) (c : Nat) : Bool := (f.decode c).isNan && !c.testBit (f.mant - 1)

/-- A result and the flags it accrues: NX 1, UF 2, OF 4, DZ 8, NV 16. -/
structure Flagged where
  code  : Nat
  flags : Nat := 0
  deriving DecidableEq, Repr

/-- Round q + m ÷ d under frm: 0 RNE, 1 RTZ, 2 RDN, 3 RUP, 4 RMM. -/
def roundFrm (rm : Nat) (neg : Bool) (q m d : Nat) : Nat :=
  match rm with
  | 0 => if d < 2 * m ∨ (2 * m = d ∧ q % 2 = 1) then q + 1 else q
  | 1 => q
  | 2 => if neg && m != 0 then q + 1 else q
  | 3 => if !neg && m != 0 then q + 1 else q
  | _ => if d ≤ 2 * m then q + 1 else q

/-- Where an overflow goes to infinity. -/
def overflowsUp (rm : Nat) (neg : Bool) : Bool := rm == 0 || rm == 4 || (rm == 2 && neg) || (rm == 3 && !neg)

/-- Round a value into a format. A result is tiny where it would be below the normal numbers with an unbounded exponent. -/
def FpForm.encode (f : FpForm) (rm : Nat) : Num → Flagged
  | .nan => { code := f.nanCode }
  | .inf neg => { code := f.infCode neg }
  | .fin neg n d =>
    let sign := if neg then 2 ^ (8 * f.size - 1) else 0
    if n = 0 then { code := sign }
    else
      let e := log2Quot n d
      let low : Int := 1 - (f.bias : Int)
      let lp := max e low - f.mant
      let nd := overPow n d lp
      let k := roundFrm rm neg (nd.1 / nd.2) (nd.1 % nd.2) nd.2
      let c := (lp + f.mant + f.bias - 1).toNat * 2 ^ f.mant + k
      if f.infCode false ≤ c then
        { code := if overflowsUp rm neg then f.infCode neg else f.infCode neg - 1, flags := 5 }
      else
        let free := overPow n d (e - f.mant)
        let k' := roundFrm rm neg (free.1 / free.2) (free.1 % free.2) free.2
        let tiny := decide (e < low) && !(decide (e = low - 1) && decide (k' = 2 ^ (f.mant + 1)))
        { code := sign + c, flags := if nd.1 % nd.2 = 0 then 0 else if tiny then 3 else 1 }

/-- An exact sum of zero is −0 under RDN unless both operands are positive. -/
def signedZero (rm : Nat) (x y r : Num) : Num :=
  match x, y, r with
  | .fin a _ _, .fin b _ _, .fin s 0 d => .fin (if rm = 2 then a || b else s) 0 d
  | _, _, _ => r

/-- Round a result; NV where it is a NaN that no operand is, or an operand signals. -/
def FpForm.finish (f : FpForm) (rm : Nat) (given : Bool) (signals : Bool) (r : Num) : Flagged :=
  let v := f.encode rm r
  { v with flags := v.flags ||| (if signals || (r.isNan && !given) then 16 else 0) }

def FpForm.add (f : FpForm) (rm a b : Nat) : Flagged :=
  let x := f.decode a
  let y := f.decode b
  f.finish rm (x.isNan || y.isNan) (f.signals a || f.signals b) (signedZero rm x y (x.add y))

/-- The code with its sign changed. -/
def FpForm.flip (f : FpForm) (c : Nat) : Nat := c ^^^ 2 ^ (8 * f.size - 1)

def FpForm.sub (f : FpForm) (rm a b : Nat) : Flagged := f.add rm a (f.flip b)

def FpForm.mul (f : FpForm) (rm a b : Nat) : Flagged :=
  let x := f.decode a
  let y := f.decode b
  f.finish rm (x.isNan || y.isNan) (f.signals a || f.signals b) (x.mul y)

def FpForm.div (f : FpForm) (rm a b : Nat) : Flagged :=
  let x := f.decode a
  let y := f.decode b
  let v := f.finish rm (x.isNan || y.isNan) (f.signals a || f.signals b) (x.div y)
  if y.isZero && x.isFin && !x.isZero then { v with flags := v.flags ||| 8 } else v

/-- a × b + c with one rounding, a and b in a format and c and the result in another; ∞ × 0 is invalid also with a NaN to add. -/
def FpForm.fma (f g : FpForm) (rm a b c : Nat) : Flagged :=
  let x := f.decode a
  let y := f.decode b
  let z := g.decode c
  let p := x.mul y
  let v := g.finish rm (x.isNan || y.isNan || z.isNan) (f.signals a || f.signals b || g.signals c) (signedZero rm p z (p.add z))
  if p.isNan && !x.isNan && !y.isNan then { v with flags := v.flags ||| 16 } else v

/-- The square root, by a value that every format rounds as the root: 64 digits of it or more, and one for what is left. -/
def FpForm.sqrt (f : FpForm) (rm a : Nat) : Flagged :=
  match f.decode a with
  | .nan => { code := f.nanCode, flags := if f.signals a then 16 else 0 }
  | .inf neg => if neg then { code := f.nanCode, flags := 16 } else { code := a }
  | .fin neg n d =>
    if n = 0 then { code := a }
    else if neg then { code := f.nanCode, flags := 16 }
    else
      let r := isqrt (n * 2 ^ 1202 / d)
      f.encode rm (.fin false (2 * r + (if r * r * d = n * 2 ^ 1202 then 0 else 1)) (2 ^ 602))

/-- The larger or the smaller operand: the one that is no NaN where exactly one is (07 R180). -/
def FpForm.pick (f : FpForm) (most : Bool) (a b : Nat) : Flagged :=
  let x := f.decode a
  let y := f.decode b
  let flags := if f.signals a || f.signals b then 16 else 0
  let less := x.lt y || (x.isZero && y.isZero && a.testBit (8 * f.size - 1))
  let code := if x.isNan && y.isNan then f.nanCode else if x.isNan then b else if y.isNan then a
    else if most = less then b else a
  { code := code, flags := flags }

/-- A comparison: equal (0), less (1), less or equal (2). The ordered ones are invalid with any NaN. -/
def FpForm.compare (f : FpForm) (op a b : Nat) : Flagged :=
  let x := f.decode a
  let y := f.decode b
  let quiet := x.isNan || y.isNan
  { code := if (match op with | 0 => x.eq y | 1 => x.lt y | _ => x.le y) then 1 else 0
    flags := if f.signals a || f.signals b || (quiet && op != 0) then 16 else 0 }

/-- The first operand with a sign made of the signs of both. -/
def FpForm.withSign (f : FpForm) (sign : Bool → Bool → Bool) (a b : Nat) : Flagged :=
  let top := 8 * f.size - 1
  { code := a % 2 ^ top + (if sign (a.testBit top) (b.testBit top) then 2 ^ top else 0) }

/-- The class of a value, as fclass numbers its bits. -/
def FpForm.classOf (f : FpForm) (a : Nat) : Nat :=
  let e := bits a f.mant (8 * f.size - 1 - f.mant)
  let m := a % 2 ^ f.mant
  if e = f.top ∧ m ≠ 0 then (if f.signals a then 2 ^ 8 else 2 ^ 9)
  else
    let k := if e = f.top then 0 else if e ≠ 0 then 1 else if m ≠ 0 then 2 else 3
    2 ^ (if a.testBit (8 * f.size - 1) then k else 7 - k)

/-- A value of one format in another. -/
def FpForm.convert (f g : FpForm) (rm a : Nat) : Flagged := g.finish rm (f.decode a).isNan (f.signals a) (f.decode a)

/-- A value as an integer of w bits: one out of range is invalid and becomes the end of the range on its side, a NaN the highest. -/
def FpForm.toInt (f : FpForm) (rm w : Nat) (signed : Bool) (a : Nat) : Flagged :=
  let low : Int := if signed then -(2 ^ (w - 1) : Nat) else 0
  let high : Int := if signed then (2 ^ (w - 1) - 1 : Nat) else (2 ^ w - 1 : Nat)
  match f.decode a with
  | .nan => { code := ofSigned w high, flags := 16 }
  | .inf neg => { code := ofSigned w (if neg then low else high), flags := 16 }
  | .fin neg n d =>
    let k : Int := roundFrm rm neg (n / d) (n % d) d
    let i := if neg then -k else k
    if i < low then { code := ofSigned w low, flags := 16 }
    else if high < i then { code := ofSigned w high, flags := 16 }
    else { code := ofSigned w i, flags := if n % d = 0 then 0 else 1 }

/-- An integer in the format. -/
def FpForm.ofInt (f : FpForm) (rm : Nat) (i : Int) : Flagged := f.encode rm (.fin (decide (i < 0)) i.natAbs 1)

end Sys2Proof.Machine
end

