-- ==== Sys2Proof/Machine/VecIsa.lean ====
section
/-! DEFINITION. The short-vector extension, Zve64f with Zvfh (07 R179–R182), by the vector specification 1.0 (PRESUMED, log entry 10).
Elements past vl and masked-off elements are left as they were, which the specification allows for both policies. -/

namespace Sys2Proof.Machine

/-! ## vtype and vl (07 R179) -/

/-- SEW in bits, and LMUL in eighths. -/
def sewOf (vtype : Word) : Nat := 8 * 2 ^ fld vtype 3 3
def lmul8 (vtype : Word) : Nat := if fld vtype 0 3 < 4 then 8 * 2 ^ fld vtype 0 3 else 8 / 2 ^ (8 - fld vtype 0 3)

/-- The settings are supported: SEW of 8 to 64 bits and at most LMUL × ELEN. -/
def vtypeOk (vtype : Word) : Bool :=
  fld vtype 3 3 ≤ 3 && fld vtype 0 3 != 4 && fld vtype 8 56 == 0 && decide (8 * sewOf vtype ≤ 64 * lmul8 vtype)

def vlMax (vlen : Nat) (vtype : Word) : Nat := vlen * lmul8 vtype / (8 * sewOf vtype)

/-- vsetvl: with x0 as the source, all elements, or the old vl where rd is x0 too. -/
def State.setVl (s : State) (h : Nat) (rd : Nat) (rs1 : Option (Fin 32)) (vtype imm : Word) : State :=
  let r := s.hart h
  let most := vlMax (vlenOf h) vtype
  let avl := match rs1 with
    | none => imm.toNat
    | some x => if x != 0 then (r.reg x.val).toNat else if rd = 0 then r.vl.toNat else most
  let bad := !vtypeOk vtype || (rs1 == some 0 && rd == 0 && decide (most < avl))
  if !r.vsOn then s.illegal h
  else
    let vl := BitVec.ofNat 64 (if bad then 0 else min avl most)
    (s.onHart h fun r => { r with vl := vl, vtype := if bad then BitVec.ofNat 64 (2 ^ 63) else vtype, vstart := 0
                                  mstatus := dirtyVs r.mstatus }.setReg rd vl).nextPc h

/-! ## Elements of a register group -/

/-- Element i of width w of the group at a register. -/
def Hart.velem (h : Hart) (vlen reg w i : Nat) : Nat := bits (Tab.get 0 h.v (reg + i * w / vlen)) (i * w % vlen) w

/-- Write an element. -/
def Hart.setVelem (h : Hart) (vlen reg w i x : Nat) : Hart :=
  let k := reg + i * w / vlen
  let old := Tab.get 0 h.v k
  let at_ := i * w % vlen
  { h with v := Tab.set 0 h.v k (old - bits old at_ w * 2 ^ at_ + x % 2 ^ w * 2 ^ at_) }

/-- Element i takes part: the mask is v0. -/
def Hart.active (h : Hart) (masked : Bool) (i : Nat) : Bool := !masked || (Tab.get 0 h.v 0).testBit i

/-- A value boxed in a floating-point register: an ill-boxed one reads as the canonical NaN. -/
def unboxed (f : FpForm) (w : Word) : Nat :=
  if f.size = 8 then w.toNat
  else if w.toNat / 2 ^ (8 * f.size) = 2 ^ (64 - 8 * f.size) - 1 then w.toNat % 2 ^ (8 * f.size) else f.nanCode
def boxed (size code : Nat) : Word := BitVec.ofNat 64 (2 ^ 64 - 2 ^ (8 * size) + code % 2 ^ (8 * size))

/-! ## Operations (07 R180) -/

/-- A signed value saturated to w bits, with the full two's-complement range. -/
def clipSigned (w : Nat) (i : Int) : Nat × Bool :=
  if i < -(2 ^ (w - 1) : Nat) then (2 ^ (w - 1), true)
  else if (2 ^ (w - 1) - 1 : Nat) < i then (2 ^ (w - 1) - 1, true)
  else (ofSigned w i, false)

/-- The increment that vxrm gives: 0 rnu, 1 rne, 2 rdn, 3 rod. -/
def vxrmUp (rm : Nat) (q m d : Nat) : Nat :=
  match rm with
  | 0 => if d ≤ 2 * m then 1 else 0
  | 1 => if d < 2 * m ∨ (2 * m = d ∧ q % 2 = 1) then 1 else 0
  | 2 => 0
  | _ => if m ≠ 0 ∧ q % 2 = 0 then 1 else 0

/-- vsmul: the product ÷ 2^(w−1), rounded under vxrm and saturated. -/
def vsmul (rm w a b : Nat) : Nat × Bool :=
  let p := toSigned w a * toSigned w b
  let d : Int := (2 ^ (w - 1) : Nat)
  let q := p / d
  let m := (p % d).toNat
  clipSigned w (q + (vxrmUp rm (ofSigned (2 * w) q) m (2 ^ (w - 1)) : Nat))

/-- An integer or fixed-point operation on the elements of vs2 and the source, and whether it saturates. -/
def vecInt (op : VecOp) (rm w x y : Nat) : Nat × Bool :=
  let a := toSigned w x
  let b := toSigned w y
  match op with
  | .add => ((x + y) % 2 ^ w, false)
  | .sub => (ofSigned w (a - b), false)
  | .mul => (x * y % 2 ^ w, false)
  | .and => (x &&& y, false)
  | .or => (x ||| y, false)
  | .xor => (x ^^^ y, false)
  | .minu => (min x y, false)
  | .maxu => (max x y, false)
  | .min => (if a < b then x else y, false)
  | .max => (if a < b then y else x, false)
  | .saddu => if 2 ^ w ≤ x + y then (2 ^ w - 1, true) else (x + y, false)
  | .sadd => clipSigned w (a + b)
  | .ssubu => if x < y then (0, true) else (x - y, false)
  | .ssub => clipSigned w (a - b)
  | _ => vsmul rm w x y

/-- The operation is a floating-point one. -/
def opIsFp : VecOp → Bool
  | .fadd | .fsub | .fmul | .fdiv | .fmacc | .fmin | .fmax | .fwmacc | .fredusum | .fredosum => true
  | _ => false
def opWidens (op : VecOp) : Bool := op == .fwmacc
def opReduces (op : VecOp) : Bool := op == .fredusum || op == .fredosum

/-- The format of an element width. -/
def formOf (w : Nat) : FpForm := if w = 16 then binary16 else if w = 32 then binary32 else binary64

/-- A floating-point operation on the elements of vs2, the source and vd. -/
def vecFp (op : VecOp) (rm w x y d : Nat) : Flagged :=
  let f := formOf w
  match op with
  | .fadd => f.add rm x y
  | .fsub => f.sub rm x y
  | .fmul => f.mul rm x y
  | .fdiv => f.div rm x y
  | .fmacc => f.fma f rm x y d
  | .fwmacc => f.fma (formOf (2 * w)) rm x y d
  | .fmin => f.pick false x y
  | _ => f.pick true x y

/-- A group of an EMUL in eighths starts at a legal register. -/
def groupOk (emul8 reg : Nat) : Bool := decide (emul8 ≤ 64) && (decide (emul8 < 8) || reg % (emul8 / 8) == 0)

/-- The instruction is illegal (07 R179): the units are off, vtype is illegal, the element width is not supported, a group starts at no
multiple of its size, or the mask would be overwritten. -/
def Hart.vecIllegal (h : Hart) (op : VecOp) (masked : Bool) (vd : Nat) (src : VecSrc) (vs2 : Nat) : Bool :=
  let w := sewOf h.vtype
  let m := lmul8 h.vtype
  let m' := if opWidens op then 2 * m else if opReduces op then 8 else m
  !h.vsOn || bit h.vtype 63
    || (opIsFp op && (!h.fsOn || decide (5 ≤ fld h.fcsr 5 3) || !(w == 16 || w == 32) || (opWidens op && w != 16)
         || src == .imm || (opReduces op && h.vstart != 0)))
    || (op == .smul && w == 64)
    || !groupOk m vs2 || !groupOk m' vd
    || (match src with | .vec r => !groupOk (if opReduces op then 8 else m) r.val | .imm => false | .scalar _ => opReduces op)
    || (masked && vd == 0 && !opReduces op)

/-- The source of element i. -/
def Hart.vecSource (h : Hart) (vlen : Nat) (op : VecOp) (src : VecSrc) (imm : Word) (i : Nat) : Nat :=
  let w := sewOf h.vtype
  match src with
  | .vec r => h.velem vlen r.val w i
  | .scalar r => if opIsFp op then unboxed (formOf w) (Tab.get 0 h.f r.val) else (h.reg r.val).toNat % 2 ^ w
  | .imm => imm.toNat % 2 ^ w

/-- Flags accrued, or saturation noted. -/
def Hart.accrue (h : Hart) (flags : Nat) : Hart := { h with fcsr := h.fcsr ||| BitVec.ofNat 64 flags, mstatus := dirtyFs h.mstatus }
def Hart.saturated (h : Hart) (sat : Bool) : Hart := if sat then { h with vcsr := setBit h.vcsr 0 true } else h

/-- Element i of an operation that is no reduction. -/
def Hart.vecElement (vlen : Nat) (op : VecOp) (masked : Bool) (vd : Nat) (src : VecSrc) (vs2 : Nat) (imm : Word) (h : Hart) (i : Nat) : Hart :=
  let w := sewOf h.vtype
  if i < h.vstart.toNat ∨ !h.active masked i then h
  else
    let x := h.velem vlen vs2 w i
    let y := h.vecSource vlen op src imm i
    if opIsFp op then
      let wd := if opWidens op then 2 * w else w
      let v := vecFp op (fld h.fcsr 5 3) w x y (h.velem vlen vd wd i)
      (h.setVelem vlen vd wd i v.code).accrue v.flags
    else
      let v := vecInt op (fld h.vcsr 1 2) w x y
      (h.setVelem vlen vd w i v.1).saturated v.2

/-- A sum of the active elements from the first element of the source on; `order` is the order that vfredusum takes. -/
def Hart.vecReduce (h : Hart) (vlen : Nat) (masked : Bool) (vd vs1 vs2 : Nat) (order : List Nat → List Nat) : Hart :=
  let w := sewOf h.vtype
  let f := formOf w
  let elems := order ((List.range h.vl.toNat).filter (h.active masked))
  let v := elems.foldl (fun (v : Flagged) i =>
    let t := f.add (fld h.fcsr 5 3) v.code (h.velem vlen vs2 w i)
    { t with flags := t.flags ||| v.flags }) { code := h.velem vlen vs1 w 0 }
  if h.vl = 0 then h else (h.setVelem vlen vd w 0 v.code).accrue v.flags

/-- A short-vector operation. -/
def State.vecOp (s : State) (h : Nat) (op : VecOp) (masked : Bool) (vd : Nat) (src : VecSrc) (vs2 : Nat) (imm : Word) : State :=
  let r := s.hart h
  let vlen := vlenOf h
  if r.vecIllegal op masked vd src vs2 then s.illegal h
  else
    let r := if opReduces op then
        (match src with
          | .vec v => r.vecReduce vlen masked vd v.val vs2
              (fun l => if op = VecOp.fredusum then sortBy (Config.order s.draws) l else l)
          | _ => r)
      else (List.range r.vl.toNat).foldl (Hart.vecElement vlen op masked vd src vs2 imm) r
    ((if op = VecOp.fredusum then s.drawn else s).setHart h { r with vstart := 0, mstatus := dirtyVs r.mstatus }).nextPc h

end Sys2Proof.Machine
end

