-- ==== Sys2Proof/Machine/HartIsa.lean ====
section
/-! DEFINITION. The standard instructions of the harts (07 R174–R182), as the row XKMLV_CSR_WRITE brings them (log entry 64): the
specifications of 07 Table 7-2 give their effects (PRESUMED, log entry 10). -/

namespace Sys2Proof.Machine

/-! ## Integer operations -/

/-- RV64I and M at a width: 64 bits, or 32 for the W forms. -/
def intOp {n : Nat} (op : IntOp) (x y : BitVec n) : BitVec n :=
  let shift := y.toNat % n
  match op with
  | .add => x + y
  | .sub => x - y
  | .sll => x <<< shift
  | .slt => if x.toInt < y.toInt then 1 else 0
  | .sltu => if x.toNat < y.toNat then 1 else 0
  | .xor => x ^^^ y
  | .srl => x >>> shift
  | .sra => x.sshiftRight shift
  | .or => x ||| y
  | .and => x &&& y
  | .mul => x * y
  | .mulh => BitVec.ofInt n (x.toInt * y.toInt / 2 ^ n)
  | .mulhsu => BitVec.ofInt n (x.toInt * y.toNat / 2 ^ n)
  | .mulhu => BitVec.ofNat n (x.toNat * y.toNat / 2 ^ n)
  | .div => if y = 0 then BitVec.allOnes n else x.sdiv y
  | .divu => if y = 0 then BitVec.allOnes n else x / y
  | .rem => if y = 0 then x else x.srem y
  | .remu => if y = 0 then x else x % y

/-- The result of an integer instruction; a W form takes the low halves and extends its sign. -/
def intResult (op : IntOp) (half : Bool) (x y : Word) : Word :=
  if half then (intOp op (x.setWidth 32) (y.setWidth 32)).signExtend 64 else intOp op x y

/-- The condition of a branch. -/
def branchTaken (op : BranchOp) (x y : Word) : Bool :=
  match op with
  | .eq => x == y
  | .ne => x != y
  | .lt => decide (x.toInt < y.toInt)
  | .ge => decide (y.toInt ≤ x.toInt)
  | .ltu => decide (x.toNat < y.toNat)
  | .geu => decide (y.toNat ≤ x.toNat)

/-! ## Memory (07 R177, R178) -/

/-- An address in the windows of registers, berths and bells. -/
def ioWindow (a : Nat) : Bool :=
  match placeOf a with
  | .control | .berth | .bell => true
  | _ => false

/-- What an access that is not aligned to its size does: a PD hart's access to HBM goes on byte by byte (none); a window gives a bus
error, and any other target an address-misaligned exception (07 Table 7-3). -/
def misaligned (h a : Nat) (write : Bool) : Option Nat :=
  if isPd h && decide (a < hbmEnd) then none
  else if ioWindow a then some (accessFault write)
  else some (if write then 6 else 4)

/-- A tray address of another node: the command TRAY_ACCESS carries such an access (12 R336). -/
def State.trayAway (s : State) (a : Nat) : Bool := s.remoteTray a

/-- Bytes of a misaligned load, one after the other. -/
def State.loadBytes (h : Nat) : Nat → Nat → State → Except Nat (List Byte × Bool × State)
  | 0, _, s => .ok ([], false, s)
  | n + 1, va, s =>
    match s.hartLoad h va 1 with
    | .error c => .error c
    | .ok (m, s) => match State.loadBytes h n (va + 1) s with
      | .error c => .error c
      | .ok (d, p, s) => .ok (m.data ++ d, m.poison || p, s)

/-- Bytes of a misaligned store. -/
def State.storeBytes (h : Nat) : List Byte → Nat → State → Except Nat State
  | [], _, s => .ok s
  | b :: bs, va, s =>
    match s.hartStore h va [b] false with
    | .error c => .error c
    | .ok s => State.storeBytes h bs (va + 1) s

/-- A load of n bytes: the value, its poison and the state after, or a cause. -/
def State.scalarLoad (s : State) (h va n : Nat) : Except Nat (Nat × Bool × State) :=
  match s.translate h va 1 false with
  | .error c => .error c
  | .ok a =>
    if s.trayAway a then .error mustWait
    else if a % n = 0 then (s.hartLoad h va n).map fun m => (leNat m.1.data, m.1.poison, m.2)
    else match misaligned h a false with
      | some c => .error c
      | none => (State.loadBytes h n va s).map fun m => (leNat m.1, m.2.1, m.2.2)

/-- A store of n bytes. -/
def State.scalarStore (s : State) (h va n v : Nat) (poison : Bool) : Except Nat State :=
  match s.translate h va 1 true with
  | .error c => .error c
  | .ok a =>
    if s.trayAway a then .error mustWait
    else if a % n = 0 then s.hartStore h va (leBytes n v) poison
    else match misaligned h a true with
      | some c => .error c
      | none => State.storeBytes h (leBytes n v) va s

/-- The target takes LR and SC (07 Table 7-3). -/
def lrAllowed (h a : Nat) : Bool :=
  if isPd h then decide (a < hbmEnd) else placeOf a == .well h

/-- The target takes an AMO (07 Table 7-3). -/
def amoAllowed (a : Nat) : Bool := isMem a

/-- The block of a reservation as the hart sees it. -/
def State.reservedBytes (s : State) (h k : Nat) : List Byte :=
  if isPd h then s.pdPeek (64 * k) 64 else (s.memRead (64 * k) 64).data

/-- LR, SC or an AMO at a translated address: the value for rd and the state after, or a cause (07 Table 7-3, 12 R338). SC stores where the
block still holds what LR found. -/
def State.atomicAt (s : State) (h : Nat) (op : AtomicOp) (n va a src : Nat) : Except Nat (Nat × State) :=
  let cause := fun (x : Nat) => if op = .lr then x - 2 else x
  let tray := a.testBit 47
  if tray && (op = .lr || op = .sc) then .error (cause 7)
  else if s.trayAway a then .error mustWait
  else if !(if op = .lr ∨ op = .sc then lrAllowed h a else amoAllowed a) then .error (cause 7)
  else if a % n ≠ 0 then .error (cause 6)
  else match op with
    | .lr => match s.hartLoad h va n with
      | .error c => .error c
      | .ok (m, t) =>
        .ok (leNat m.data, t.onHart h fun r => { r with reserved := some (a / 64, t.reservedBytes h (a / 64)) })
    | .sc =>
      let t := s.onHart h fun r => { r with reserved := none }
      if (s.hart h).reserved = some (a / 64, s.reservedBytes h (a / 64)) then
        (t.hartStore h va (leBytes n src) false).map fun u => (0, u)
      else .ok (1, t)
    | .amo k => match s.hartLoad h va n with
      | .error c => .error c
      | .ok (m, t) =>
        (t.hartStore h va (leBytes n (amoResult k.val n (leNat m.data) src 0)) m.poison).map fun u => (leNat m.data, u)

/-- A value of n bytes as an integer register gets it. -/
def extended (n : Nat) (signed : Bool) (v : Nat) : Word := BitVec.ofNat 64 (if signed then ofSigned 64 (toSigned (8 * n) v) else v)

/-- An access has ended: with a cause it traps, or waits; else the state after goes on. -/
def State.ended (before : State) (h va : Nat) : Except Nat State → State
  | .ok t => t.nextPc h
  | .error c => if c = mustWait then before else before.trapHart h c va

/-- A load or a store of a scalar register; floating-point registers need FS on, and the PD cores' D for eight bytes. -/
def State.loadStore (s : State) (h : Nat) (store signed fp : Bool) (size reg va : Nat) : State :=
  let n := 2 ^ size
  let r := s.hart h
  if fp && (!r.fsOn || decide (size = 0) || (decide (size = 3) && !isPd h)) then s.illegal h
  else s.ended h va <|
    if store then s.scalarStore h va n (if fp then (Tab.get 0 r.f reg).toNat else (r.reg reg).toNat) false
    else (s.scalarLoad h va n).map fun m => m.2.2.onHart h fun r =>
      if fp then { r with f := Tab.set 0 r.f reg (boxed n m.1), mstatus := dirtyFs r.mstatus } else r.setReg reg (extended n signed m.1)

/-- A FENCE of a PD hart waits until each earlier tray store of the hart has ended (12 R337). -/
def State.fenceHart (s : State) (h : Nat) : State :=
  let stores := s.tray.any fun t => t.kind == 1 && (match t.owner with
    | .requester w => w.endpoint.val == h && !w.host
    | _ => false)
  if isPd h && stores then s else s.nextPc h

/-! ## Returns from traps -/

/-- mret: the mode of MPP, MIE from MPIE; MPRV clears below M mode. -/
def Hart.mret (h : Hart) : Hart :=
  let w := h.mstatus
  let mpp := fld w 11 2
  let w := setFld (setBit (setBit w 3 (bit w 7)) 7 true) 11 2 0
  { h with mstatus := if mpp = 3 then w else setBit w 17 false, priv := mpp, pc := h.mepc }

/-- sret: the mode of SPP, SIE from SPIE. -/
def Hart.sret (h : Hart) : Hart :=
  let w := h.mstatus
  let spp := if bit w 8 then 1 else 0
  { h with mstatus := setBit (setBit (setBit (setBit w 1 (bit w 5)) 5 true) 8 false) 17 false, priv := spp, pc := h.sepc }

/-- A return from a trap, which is illegal in a lower mode, or without S mode. -/
def State.trapReturn (s : State) (h : Nat) (machine : Bool) : State :=
  let r := s.hart h
  if machine then (if r.priv = 3 then s.onHart h fun r => { r.mret with instret := r.instret + 1 } else s.illegal h)
  else if !isPd h || r.priv = 0 || (r.priv = 1 && bit r.mstatus 22) then s.illegal h
  else s.onHart h fun r => { r.sret with instret := r.instret + 1 }

/-! ## Scalar floating point (07 R181) -/

/-- The rounding mode in force: of the instruction, or of frm. -/
def Hart.roundMode (h : Hart) (rm : Nat) : Nat := if rm = 7 then fld h.fcsr 5 3 else rm

/-- A floating-point instruction is illegal: FS is off, it is of D on a pilot core (07 R181), or its rounding mode is reserved. -/
def State.fpIllegal (s : State) (h : Nat) (double : Bool) (rm : Nat) : Bool :=
  !(s.hart h).fsOn || (double && !isPd h) || decide (5 ≤ (s.hart h).roundMode rm)

/-- A floating-point instruction has its result in rd, with its flags: a floating-point register, or an integer one. -/
def State.fpResult (s : State) (h : Nat) (rd size : Nat) (v : Flagged) : State :=
  (s.onHart h fun r => { r.accrue v.flags with f := Tab.set 0 r.f rd (boxed size v.code) }).nextPc h
def State.fpToReg (s : State) (h : Nat) (rd size : Nat) (v : Flagged) : State :=
  (s.onHart h fun r => (r.accrue v.flags).setReg rd (extended size true v.code)).nextPc h

/-- A scalar operation on three codes. -/
def fpOpResult (op : FpOp) (f : FpForm) (rm a b c : Nat) : Flagged :=
  match op with
  | .add => f.add rm a b
  | .sub => f.sub rm a b
  | .mul => f.mul rm a b
  | .div => f.div rm a b
  | .sqrt => f.sqrt rm a
  | .madd => f.fma f rm a b c
  | .min => f.pick false a b
  | .max => f.pick true a b
  | .sgnj => f.withSign (fun _ y => y) a b
  | .sgnjn => f.withSign (fun _ y => !y) a b
  | .sgnjx => f.withSign (fun x y => x != y) a b
  | .eq => f.compare 0 a b
  | .lt => f.compare 1 a b
  | .le => f.compare 2 a b

/-- A scalar operation in single precision, or in double on PD cores. -/
def State.scalarFp (s : State) (h : Nat) (op : FpOp) (double : Bool) (rm rd rs1 rs2 rs3 : Nat) : State :=
  let r := s.hart h
  let f := if double then binary64 else binary32
  if s.fpIllegal h double rm then s.illegal h
  else
    let get := fun x => unboxed f (Tab.get 0 r.f x)
    let v := fpOpResult op f (r.roundMode rm) (get rs1) (get rs2) (get rs3)
    if op = .eq ∨ op = .lt ∨ op = .le then s.fpToReg h rd 8 v else s.fpResult h rd f.size v

/-- The format of a size. -/
def formOfSize : FpSize → FpForm
  | .half => binary16
  | .single => binary32
  | .double => binary64

/-- A conversion between two sizes; one of a size to itself does not exist. -/
def State.fpConvert (s : State) (h : Nat) (g f : FpSize) (rm rd rs1 : Nat) : State :=
  if g = f || s.fpIllegal h (g == .double || f == .double) rm then s.illegal h
  else s.fpResult h rd (formOfSize g).size ((formOfSize f).convert (formOfSize g) ((s.hart h).roundMode rm) (unboxed (formOfSize f) (Tab.get 0 (s.hart h).f rs1)))

/-- A conversion to an integer, and from one. -/
def State.fpToInt (s : State) (h : Nat) (double signed wide : Bool) (rm rd rs1 : Nat) : State :=
  let f := if double then binary64 else binary32
  if s.fpIllegal h double rm then s.illegal h
  else s.fpToReg h rd (if wide then 8 else 4)
    (f.toInt ((s.hart h).roundMode rm) (if wide then 64 else 32) signed (unboxed f (Tab.get 0 (s.hart h).f rs1)))
def State.fpOfInt (s : State) (h : Nat) (double signed wide : Bool) (rm rd rs1 : Nat) : State :=
  let f := if double then binary64 else binary32
  let w := if wide then 64 else 32
  let x := ((s.hart h).reg rs1).toNat % 2 ^ w
  if s.fpIllegal h double rm then s.illegal h
  else s.fpResult h rd f.size (f.ofInt ((s.hart h).roundMode rm) (if signed then toSigned w x else x))

/-- A move of the bits between a floating-point and an integer register. -/
def State.fpMove (s : State) (h : Nat) (toInt : Bool) (size : FpSize) (rd rs1 : Nat) : State :=
  let r := s.hart h
  if s.fpIllegal h (size == .double) 0 then s.illegal h
  else if toInt then (s.onHart h fun t => t.setReg rd (extended (formOfSize size).size true (Tab.get 0 r.f rs1).toNat)).nextPc h
  else s.fpResult h rd (formOfSize size).size { code := (r.reg rs1).toNat }

/-- The class of a value. -/
def State.fpClass (s : State) (h : Nat) (double : Bool) (rd rs1 : Nat) : State :=
  let f := if double then binary64 else binary32
  if s.fpIllegal h double 0 then s.illegal h
  else (s.onHart h fun t => t.setReg rd (BitVec.ofNat 64 (f.classOf (unboxed f (Tab.get 0 (s.hart h).f rs1))))).nextPc h

/-! ## Short-vector loads and stores (07 R182) -/

/-- The elements from i on, and whether one has trapped. An element that traps leaves its index in vstart, and no element from it on is
accessed. -/
def State.vmemLoop (h : Nat) (store masked : Bool) (w vd base : Nat) (stride : Int) : Nat → Nat → State → Except Nat (State × Bool)
  | 0, _, s => .ok (s, false)
  | n + 1, i, s =>
    let va := ofSigned 64 ((base : Int) + i * stride)
    let r := s.hart h
    if !r.active masked i then State.vmemLoop h store masked w vd base stride n (i + 1) s
    else
      let done := if store then s.scalarStore h va (w / 8) (r.velem (vlenOf h) vd w i) false
        else (s.scalarLoad h va (w / 8)).map fun m => m.2.2.onHart h fun r => r.setVelem (vlenOf h) vd w i m.1
      match done with
      | .ok t => State.vmemLoop h store masked w vd base stride n (i + 1) t
      | .error c =>
        if c = mustWait then .error c
        else .ok ((s.onHart h fun r => { r with vstart := BitVec.ofNat 64 i, mstatus := dirtyVs r.mstatus }).trapHart h c va, true)

/-- A unit-stride or strided load or store. -/
def State.vmem (s : State) (h : Nat) (store : Bool) (eew : Nat) (masked : Bool) (vd rs1 : Nat) (stride : Option (Fin 32)) : State :=
  let r := s.hart h
  let w := 8 * 2 ^ eew
  let emul8 := w * lmul8 r.vtype / sewOf r.vtype
  if !r.vsOn || bit r.vtype 63 || emul8 = 0 || !groupOk emul8 vd || (masked && !store && vd == 0) then s.illegal h
  else
    let step : Int := match stride with
      | some x => (r.reg x.val).toInt
      | none => (w / 8 : Nat)
    let start := r.vstart.toNat
    match State.vmemLoop h store masked w vd (r.reg rs1).toNat step (r.vl.toNat - start) start s with
    | .error _ => s
    | .ok (t, true) => t
    | .ok (t, false) => (t.onHart h fun r => { r with vstart := 0, mstatus := dirtyVs r.mstatus }).nextPc h

/-! ## The instructions -/

/-- A reserved operation code (07 R186). -/
def State.reservedLong (s : State) (h : Nat) : State := if s.hartRuns h then s.illegal h else s

/-- A word of the custom-1 opcode: an Xkmlv instruction, or a reserved code (07 R186). -/
def State.runLongWord (s : State) (h : Nat) (w : BitVec 32) (stop : Option (Nat × Nat)) : State :=
  match decodeLong w with
  | some (op, rd, rs1, rs2, rs3) =>
    if op ≤ 12 then s.runLong h { op := op, rd := rd, rs1 := rs1, rs2 := rs2, rs3 := rs3 } stop else s.illegal h
  | none => s.illegal h

/-- A hart executes an instruction of four bytes; `imm` is its immediate. -/
def State.hartFull (s : State) (h : Nat) (i : HartInstr) (imm : Word) : State :=
  if !s.hartRuns h then s
  else
    let r := s.hart h
    match i with
    | .csr op num rd rs1 => s.accessCsr h op num.toNat rd.val rs1 imm
    | .int op half rd rs1 rs2 =>
      let y := match rs2 with | some x => r.reg x.val | none => imm
      (s.onHart h fun t => t.setReg rd.val (intResult op half (r.reg rs1.val) y)).nextPc h
    | .auipc rd => (s.onHart h fun t => t.setReg rd.val (r.pc + imm)).nextPc h
    | .jump rd rs1 =>
      let target := match rs1 with | some x => setBit (r.reg x.val + imm) 0 false | none => r.pc + imm
      (s.onHart h fun t => t.setReg rd.val (r.pc + 4)).retire h target
    | .branch op rs1 rs2 => s.retire h (if branchTaken op (r.reg rs1.val) (r.reg rs2.val) then r.pc + imm else r.pc + 4)
    | .load size signed fp rd rs1 => s.loadStore h false signed fp size.val rd.val (r.reg rs1.val + imm).toNat
    | .store size fp rs2 rs1 => s.loadStore h true false fp size.val rs2.val (r.reg rs1.val + imm).toNat
    | .atomic op wide rd rs1 rs2 =>
      let va := (r.reg rs1.val).toNat
      let n := if wide then 8 else 4
      s.ended h va <| match s.translate h va n (op != .lr) with
        | .error c => .error c
        | .ok a => (s.atomicAt h op n va a (r.reg rs2.val).toNat).map fun m => m.2.onHart h fun t => t.setReg rd.val (extended n true m.1)
    | .fence => s.fenceHart h
    | .ecall => s.trapHart h (8 + r.priv) 0
    | .ebreak => s.trapHart h 3 r.pc.toNat
    | .mret => s.trapReturn h true
    | .sret => s.trapReturn h false
    | .fp op double rm rd rs1 rs2 rs3 => s.scalarFp h op double rm.val rd.val rs1.val rs2.val rs3.val
    | .convert g f rm rd rs1 => s.fpConvert h g f rm.val rd.val rs1.val
    | .toInt double signed wide rm rd rs1 => s.fpToInt h double signed wide rm.val rd.val rs1.val
    | .ofInt double signed wide rm rd rs1 => s.fpOfInt h double signed wide rm.val rd.val rs1.val
    | .moveFp toInt size rd rs1 => s.fpMove h toInt size rd.val rs1.val
    | .classify double rd rs1 => s.fpClass h double rd.val rs1.val
    | .vset rd rs1 vtype => s.setVl h rd.val rs1 vtype imm
    | .vec op masked vd src vs2 => s.vecOp h op masked vd.val src vs2.val imm
    | .vmem store eew masked vd rs1 stride => s.vmem h store eew.val masked vd.val rs1.val stride
    | .long w => s.runLongWord h w none
    | .compressed _ => s.illegal h
    | .unlisted => s.illegal h

/-- The instructions that have a compressed form. -/
def hasShortForm : HartInstr → Bool
  | .int op _ _ _ _ => op != .slt && op != .sltu && !(op == .mul || op == .mulh || op == .mulhsu || op == .mulhu)
      && !(op == .div || op == .divu || op == .rem || op == .remu)
  | .jump _ _ => true
  | .branch op _ _ => op == .eq || op == .ne
  | .load size signed fp _ _ => (size == 2 && signed && !fp) || size == 3
  | .store size fp _ _ => (size == 2 && !fp) || size == 3
  | .ebreak => true
  | _ => false

/-- A compressed form has retired as its full one: its bytes are two. -/
def State.shorten (s t : State) (h : Nat) (i : HartInstr) : State :=
  let next := (s.hart h).pc + 2
  if (t.hart h).instret = (s.hart h).instret then t
  else match i with
    | .jump rd _ => t.onHart h fun r => r.setReg rd.val next
    | .branch op rs1 rs2 =>
      if branchTaken op ((s.hart h).reg rs1.val) ((s.hart h).reg rs2.val) then t else t.onHart h fun r => { r with pc := next }
    | _ => t.onHart h fun r => { r with pc := next }

/-- A hart executes an instruction. -/
def State.hartInstr (s : State) (h : Nat) (i : HartInstr) (imm : Word) : State :=
  match i with
  | .compressed full => if hasShortForm full then s.shorten (s.hartFull h full imm) h full else s.hartFull h i imm
  | _ => s.hartFull h i imm

end Sys2Proof.Machine
end

