-- ==== Sys2Proof/Machine/Harts.lean ====
section
/-! DEFINITION. The hart commands: Xkmlv instructions, their CSRs and the cache-block operations (07 R183–R201). -/

namespace Sys2Proof.Machine

/-- KADD (07 Table 7-6, code 0). -/
def execKadd (hart : Fin 320) (rd rs1 rs2 rs3 : Fin 32) (s : State) : Host.Outcome State Fault Refusal :=
  .next (s.runLong hart.val { op := 0, rd := rd.val, rs1 := rs1.val, rs2 := rs2.val, rs3 := rs3.val } none)

/-- KSUB (07 Table 7-6, code 1). -/
def execKsub (hart : Fin 320) (rd rs1 rs2 rs3 : Fin 32) (s : State) : Host.Outcome State Fault Refusal :=
  .next (s.runLong hart.val { op := 1, rd := rd.val, rs1 := rs1.val, rs2 := rs2.val, rs3 := rs3.val } none)

/-- KMUL (07 Table 7-6, code 2). -/
def execKmul (hart : Fin 320) (rd rs1 rs2 rs3 : Fin 32) (s : State) : Host.Outcome State Fault Refusal :=
  .next (s.runLong hart.val { op := 2, rd := rd.val, rs1 := rs1.val, rs2 := rs2.val, rs3 := rs3.val } none)

/-- KFMA (07 Table 7-6, code 3). -/
def execKfma (hart : Fin 320) (rd rs1 rs2 rs3 : Fin 32) (s : State) : Host.Outcome State Fault Refusal :=
  .next (s.runLong hart.val { op := 3, rd := rd.val, rs1 := rs1.val, rs2 := rs2.val, rs3 := rs3.val } none)

/-- KMAX (07 Table 7-6, code 4). -/
def execKmax (hart : Fin 320) (rd rs1 rs2 rs3 : Fin 32) (s : State) : Host.Outcome State Fault Refusal :=
  .next (s.runLong hart.val { op := 4, rd := rd.val, rs1 := rs1.val, rs2 := rs2.val, rs3 := rs3.val } none)

/-- KMIN (07 Table 7-6, code 5). -/
def execKmin (hart : Fin 320) (rd rs1 rs2 rs3 : Fin 32) (s : State) : Host.Outcome State Fault Refusal :=
  .next (s.runLong hart.val { op := 5, rd := rd.val, rs1 := rs1.val, rs2 := rs2.val, rs3 := rs3.val } none)

/-- KDIV (07 Table 7-6, code 6). -/
def execKdiv (hart : Fin 320) (rd rs1 rs2 rs3 : Fin 32) (s : State) : Host.Outcome State Fault Refusal :=
  .next (s.runLong hart.val { op := 6, rd := rd.val, rs1 := rs1.val, rs2 := rs2.val, rs3 := rs3.val } none)

/-- KCVT (07 Table 7-6, code 7). -/
def execKcvt (hart : Fin 320) (rd rs1 rs2 rs3 : Fin 32) (s : State) : Host.Outcome State Fault Refusal :=
  .next (s.runLong hart.val { op := 7, rd := rd.val, rs1 := rs1.val, rs2 := rs2.val, rs3 := rs3.val } none)

/-- KGATH (07 Table 7-6, code 8). -/
def execKgath (hart : Fin 320) (rd rs1 rs2 rs3 : Fin 32) (s : State) : Host.Outcome State Fault Refusal :=
  .next (s.runLong hart.val { op := 8, rd := rd.val, rs1 := rs1.val, rs2 := rs2.val, rs3 := rs3.val } none)

/-- KSCAT (07 Table 7-6, code 9). -/
def execKscat (hart : Fin 320) (rd rs1 rs2 rs3 : Fin 32) (s : State) : Host.Outcome State Fault Refusal :=
  .next (s.runLong hart.val { op := 9, rd := rd.val, rs1 := rs1.val, rs2 := rs2.val, rs3 := rs3.val } none)

/-- KDOT (07 Table 7-6, code 10). -/
def execKdot (hart : Fin 320) (rd rs1 rs2 rs3 : Fin 32) (s : State) : Host.Outcome State Fault Refusal :=
  .next (s.runLong hart.val { op := 10, rd := rd.val, rs1 := rs1.val, rs2 := rs2.val, rs3 := rs3.val } none)

/-- KSUM (07 Table 7-6, code 11). -/
def execKsum (hart : Fin 320) (rd rs1 rs2 rs3 : Fin 32) (s : State) : Host.Outcome State Fault Refusal :=
  .next (s.runLong hart.val { op := 11, rd := rd.val, rs1 := rs1.val, rs2 := rs2.val, rs3 := rs3.val } none)

/-- KAMAX (07 Table 7-6, code 12). -/
def execKamax (hart : Fin 320) (rd rs1 rs2 rs3 : Fin 32) (s : State) : Host.Outcome State Fault Refusal :=
  .next (s.runLong hart.val { op := 12, rd := rd.val, rs1 := rs1.val, rs2 := rs2.val, rs3 := rs3.val } none)

/-- XKMLV_INTERRUPT_STOP (07 R186, R196): an instruction runs up to the boundary at or below element `stop`, where the hart takes
the interrupt. -/
def execXkmlvInterruptStop (hart : Fin 320) (op : Fin 32) (rd rs1 rs2 rs3 : Fin 32) (stop cause : Nat) (s : State) :
    Host.Outcome State Fault Refusal :=
  .next (if 13 ≤ op.val then s.reservedLong hart.val else s.runLong hart.val { op := op.val, rd := rd.val, rs1 := rs1.val, rs2 := rs2.val, rs3 := rs3.val } (some (stop, cause)))

/-- XKMLV_CSR_WRITE (07 R185, R201), with every other standard instruction of a hart, for which the table has no row (07 R174–R182, log
entry 64). -/
def execXkmlvCsrWrite (hart : Fin 320) (csr : HartInstr) (value : Word) (s : State) : Host.Outcome State Fault Refusal :=
  .next (s.hartInstr hart.val csr value)

/-- CBO_CLEAN (07 R183): CBCFE enables it below M mode. -/
def execCboClean (hart : Fin 64) (addr : Word) (s : State) : Host.Outcome State Fault Refusal :=
  .next (s.cbo (256 + hart.val) addr.toNat (fun w => bit w 6) false (onBlock State.cleanBlock))

/-- CBO_FLUSH (07 R183). -/
def execCboFlush (hart : Fin 64) (addr : Word) (s : State) : Host.Outcome State Fault Refusal :=
  .next (s.cbo (256 + hart.val) addr.toNat (fun w => bit w 6) false (onBlock State.flushBlock))

/-- CBO_INVAL (07 R183): CBIE enables it below M mode. -/
def execCboInval (hart : Fin 64) (addr : Word) (s : State) : Host.Outcome State Fault Refusal :=
  let flush := (s.hart (256 + hart.val)).cboFlushes
  .next (s.cbo (256 + hart.val) addr.toNat (fun w => fld w 4 2 != 0) false
    (onBlock fun s k => if flush then s.flushBlock k else s.dropBlock k))

/-- CBO_ZERO (07 R183): CBZE enables it below M mode. -/
def execCboZero (hart : Fin 64) (addr : Word) (s : State) : Host.Outcome State Fault Refusal :=
  .next (s.cbo (256 + hart.val) addr.toNat (fun w => bit w 7) true (fun s a => s.zeroBlock (256 + hart.val) a))

end Sys2Proof.Machine
end

