-- ==== Sys2Proof/Machine/Memory.lean ====
section
/-! DEFINITION. The commands of the HBM channels and their traffic generators (10 R252–R270). -/

namespace Sys2Proof.Machine

/-! ## Accesses -/

/-- HBM_READ (10 R252, R261, R263). -/
def execHbmRead (addr bytes : Nat) (way : HbmWay) (s : State) : Host.Outcome State Fault Refusal :=
  .next (s.hbmAccess { write := false, addr := addr, bytes := bytes, high := way.high, errors := way.errors })

/-- HBM_WRITE (10 R252, R261, R263). -/
def execHbmWrite (addr : Nat) (data : List Byte) (poison : Bool) (way : HbmWay) (s : State) :
    Host.Outcome State Fault Refusal :=
  .next (s.hbmAccess
    { write := true, addr := addr, bytes := data.length, data := data, poison := poison, high := way.high, errors := way.errors })

/-- A bank group of the channel is refreshed; in DOZE and DEEP the stacks refresh themselves (10 R258). -/
def refreshChannel (ch : Nat) (s : State) : State :=
  if 2 ≤ s.power.depth then s
  else s.setChannel ch { s.channel ch with refreshes := (s.channel ch).refreshes + 1 }

/-- REFRESH (10 R258). -/
def execRefresh (channel : Fin 192) (s : State) : Host.Outcome State Fault Refusal := .next (refreshChannel channel.val s)

/-- The scrubber of an ACTIVE channel reads one sector while SCRUB_H is not 0. -/
def patrol (ch : Nat) (errors : SectorErrors) (s : State) : State :=
  if s.chState ch ≠ 0 ∨ fld (s.mcCfg ch) 8 8 = 0 ∨ 2 ≤ s.power.depth then s else s.scrubSector ch errors

/-- PATROL_SCRUB (10 R262). -/
def execPatrolScrub (channel : Fin 192) (errors : SectorErrors) (s : State) : Host.Outcome State Fault Refusal :=
  .next (patrol channel.val errors s)

/-! ## Retraining (10 R265–R267) -/

/-- The accepted retraining of a channel whose start mark has come. -/
def State.retrainDue (s : State) (ch : Nat) : Option Marked :=
  s.harbour.retrains.find? fun m => m.value == ch && decide (m.mark ≤ s.now)

/-- An ACTIVE channel makes its buffered writes, closes its rows and enters HELD at its start mark; the promises that a forced request voids fall with the command. -/
def retrainStart (ch : Nat) (s : State) : State :=
  if s.chState ch = 0 ∧ (s.retrainDue ch).isSome then
    let s := s.quietChannel ch
    (s.setChannel ch { s.channel ch with heldFrom := s.now }).setChState ch 1
  else s

/-- CHANNEL_RETRAIN_START (10 R266). -/
def execChannelRetrainStart (channel : Fin 192) (s : State) : Host.Outcome State Fault Refusal :=
  .next (retrainStart channel.val s)

/-- The command whose retraining has ended gets its reply, with the final CH_STATE (14 Table 14-7). -/
def State.replyRetrain (s : State) (ch : Nat) (pass : Bool) : State :=
  match s.retrainDue ch with
  | none => s
  | some m =>
    let t := { s with harbour := { s.harbour with retrains := s.harbour.retrains.filter fun x => x.value != ch } }
    t.replyTo m.msg (if pass then rcOk else rcFailed) [BitVec.ofNat 8 (s.chState ch)]

/-- CH_RECOVER of a channel has ended. -/
def State.endRecover (s : State) (ch : Nat) : State :=
  match s.harbour.longOps.find? fun o => o.opcode == 0x0032 && byteFld o.msg 16 1 == ch with
  | none => s
  | some o =>
    if s.chState ch = 0 then s.endLong { o with done := o.total } 2 rcOk else s.endLong o 3 rcFailed

/-- The retune and the check end: of a HELD channel, ACTIVE or FENCED, after which the accesses that waited go on; of a FENCED
channel in its self-test, the poison refill or FENCED again. -/
def retrainEnd (ch : Nat) (pass : Bool) (s : State) : State :=
  if s.chState ch = 1 then
    let s := if pass then s.setChState ch 0 else s.fenceChannel ch
    let s := (s.lifeAdd (0x3000 + 32 * ch + 16) 4 1).serveHeld ch
    s.replyRetrain ch pass
  else if 2 ≤ s.chState ch ∧ (s.channel ch).recover ∧ s.domainState (256 + ch) = 2 ∧ ¬ s.suspended (256 + ch) then
    let s := s.lifeAdd (0x3000 + 32 * ch + 16) 4 1
    if pass then s.setRefill ch true else (s.fenceChannel ch).endRecover ch
  else s

/-- CHANNEL_RETRAIN_END (10 R266, R267). -/
def execChannelRetrainEnd (channel : Fin 192) (pass : Bool) (s : State) : Host.Outcome State Fault Refusal :=
  .next (retrainEnd channel.val pass s)

/-- The refill under way ends, and with it the self-test of the channel's domain (10 R267, 15 R415). -/
def refillDone (ch : Nat) (s : State) : State :=
  if s.bitAt (groupOf ch) (chOff ch 0x100) 2 ∧ s.domainState (256 + ch) = 2 ∧ ¬ s.suspended (256 + ch) then
    ((s.selftestPass (256 + ch)).setRefill ch false).endRecover ch
  else s

/-- CHANNEL_REFILL_DONE (10 R267). -/
def execChannelRefillDone (channel : Fin 192) (s : State) : Host.Outcome State Fault Refusal :=
  .next (refillDone channel.val s)

/-! ## Traffic generators (10 R268–R270) -/

/-- A requester's write of a whole TG_CTRL. -/
def writeTg (ch : Nat) (v : Word) (s : State) : State := (s.writeTgCtrl ch v).answers 0

/-- GO (10 R268). -/
def execGo (channel : Fin 192) (value : Word) (s : State) : Host.Outcome State Fault Refusal :=
  .next (writeTg channel.val (setBit value 0 true) s)

/-- ABORT (10 R270). -/
def execAbort (channel : Fin 192) (s : State) : Host.Outcome State Fault Refusal := .next ((s.abortTg channel.val).answers 0)

/-- TG_DONE (10 R269). -/
def execTgDone (channel : Fin 192) (faults : List TgFault) (order : Nat) (s : State) : Host.Outcome State Fault Refusal :=
  .next (s.endTg channel.val faults order)

/-! ## Counters that a read clears (10 Table 10-10) -/

/-- CH_CE_READ (10 R261). -/
def execChCeRead (channel : Fin 192) (s : State) : Host.Outcome State Fault Refusal :=
  .next (s.readClear (groupOf channel.val) (chOff channel.val 0x108) 0 32)

/-- CH_UE_READ (10 R261). -/
def execChUeRead (channel : Fin 192) (s : State) : Host.Outcome State Fault Refusal :=
  .next (s.readClear (groupOf channel.val) (chOff channel.val 0x110) 0 32)

end Sys2Proof.Machine
end

