-- ==== Sys2Proof/Machine/Mxe.lean ====
section
/-! DEFINITION. The Matrix Engine commands (05 R119–R142). -/

namespace Sys2Proof.Machine

/-- MXE_DESCRIPTOR (05 R119–R137): the engine runs its current descriptor, or refuses it. -/
def execMxeDescriptor (core : Fin 256) (engine : Fin 2) (s : State) : Host.Outcome State Fault Refusal :=
  .next (if s.coreRuns core.val then s.runMxe core.val engine.val else s)

/-- The oldest MXE descriptor completes (05 R138). -/
def State.completeMxe (s : State) (c e : Nat) : State :=
  match s.completing c e with
  | none => s
  | some x => (s.completeDesc c e).mxAdd x.desc

/-- MXE_COMPLETE (04 R100–R102, 05 R138). -/
def execMxeComplete (core : Fin 256) (engine : Fin 2) (s : State) : Host.Outcome State Fault Refusal :=
  .next (if s.coreRuns core.val then s.completeMxe core.val engine.val else s)

/-- MX_CONV_READ (05 R137). -/
def execMxConvRead (core : Fin 256) (engine : Fin 2) (s : State) : Host.Outcome State Fault Refusal :=
  .next (s.readClear (.mxe core.val engine.val) 0x18 0 64)

end Sys2Proof.Machine
end

