-- ==== Sys2Proof/Machine/PowerCtl.lean ====
section
/-! DEFINITION. The power controller, the brake, transitions and sleep as they happen (01 R27–R37, 18 R474–R486). -/

namespace Sys2Proof.Machine

/-! ## Duty (18 R477–R479) -/

/-- D, the duty in 64ths. -/
def State.duty (s : State) : Nat := s.fldAt .power 0x000 8 7

/-- Set D: at most 16 while the brake's cap holds (18 R481). -/
def State.setDuty (s : State) (d : Nat) : State := s.putFld .power 0x000 8 7 (if s.power.capped then min d 16 else d)

/-- A rail's power as its telemetry gives it, in mW: mV × 10 mA (18 RAIL_TEL_r). -/
def State.railPower (s : State) (r : Nat) : Nat := s.fldAt .power (0x080 + 8 * r) 0 16 * s.fldAt .power (0x080 + 8 * r) 16 20 / 100

/-- P of R477, in mW. -/
def State.packagePower (s : State) : Nat := sumNat ((List.range 11).map s.railPower) + 4_000

/-- The sustained figure of the mode in force, in mW. -/
def State.sustained (s : State) : Nat := modeLimit s.mode

/-- POWER_CONTROL_TICK (18 R477): the sample, the mean, D, and the step down. -/
def State.controlTick (s : State) : State :=
  let p := s.packagePower
  let samples := (p :: s.power.samples).take 100
  let n := samples.length
  let sum := sumNat samples
  let high := decide (98 * s.sustained * n < 100 * sum)
  let low := decide (100 * sum < 95 * s.sustained * n)
  let d := s.duty
  let d' := if s.power.cutUntil.isSome then d else if high then max (d - 1) 4 else if low then min (d + 1) 64 else d
  let run := if d' = 4 ∧ high then s.power.overRun + 1 else 0
  let t : State := { s with power := { s.power with samples := samples, overRun := if 10 ≤ run then 0 else run } }
  let t := ((t.putFld .power 0x010 0 32 p).putFld .power 0x018 0 32 (sum / n)).setDuty d'
  if 10 ≤ run then t.stepDown else t

/-- FAST_CUT (18 R479): the 1 µs estimate, in mW. -/
def State.fastCut (s : State) (estimate : Nat) : State :=
  let since := if s.sustained < estimate then some (s.power.overSince.getD s.clock) else none
  let long := match since with | some t => decide (t + 800_000 ≤ s.clock) | none => false
  let s : State := { s with power := { s.power with overSince := since } }
  if (min 2_500_000 (s.sustained + 900_000) < estimate ∨ long = true) ∧ s.power.cutUntil.isNone then
    let t : State := { s with power := { s.power with cutUntil := some (s.clock + 200_000) } }
    ((t.putFld .power 0x000 8 7 16).putBit .power 0x000 15 true).putBit .power 0x008 3 true
  else s

/-- FAST_CUT_HOLD_END (18 R479). -/
def State.fastCutEnd (s : State) : State :=
  match s.power.cutUntil with
  | some t =>
    if s.clock < t then s
    else ({ s with power := { s.power with cutUntil := none } }).putBit .power 0x000 15 false
  | none => s

/-- CLOCK_STRETCH (18 R480, 15 R422): ns of stretched time, and the depth of the excursion in hundredths of a percent. -/
def State.stretch (s : State) (die ns depth : Nat) : State :=
  if depth ≤ 400 then s
  else
    let s := (s.addWrap .power (0x040 + 8 * die) 0 64 ns).putBit .power 0x008 4 true
    if 100 ≤ ns then s.countDroop die depth else s

/-! ## Forced changes (18 R481–R483) -/

/-- A forced change to EFF while the node is awake or in IDLE; in DOZE the rails stay at 0.55 V until the wake (18 R485). -/
def State.forceEff (s : State) : State := if 2 ≤ s.power.depth then s else s.protectMode 2 s.now

/-- PWR_BRAKE_N has been low for 100 ns (18 R481); while POR_N is low only the pin falls. -/
def State.brake (s : State) : State :=
  let s := { s with power := { s.power with brakeN := false } }
  if !s.power.porN then s else
  let s := ((s.putBit .power 0x000 5 true).putBit .power 0x008 0 true).forceEff
  let s : State := { s with power := { s.power with capped := true } }
  s.setDuty s.duty

/-- PWR_BRAKE_N rises (18 R481). -/
def State.brakeOff (s : State) : State := ({ s with power := { s.power with brakeN := true } }).putBit .power 0x000 5 false

/-- VR_ALERT_N has been low for 1 µs; the input is ignored while POR_N is low (18 R482). -/
def State.alert (s : State) : State :=
  if !s.power.porN then s
  else
    let s := { s with power := { s.power with alertN := false } }
    ((s.putBit .power 0x000 6 true).putBit .power 0x008 1 true).forceEff

/-! ## Transitions (01 R32, 18 R474, R476, R481, R484) -/

/-- AVS_TELEMETRY_READ: RAIL_TEL_r of the rails read. -/
def State.readRails : Nat → State → List RailReading → State
  | _, s, [] => s
  | r, s, x :: xs =>
    State.readRails (r + 1) (s.putN .power (0x080 + 8 * r) (x.mv.toNat + x.current.toNat * 2 ^ 16 + x.temp.toNat * 2 ^ 36)) xs

/-- Every VDD_CD reads within 1 % of its setpoint. -/
def State.railsSettled (s : State) : Bool :=
  [0, 1, 2, 3].all fun n =>
    let set := Tab.get 0 s.power.setpoints n
    let mv := s.fldAt .power (0x080 + 8 * n) 0 16
    decide (100 * mv ≤ 101 * set) && decide (99 * set ≤ 100 * mv)

/-- READBACK_ROUND (18 R484): the transition completes, and the brake's cap on D ends. In DOZE the rails stand at 0.55 V, and a transition waits for
the wake (18 R485). -/
def State.readback (s : State) : State :=
  if !s.railsSettled || decide (2 ≤ s.power.depth) then s
  else
    let s := { s with power := { s.power with capped := false } }
    if !s.inTransition then s
    else
      let m := s.modeTarget
      let s := { s with power := { s.power with clock := modeClock m, ceiling := modeCeiling m, waiting := false } }
      ((s.putFld .power 0x000 0 2 m).putBit .power 0x000 2 false).putFld .power 0x000 3 2 0

/-- The accepted change whose mark comes first, once it has come. -/
def dueMark (l : List Marked) (now : Nat) : Option Marked := (leastBy (fun (m : Marked) => m.mark) l).filter fun m => decide (m.mark ≤ now)

/-- Take out the first occurrence of a change. -/
def dropMark (m : Marked) : List Marked → List Marked
  | [] => []
  | x :: xs => if x = m then xs else x :: dropMark m xs

/-- POWER_MODE_MARK (18 R484): an accepted change takes effect; in the safe state, or to a higher clock under the brake, a command's
is dropped with MODE_DROPPED. A change that a thermal source forces counts as protective. -/
def State.modeMark (s : State) : State :=
  if 2 ≤ s.power.depth then s
  else match dueMark s.harbour.modes s.now with
    | none => s
    | some m =>
      let s : State := { s with harbour := { s.harbour with modes := dropMark m s.harbour.modes } }
      if s.safe || s.brakeBlocks m.value then (if m.msg.isEmpty then s else s.putBit .power 0x008 5 true)
      else if m.msg.isEmpty then s.protectMode m.value m.mark
      else if m.forced then s.forceMode m.value m.mark
      else if s.modeTarget = m.value then s
      else s.startMode m.value

/-! ## Sleep and wake (01 Table 1-9, R37, 18 R485, R486) -/

/-- Every queue of every ONLINE core is idle. -/
def State.coresIdle (s : State) : Bool := (List.range 256).all fun c => s.coreState c != 0 || s.coreEmpty c

/-- SLEEP_ENTRY: the change whose mark has come. -/
def State.sleepMark (s : State) : State :=
  if !s.hmRuns then s
  else match dueMark s.harbour.sleeps s.now with
    | none => s
    | some m =>
      let t : State := { s with harbour := { s.harbour with sleeps := dropMark m s.harbour.sleeps } }
      if s.sleepRefused m.value then t.replyTo m.msg rcBusy
      else match m.value with
        | 0 => t.wakeNode.deliverAwake
        | 1 => if s.power.depth = 0 then { t with power := { t.power with depth := 1 } } else t
        | 2 =>
          if !s.coresIdle then (if m.mark + 10_000_000 ≤ s.now then t.replyTo m.msg rcFailed else s)
          else (t.replyTo m.msg rcOk).enterDoze
        | _ => (t.replyTo m.msg rcOk).enterDeep

/-- The wake events of each depth (01 Table 1-9). -/
def wakes (depth : Nat) (w : WakeSource) : Bool :=
  match depth, w with
  | 1, .bell | 1, .berthMessage | 1, .engineCompletion | 1, .tideMark => true
  | 2, .bell | 2, .berthMessage | 2, .tideMark => true
  | 3, .tideMark | 3, .comparator | 3, .management => true
  | _, _ => false

/-- WAKE. -/
def State.wake (s : State) (w : WakeSource) : State := if wakes s.power.depth w then s.wakeFrom.deliverAwake else s

/-- DEEP_WAKE (18 R486): 30 ms after SLP_DEEP_N fell, it rises, and start-up runs from stage 1. -/
def State.deepWake (s : State) : State :=
  if s.power.depth ≠ 3 ∨ ¬ s.power.wakeHeld ∨ s.clock < s.power.deepFrom + 30_000_000 then s
  else ({ s with power := { s.power with depth := 0, wakeHeld := false, slpDeepN := true } }).putFld .boot 0x000 0 4 1

end Sys2Proof.Machine
end

