-- ==== Sys2Proof/Machine/PowerCmds.lean ====
section
/-! DEFINITION. The commands of power, transitions and sleep (18). -/

namespace Sys2Proof.Machine

/-- SLEEP_ENTRY (18 R485, R486). -/
def execSleepEntry (s : State) : Host.Outcome State Fault Refusal := .next s.sleepMark

/-- WAKE (01 R31). -/
def execWake (source : WakeSource) (s : State) : Host.Outcome State Fault Refusal := .next (s.wake source)

/-- DEEP_WAKE (17 R449, 18 R486). -/
def execDeepWake (s : State) : Host.Outcome State Fault Refusal := .next s.deepWake

/-- POWER_CONTROL_TICK (18 R477). -/
def execPowerControlTick (s : State) : Host.Outcome State Fault Refusal := .next s.controlTick

/-- FAST_CUT (18 R479). -/
def execFastCut (estimate : Nat) (s : State) : Host.Outcome State Fault Refusal := .next (s.fastCut estimate)

/-- FAST_CUT_HOLD_END (18 R479). -/
def execFastCutHoldEnd (s : State) : Host.Outcome State Fault Refusal := .next s.fastCutEnd

/-- CLOCK_STRETCH (18 R480). -/
def execClockStretch (die : Fin 4) (ns depth : Nat) (s : State) : Host.Outcome State Fault Refusal :=
  .next (s.stretch die.val ns depth)

/-- PWR_BRAKE (18 R481). -/
def execPwrBrake (s : State) : Host.Outcome State Fault Refusal := .next s.brake

/-- PWR_BRAKE_RELEASE (18 R481). -/
def execPwrBrakeRelease (s : State) : Host.Outcome State Fault Refusal := .next s.brakeOff

/-- VR_ALERT (18 R482). -/
def execVrAlert (s : State) : Host.Outcome State Fault Refusal := .next s.alert

/-- POWER_MODE_MARK (18 R484). -/
def execPowerModeMark (s : State) : Host.Outcome State Fault Refusal := .next s.modeMark

/-- READBACK_ROUND (18 R484). -/
def execReadbackRound (s : State) : Host.Outcome State Fault Refusal := .next s.readback

/-- AVS_TELEMETRY_READ (18 R474). -/
def execAvsTelemetryRead (rails : List RailReading) (s : State) : Host.Outcome State Fault Refusal :=
  .next (State.readRails 0 s (rails.take 11))

end Sys2Proof.Machine
end

