-- ==== Sys2Proof/Machine/Quays.lean ====
section
/-! DEFINITION. The commands of the quays: queues, arriving packets and tray requests (12). -/

namespace Sys2Proof.Machine

/-! ## QCTL (12 R313) -/

/-- A write of QCTL that names a queue, at the queue's own quay. -/
def qctl (q cmd : Nat) (s : State) : State := (s.writeQctl (quayOf q) (q + cmd * 2 ^ 18)).answers 0

/-- ENABLE. -/
def execEnable (queue : Fin 262144) (s : State) : Host.Outcome State Fault Refusal := .next (qctl queue.val 1 s)

/-- DRAIN. -/
def execDrain (queue : Fin 262144) (s : State) : Host.Outcome State Fault Refusal := .next (qctl queue.val 2 s)

/-- A DRAINING queue's started operations have their records: it is disabled, once its context can be written (10 R263). -/
def drainQueueDone (q : Nat) (s : State) : State :=
  if (s.quayQueue q).state = 3 ∧ (s.quayQueue q).ops.isEmpty ∧ !s.hbmWaits (s.ctxAddr q) 128 then s.disableQueue q else s

/-- QUEUE_DRAIN_DONE. -/
def execQueueDrainDone (queue : Fin 262144) (s : State) : Host.Outcome State Fault Refusal := .next (drainQueueDone queue.val s)

/-- RESET. -/
def execReset (queue : Fin 262144) (s : State) : Host.Outcome State Fault Refusal := .next (qctl queue.val 3 s)

/-- QCTL_RESUME. -/
def execQctlResume (queue : Fin 262144) (s : State) : Host.Outcome State Fault Refusal := .next (qctl queue.val 4 s)

/-! ## Bells and the staging window (12 R314, R315) -/

/-- QUEUE_BELL_SQ_TAIL. -/
def execQueueBellSqTail (queue : Fin 262144) (index : BitVec 32) (s : State) : Host.Outcome State Fault Refusal :=
  .next ((s.queueBell queue.val 0 index.toNat).answers 0)

/-- QUEUE_BELL_CQ_HEAD. -/
def execQueueBellCqHead (queue : Fin 262144) (index : BitVec 32) (s : State) : Host.Outcome State Fault Refusal :=
  .next ((s.queueBell queue.val 1 index.toNat).answers 0)

/-- QUEUE_BELL_RQ_HEAD. -/
def execQueueBellRqHead (queue : Fin 262144) (index : BitVec 32) (s : State) : Host.Outcome State Fault Refusal :=
  .next ((s.queueBell queue.val 2 index.toNat).answers 0)

/-- STAGING_WINDOW_WRITE: not taken while the slot's channel takes no access (10 R263). -/
def execStagingWindowWrite (queue : Fin 262144) (offset : Nat) (data : List Byte) (poison : Bool) (s : State) :
    Host.Outcome State Fault Refusal :=
  .next (if s.stagingWaits queue.val then s.answers 5 else (s.writeStaging queue.val offset data poison).answers 0)

/-! ## Operations (12 R316–R321, R329) -/

/-- PUT. -/
def execPut (queue : Fin 262144) (s : State) : Host.Outcome State Fault Refusal := .next (s.startKind queue.val 1)

/-- GET. -/
def execGet (queue : Fin 262144) (s : State) : Host.Outcome State Fault Refusal := .next (s.startKind queue.val 2)

/-- SEND. -/
def execSend (queue : Fin 262144) (s : State) : Host.Outcome State Fault Refusal := .next (s.startKind queue.val 3)

/-- ATOMIC. -/
def execAtomic (queue : Fin 262144) (s : State) : Host.Outcome State Fault Refusal := .next (s.startKind queue.val 4)

/-- CTR_ADD. -/
def execCtrAdd (queue : Fin 262144) (s : State) : Host.Outcome State Fault Refusal := .next (s.startKind queue.val 5)

/-- NOP_WORK_REQUEST. -/
def execNopWorkRequest (queue : Fin 262144) (s : State) : Host.Outcome State Fault Refusal := .next (s.startKind queue.val 6)

/-- OPERATION_COMPLETE (12 R319, R320, R333); it waits for the channel of the record's place (10 R263). -/
def execOperationComplete (queue : Fin 262144) (s : State) : Host.Outcome State Fault Refusal :=
  .next (if s.hbmWaits (s.quayQueue queue.val).recordAt 32 then s else s.recordOp queue.val)

/-! ## Arriving packets (12 R321–R325) -/

/-- PUT_RECEIVE. -/
def execPutReceive (quay : Fin 2) (s : State) : Host.Outcome State Fault Refusal := .next (s.takeRequest quay.val 1)

/-- GET_REQ_RECEIVE. -/
def execGetReqReceive (quay : Fin 2) (s : State) : Host.Outcome State Fault Refusal := .next (s.takeRequest quay.val 2)

/-- SEND_RECEIVE. -/
def execSendReceive (quay : Fin 2) (s : State) : Host.Outcome State Fault Refusal := .next (s.takeRequest quay.val 4)

/-- ATOMIC_RECEIVE. -/
def execAtomicReceive (quay : Fin 2) (s : State) : Host.Outcome State Fault Refusal := .next (s.takeRequest quay.val 5)

/-- CTR_ADD_RECEIVE (13 R346). -/
def execCtrAddReceive (quay : Fin 2) (s : State) : Host.Outcome State Fault Refusal := .next (s.takeRequest quay.val 10)

/-- Take a packet of a kind and handle it. -/
def takePacket (quay kind : Nat) (f : State → Packet → State) (s : State) : State :=
  match s.takeArrived quay [kind] with
  | some (p, s) => f s p
  | none => s

/-- GET_RESP_RECEIVE. -/
def execGetRespReceive (quay : Fin 2) (s : State) : Host.Outcome State Fault Refusal :=
  .next (takePacket quay.val 3 State.recvGetResp s)

/-- ATOMIC_RESP_RECEIVE. -/
def execAtomicRespReceive (quay : Fin 2) (s : State) : Host.Outcome State Fault Refusal :=
  .next (takePacket quay.val 6 State.recvAtomicResp s)

/-- ACK_RECEIVE. -/
def execAckReceive (quay : Fin 2) (s : State) : Host.Outcome State Fault Refusal := .next (takePacket quay.val 7 State.recvAck s)

/-- NAK_RECEIVE. -/
def execNakReceive (quay : Fin 2) (s : State) : Host.Outcome State Fault Refusal :=
  .next (takePacket quay.val 8 (fun s p => s.retransmit (p.dq % 2 ^ 18)) s)

/-- GRANT_RECEIVE. -/
def execGrantReceive (quay : Fin 2) (s : State) : Host.Outcome State Fault Refusal := .next (takePacket quay.val 9 State.recvGrant s)

/-- An ERROR that answers a queue's request. -/
def takeError (quay : Nat) (s : State) : State :=
  match s.takeArrived quay [15] with
  | some (p, t) => if p.data < 11 then t.recvError p else s
  | none => s

/-- ERROR_RECEIVE (12 R320, Table 12-8). -/
def execErrorReceive (quay : Fin 2) (s : State) : Host.Outcome State Fault Refusal := .next (takeError quay.val s)

/-! ## Timers (12 R324, R325) -/

/-- RTO_US has passed without progress. -/
def retransmitTimeout (q : Nat) (s : State) : State :=
  let r := s.quayQueue q
  if r.state ≠ 0 ∧ !s.safe ∧ r.progress + r.fld 6 2 * 1000 ≤ s.clock then s.retransmit q else s

/-- RETRANSMIT_TIMEOUT. -/
def execRetransmitTimeout (queue : Fin 262144) (s : State) : Host.Outcome State Fault Refusal :=
  .next (retransmitTimeout queue.val s)

/-- A gap has persisted for 5 µs: a NAK with the cumulative PSN. -/
def gapNak (q : Nat) (s : State) : State :=
  let r := s.quayQueue q
  match r.gapFrom with
  | some t =>
    if t + 5000 ≤ s.clock ∧ r.state ≠ 0 ∧ !s.safe then (s.setQuayQueue q { r with gapFrom := some s.clock }).sendControl q 8 r.rxPsn 0 0 else s
  | none => s

/-- GAP_NAK. -/
def execGapNak (queue : Fin 262144) (s : State) : Host.Outcome State Fault Refusal := .next (gapNak queue.val s)

/-- Packets wait for an acknowledgement: 64 of them, or one for 5 µs. -/
def ackTimer (q : Nat) (s : State) : State :=
  let r := s.quayQueue q
  match r.ackFrom with
  | some t => if (64 ≤ r.unacked ∨ t + 5000 ≤ s.clock) ∧ r.state ≠ 0 ∧ !s.safe then s.sendAck q else s
  | none => s

/-- ACK_TIMER. -/
def execAckTimer (queue : Fin 262144) (s : State) : Host.Outcome State Fault Refusal := .next (ackTimer queue.val s)

/-- Bytes freed and not granted. -/
def QuayQueue.ungranted (r : QuayQueue) : Nat := diff64 (r.rxFreed + r.winBytes) r.rxGranted

/-- A GRANT is due: an eighth of the window, 2 µs after the first byte, or 100 µs after the last GRANT. -/
def grantTimer (q : Nat) (s : State) : State :=
  let r := s.quayQueue q
  let aged : Bool := match r.freeFrom with | some t => decide (t + 2000 ≤ s.clock) | none => false
  if r.state ≠ 0 ∧ !s.safe ∧ (r.winBytes / 8 ≤ r.ungranted ∨ aged ∨ r.granted + 100_000 ≤ s.clock) then s.sendGrant q else s

/-- GRANT_TIMER. -/
def execGrantTimer (queue : Fin 262144) (s : State) : Host.Outcome State Fault Refusal := .next (grantTimer queue.val s)

/-! ## The calendar and ranks (12 R331, R335) -/

/-- A calendar period starts: a commit whose period start has come takes effect, and the quay's ports are booked again; the
books of slots that have passed are dropped. -/
def periodStart (quay : Nat) (s : State) : State :=
  let s := { s with booked := Tab.dropKeys s.booked fun k => decide (k / 16 * 25 + 25 ≤ s.now) }
  if s.commitPending (.calendar quay) && s.atBoundary (.calendar quay) then
    (s.putInForce (.calendar quay)).rebook 6 fun p => p / 8 == quay
  else s

/-- CALENDAR_PERIOD_START. -/
def execCalendarPeriodStart (quay : Fin 2) (s : State) : Host.Outcome State Fault Refusal := .next (periodStart quay.val s)

/-- RANK_FLUSH. -/
def execRankFlush (quay : Fin 2) (s : State) : Host.Outcome State Fault Refusal := .next ((s.flushRanks quay.val).answers 0)

/-! ## Tray requests (12 R336–R340) -/

/-- TRAY_REQUEST. -/
def execTrayRequest (sender : Sender) (addr : Nat) (op : TrayOp) (s : State) : Host.Outcome State Fault Refusal :=
  .next (s.trayAccess sender addr op)

/-- TRAY_LD. -/
def execTrayLd (quay : Fin 2) (s : State) : Host.Outcome State Fault Refusal :=
  .next (takePacket quay.val 11 (fun s p => s.recvTrayLd quay.val p) s)

/-- TRAY_ST. -/
def execTraySt (quay : Fin 2) (s : State) : Host.Outcome State Fault Refusal :=
  .next (takePacket quay.val 12 (fun s p => s.recvTraySt quay.val p) s)

/-- TRAY_AMO. -/
def execTrayAmo (quay : Fin 2) (s : State) : Host.Outcome State Fault Refusal :=
  .next (takePacket quay.val 13 (fun s p => s.recvTrayAmo quay.val p) s)

/-- TRAY_RESP. -/
def execTrayResp (quay : Fin 2) (s : State) : Host.Outcome State Fault Refusal :=
  .next (takePacket quay.val 14 State.recvTrayResp s)

/-- An ERROR that answers a tray request. -/
def takeTrayErr (quay : Nat) (s : State) : State :=
  match s.takeArrived quay [15] with
  | some (p, t) => if 11 ≤ p.data then t.recvTrayErr quay p else s
  | none => s

/-- TRAY_ERR. -/
def execTrayErr (quay : Fin 2) (s : State) : Host.Outcome State Fault Refusal := .next (takeTrayErr quay.val s)

/-- TRAY_DEAD. -/
def execTrayDead (quay : Fin 2) (request : Nat) (s : State) : Host.Outcome State Fault Refusal :=
  .next (s.trayTimeout quay.val request)

/-- HOST_REQUEST (14 R387). -/
def execHostRequest (s : State) : Host.Outcome State Fault Refusal := .next s.hostRequest

end Sys2Proof.Machine
end

