-- ==== Sys2Proof/Machine/Registers.lean ====
section
/-! DEFINITION. The register commands (00 R12–R17). -/

namespace Sys2Proof.Machine

/-- A register write by a requester (00 R12). -/
def writeRegister (w : Sender) (addr : Nat) (wide : Bool) (v : Word) (s : State) : State :=
  if inControl addr && regAligned addr (if wide then 8 else 4) then (s.writeReg w addr wide v).answers 0
  else s.busError w true addr

/-- REGISTER_WRITE (00 R12, R13, R15–R17). -/
def execRegisterWrite (sender : Sender) (addr : Nat) (wide : Bool) (value : Word) (s : State) :
    Host.Outcome State Fault Refusal :=
  .next (writeRegister sender addr wide value s)

/-- The commit of the block that an address lies in. -/
def commitAt (addr : Nat) (s : State) : State :=
  match blockAt addr with
  | some (b, _) => s.commitBlock b
  | none => s

/-- CFG_COMMIT (00 R14). The operand is an address of the block. -/
def execCfgCommit (_sender : Sender) (block : Nat) (s : State) : Host.Outcome State Fault Refusal :=
  .next ((commitAt block s).answers 0)

/-- The boundary of the block that an address lies in. -/
def boundaryAt (addr : Nat) (s : State) : State :=
  match blockAt addr with
  | some (b, _) => s.boundary b
  | none => s

/-- COMMIT_BOUNDARY (00 R14). -/
def execCommitBoundary (block : Nat) (s : State) : Host.Outcome State Fault Refusal := .next (boundaryAt block s)

/-- The node does not accept an access: a register access of the wrong width or alignment, an address that reaches nothing, or an
unpopulated part of the berth and bell windows (00 R12, 10 R246). -/
def refusesAccess (addr bytes : Nat) : Bool :=
  match placeOf addr with
  | .control => !regAligned addr bytes
  | .none => true
  | .berth => !inBerths addr
  | .bell => match bellAt addr with
    | .none => true
    | _ => false
  | _ => false

/-- BUS_ERROR_ACCESS (00 R12, 10 R246). -/
def busErrorAccess (w : Sender) (write : Bool) (addr bytes : Nat) (s : State) : State :=
  if refusesAccess addr bytes then s.busError w write addr else s

def execBusErrorAccess (sender : Sender) (write : Bool) (addr bytes : Nat) (s : State) : Host.Outcome State Fault Refusal :=
  .next (busErrorAccess sender write addr bytes s)

end Sys2Proof.Machine
end

