-- ==== Sys2Proof/Machine/Solvers.lean ====
section
/-! DEFINITION. The solver-engine and dispatcher commands (08 R202–R238). -/

namespace Sys2Proof.Machine

/-- A batch starts on a core (08 R206, R209, R213): it is refused, or the lanes are fixed and ADMIT_GATE decides who admits. -/
def State.beginBatch (s : State) (c : Nat) (x : Running) : State :=
  let d := x.desc
  let status := s.svRefusal c x
  if status ≠ 1 && s.batchWaits d 0 0 then s
  else if status ≠ 0 then s.refuseBatch c status x
  else
    let (lanes, overlap) := svLanes (svMethod d) (svN d) (svNnz d) (s.svBytes c) (svOverlap d) (svLanesMax d)
    let s := if x.alone then s else s.setCtl d 24 4 1
    let gate := s.ctl d 28 4
    let s := (s.setCtl d 28 4 1).setSvRun c { lanes := lanes, overlap := overlap }
    if gate = 0 then s.admitBatch c d lanes overlap
    else s.setSvRun c { s.svRun c with waiting := !s.stFlag d 0 }

/-- SV_BATCH_START (08 R206–R213, R227): a core that waits for ADMITTED looks at the status word again. -/
def startBatch (c : Nat) (s : State) : State :=
  match s.svDesc c with
  | none => s
  | some x =>
    let r := s.svRun c
    if !s.coreRuns c then s
    else if r.lanes = 0 then s.beginBatch c x
    else if r.waiting && s.stFlag x.desc 0 then s.setSvRun c { r with waiting := false }
    else s

def execSvBatchStart (core : Fin 256) (s : State) : Host.Outcome State Fault Refusal := .next (startBatch core.val s)

/-- SEGMENT_CLAIM (08 R206, R213, R230–R233): L problems are claimed and loaded, with overlap also while a segment is worked on; a claim
at or above ADMIT_LIMIT, or a core that is leaving, ends the core's part once it holds no segment. -/
def claimSegment (c : Nat) (s : State) : State :=
  let before := s
  match s.svDesc c with
  | none => s
  | some x =>
    let d := x.desc
    let r := s.svRun c
    if !s.coreRuns c || r.lanes == 0 then s
    else if s.batchWaits d 0 0 then s
    else if r.holding && (!r.overlap || r.ahead.isSome || r.noMore || s.coreState c != 0) then s
    else
      let s := s.pollMove d
      if s.coreState c ≠ 0 ∨ r.noMore then s.endPart c d r.poison r.addDue
      else if r.waiting && !s.stFlag d 0 then s
      else
        let old := s.ctl d 0 8
        let limit := s.admitLimit d
        if s.batchWaits d old (min (old + r.lanes) limit) then before
        else
        let s := (s.setCtl d 0 8 (old + r.lanes)).setSvRun c { r with waiting := false }
        if old < limit then s.loadSegment c d old (min (old + r.lanes) limit)
        else if r.holding then s.setSvRun c { s.svRun c with noMore := true }
        else s.endPart c d r.poison r.addDue

def execSegmentClaim (core : Fin 256) (s : State) : Host.Outcome State Fault Refusal := .next (claimSegment core.val s)

/-- STOP_MARK (08 R229): problems of the segment without a standing promise are cut where they are, by the deadline that stands in the batch's control line. -/
def stopSegment (c : Nat) (s : State) : State :=
  match s.svDesc c with
  | none => s
  | some x =>
    let d := x.desc
    let r := s.svRun c
    match s.stopMarkAt d r.lanes with
    | none => s
    | some m =>
      if s.coreRuns c && r.holding && !r.stopped && decide (m ≤ s.now) then
        let it := svIterative (svMethod d)
        let cut := s.cutSegment r it (if it then 5 else 6) true fun i => !s.promised d i
        (s.setSvRun c { cut with stopped := true, ahead := cut.ahead.map fun a => { a with stopped := true } }).drawnN 128
      else s

def execStopMark (core : Fin 256) (s : State) : Host.Outcome State Fault Refusal := .next (stopSegment core.val s)

/-- SEGMENT_COMPLETE (08 R222–R229): the records of the segment are written and the status word is updated; problems that its stop mark has
met have ended there. -/
def completeSegment (c : Nat) (s : State) : State :=
  match s.svDesc c with
  | none => s
  | some x =>
    let r := s.svRun c
    if s.coreRuns c && r.holding && !s.batchWaits x.desc r.first (r.first + r.segment.length) then
      (stopSegment c s).writeSegment c x.desc
    else s

def execSegmentComplete (core : Fin 256) (s : State) : Host.Outcome State Fault Refusal := .next (completeSegment core.val s)

/-- MOVE_REQ_POLL (08 R230). -/
def pollBatch (c : Nat) (s : State) : State :=
  match s.svDesc c with
  | none => s
  | some x => if s.coreRuns c && (s.svRun c).lanes != 0 && !s.batchWaits x.desc 0 0 then s.pollMove x.desc else s

def execMoveReqPoll (core : Fin 256) (s : State) : Host.Outcome State Fault Refusal := .next (pollBatch core.val s)

/-- SV_QUERY_WRITE (08 R206, SV_QUERY). -/
def execSvQueryWrite (core : Fin 256) (wide high : Bool) (value : Word) (s : State) : Host.Outcome State Fault Refusal :=
  .next ((s.writeQuery core.val (mergeHalf (s.reg (.sv core.val) 0x10) wide high value).toNat (wide || !high)).answers 0)

/-- RING_TAIL_WRITE (08 R212, R238). -/
def execRingTailWrite (die : Fin 4) (ring : Fin 8) (value : Word) (s : State) : Host.Outcome State Fault Refusal :=
  .next ((s.writeRingTail die.val ring.val value.toNat).answers 0)

/-- DISPATCHER_ENTER (08 R212). -/
def execDispatcherEnter (die : Fin 4) (ring : Fin 8) (s : State) : Host.Outcome State Fault Refusal :=
  .next (s.dispatchRing die.val ring.val)

/-- DISPATCHER_CLOSE (08 R233). -/
def execDispatcherClose (die : Fin 4) (s : State) : Host.Outcome State Fault Refusal := .next (s.dispatchClose die.val)

/-- BATCH_REFUSED (08 R233). -/
def execBatchRefused (die : Fin 4) (ring : Fin 8) (s : State) : Host.Outcome State Fault Refusal :=
  .next (s.retireRefused die.val ring.val)

end Sys2Proof.Machine
end

