-- ==== Sys2Proof/Machine/Tides.lean ====
section
/-! DEFINITION. The tide commands (02 R43–R66, 11 R281–R283, 16 R425, 17 R466, 18 R492). -/

namespace Sys2Proof.Machine

/-! ## Ordered sets -/

/-- The node takes part in the tide on a port that sends frames (11 Table 11-6). -/
def State.tidePort (s : State) (p : Nat) : Bool := s.framing p

/-- The grandmaster's NGI and the hop count that the node sends: its own at a grandmaster (02 Table 2-2). -/
def State.gmNgi (s : State) : Nat := s.fldAt .tide 0x008 32 18
def State.hops (s : State) : Nat := s.fldAt .tide 0x008 8 4

/-- The 32 bytes of a TIDE or FENCE control slot (11 Tables 11-4, 11-5). -/
def State.tideBytes (s : State) (p : Nat) : List Byte :=
  let r := s.port p
  let fence := s.portState p == 4
  leBytes 1 (if fence then 4 else 3) ++ leBytes 1 ((if fence then 0 else s.lockState) + s.hops * 8) ++ leBytes 2 r.txSeq
    ++ leBytes 8 s.now ++ leBytes 4 s.gmNgi ++ leBytes 2 r.rxSeq ++ leBytes 4 ((s.clock * 65536 - r.rxStamp) / 256)
    ++ leBytes 2 0 ++ leBytes 4 (if fence then s.selfNgi else 0) ++ leBytes 4 0

/-- TIDE_ORDERED_SET_SEND (02 R44, 11 R281, R283). -/
def sendTide (p : Nat) (s : State) : State :=
  let r := s.port p
  if !s.tidePort p || s.power.depth == 3 || decide (s.clock < r.nextSlot) then s
  else
    let set := s.tideBytes p
    let s := s.setPort p { r with
      control := set
      txSeq := (r.txSeq + 1) % 65536
      stamps := (r.stamps ++ [(r.txSeq, s.clock * 65536)]).drop (r.stamps.length + 1 - 65536)
      nextSlot := s.clock + 1000 }
    (s.idleFill p).putSlot p set false false

def execTideOrderedSetSend (port : Fin 16) (s : State) : Host.Outcome State Fault Refusal := .next (sendTide port.val s)

/-- PORT_ASYM in units of 2^-16 ns. -/
def State.asym (s : State) (p : Nat) : Int := toSigned 16 (s.regN .tide (0x100 + 8 * p)) * 65536 / 1000

/-- The link delay of a port from an echo (11 R282), and RTT; `t4` is the local time of the arrival. -/
def State.measureDelay (s : State) (p t4 : Nat) (set : TideSet) : State :=
  let r := s.port p
  match r.stamps.find? fun e => e.1 == set.echoSeq.toNat with
  | none => s
  | some e =>
    let rtt := t4 - e.2 - set.dwell.toNat * 256
    (s.putN (.port p) 0x040 (rtt / 65536 % 2 ^ 32)).setPort p { r with delay := (rtt : Int) / 2 + s.asym p }

/-- The offset of a parent's tide from the node's at the arrival of a set, in units of 2^-16 ns (02 R45). -/
def State.offsetOf (s : State) (p : Nat) (set : TideSet) : Int :=
  ((set.txTide.toNat * 65536 + set.txSub.toNat : Nat) : Int) + (s.port p).delay - ((s.now * 65536 + set.rxSub.toNat : Nat) : Int)

/-- HOLDOVER is entered (02 R52). -/
def State.enterHold (s : State) : State := (s.setLock 3).putBit .tide 0x018 1 true

/-- The offset that the node measures from its source acts on its tide (02 R42, R46, R54, R55): a step in ACQUIRE, and what is
left to slew in the other states. A LOCKED follower that measures more than 2 ns is not LOCKED any more: it is as though its
parent became valid again in HOLDOVER (log 54). -/
def State.followOffset (s : State) (offset : Int) : State :=
  if s.lockState = 1 then s.stepTide offset
  else if s.lockState = 2 then
    (if s.role = 0 ∧ 2 * 65536 < offsetAbs offset then s.enterHold.returnParent offset else s.measured offset)
  else if (s.lockState = 3 ∨ s.lockState = 4) ∧ s.tide.slew.isSome then (s.measured offset).checkAdrift
  else s

/-- The NGI that a port's neighbour has advertised (11 NEIGHBOUR). -/
def State.neighbour (s : State) (p : Nat) : Option Nat :=
  if s.bitAt (.port p) 0x038 63 then some (s.fldAt (.port p) 0x038 0 18) else none

/-- The SKEW_LIMIT in force: 0 means 4 ns (02 TIDE_CTRL). -/
def State.skewLimit (s : State) : Nat := let v := s.fldAt .tide 0x010 20 4; if v = 0 then 4 else v

/-- A gateway compares its tide with another site's (02 R48). -/
def State.checkSkew (s : State) (p : Nat) (offset : Int) : State :=
  match s.neighbour p with
  | some n => if siteOf n ≠ siteOf s.selfNgi ∧ s.skewLimit * 65536 < offsetAbs offset then s.putBit .tide 0x018 0 true else s
  | none => s

/-- TIDE_ORDERED_SET_RECEIVE (02 R45, R48, R54, 11 R282). A set is valid where its QUALITY is LOCKED or HOLDOVER. -/
def receiveTide (p : Nat) (set : TideSet) (s : State) : State :=
  if !s.tidePort p then s
  else
    let t4 := s.clock * 65536 + set.rxSub.toNat
    let q := set.quality.toNat
    let valid := q == 2 || q == 3
    let s := s.measureDelay p t4 set
    let s := s.setPort p { s.port p with
      rxSeq := set.seq.toNat, rxStamp := t4, rxTide := some (q, set.hops.toNat, set.gmNgi.toNat)
      validAt := if valid then s.clock else (s.port p).validAt }
    let s := s.chooseParent
    if !valid then s
    else
      let offset := s.offsetOf p set
      let s := s.checkSkew p offset
      if s.role ≠ 0 ∨ s.tide.parent ≠ p then s
      else
        let s := ((s.putFld .tide 0x008 8 4 (set.hops.toNat + 1)).putFld .tide 0x008 32 18 set.gmNgi.toNat).putBit .tide 0x008 3 false
        s.followOffset offset

def execTideOrderedSetReceive (port : Fin 16) (set : TideSet) (s : State) : Host.Outcome State Fault Refusal :=
  .next (receiveTide port.val set s)

/-- A PTP message reaches the slave at a local time (02 R43, log 55): a two-step Sync is stamped, its Follow_Up gives the
master's stamp and sends a Delay_Req, stamped as it leaves, and the Delay_Resp that answers it completes the exchange. The
second number answers is the offset of the local time from the master's, in ns. -/
def PtpSlave.take (p : PtpSlave) (clock : Nat) (m : PtpMsg) : PtpSlave × Option Int :=
  let stamp : Int := (m.time : Int) + m.correction / 65536
  match m.kind with
  | .sync => (if m.twoStep then { p with sync := some (m.seq.toNat, clock), down := none, asked := none } else p, none)
  | .followUp =>
    match p.sync with
    | some (q, t2) =>
      if q = m.seq.toNat then
        ({ sync := none, down := some ((t2 : Int) - stamp), asked := some (p.nextSeq, clock), nextSeq := (p.nextSeq + 1) % 65536 }, none)
      else (p, none)
    | none => (p, none)
  | .delayResp =>
    match p.asked, p.down with
    | some (q, t3), some down =>
      if q = m.seq.toNat then
        ({ p with down := none, asked := none }, some ((down - ((m.time : Int) - m.correction / 65536 - t3)) / 2))
      else (p, none)
    | _, _ => (p, none)
  | .other => (p, none)

/-- The slave takes a message of the default domain over UDP/IPv4 or IEEE 802.3 (02 R43). -/
def ptpServed (m : PtpMsg) : Bool := m.transport != .other && m.domain == 0

/-- PTP_MESSAGE (02 R43): at a node with a grandmaster role a completed exchange gives the second that the last edge began. -/
def takePtp (m : PtpMsg) (s : State) : State :=
  if s.role = 0 ∨ s.harbour.inReset ∨ !ptpServed m then s
  else
    let r := s.tide.ptp.take s.clock m
    let second := match r.2 with
      | some o => (((s.clock : Int) - o) / 1_000_000_000).toNat
      | none => s.tide.second
    { s with tide := { s.tide with ptp := r.1, second := second } }

def execPtpMessage (message : PtpMsg) (s : State) : Host.Outcome State Fault Refusal := .next (takePtp message s)

/-! ## The edge of the second -/

/-- The operation boundary of a block, where a commit waits for it (00 R14). -/
def State.powerBoundary (s : State) : State := s.applyCommit (commitAddr .power)

/-- PPS_COMP, which is in ps, in units of 2^-16 ns (18 R492). -/
def State.ppsComp (s : State) : Int := toSigned 32 (s.regN .power 0x030) * 65536 / 1000

/-- The true tide at the edge, less the node's: the next second, and the delay from the reference to the ball. -/
def State.edgeOffset (s : State) : Int :=
  (((s.tide.second + 1) * 1_000_000_000 : Nat) : Int) * 65536 + s.ppsComp - ((s.now * 65536 : Nat) : Int)

/-- The edge corrects the tide of a node with a grandmaster role (02 R42, R54, 18 R492). -/
def State.edgeTide (s : State) : State :=
  let offset := s.edgeOffset
  let s := { s with tide := { s.tide with second := s.tide.second + 1 } }
  let s := ((s.putFld .tide 0x008 8 4 0).putFld .tide 0x008 32 18 s.selfNgi).putBit .tide 0x008 3 (s.role == 1)
  if s.lockState = 0 then ((s.setLock 1).stepTide offset)
  else if (s.lockState = 3 ∨ s.lockState = 4) ∧ s.tide.slew.isNone then s.returnParent offset
  else s.followOffset offset

/-- PPS_EDGE (02 R52, 18 R492, R500). -/
def ppsEdge (s : State) : State :=
  if s.role = 0 then s
  else
    let s := s.powerBoundary
    let s := if s.tide.second = 0 then s else s.edgeTide
    { s with tide := { s.tide with lastPps := s.clock } }

def execPpsEdge (s : State) : Host.Outcome State Fault Refusal := .next (ppsEdge s)

/-! ## Lock states -/

/-- The source has been lost: five ordered-set periods without a valid set from the parent or an enabled alternate, or two
missing edges at a grandmaster (02 R52). -/
def State.sourceLost (s : State) : Bool :=
  if s.role = 0 then s.parents.all fun p => !s.freshPort p
  else decide (s.tide.lastPps + 2_000_000_000 ≤ s.clock)

/-- HOLDOVER_ENTRY (02 R52, R54): LOCKED becomes HOLDOVER; a slew that loses its parent grows EST_ERR again. -/
def enterHoldover (s : State) : State :=
  if !s.sourceLost then s
  else
    let t : State := { s with tide := { s.tide with slew := none } }
    if s.lockState = 2 then t.enterHold.growEst
    else if (s.lockState = 3 ∨ s.lockState = 4) ∧ s.tide.slew.isSome then t.growEst
    else s

def execHoldoverEntry (s : State) : Host.Outcome State Fault Refusal := .next (enterHoldover s)

/-- ADRIFT_ENTRY (02 R53). -/
def adriftEntry (s : State) : State := (s.setEst s.grownEst).checkAdrift

def execAdriftEntry (s : State) : Host.Outcome State Fault Refusal := .next (adriftEntry s)

/-- PARENT_RETURN (02 R54): at a follower that is not LOCKED, from its parent or an enabled alternate, which is valid; the
operand is the offset measured, in ns. -/
def parentReturn (p : Nat) (offset : Int) (s : State) : State :=
  if s.role != 0 || !s.parents.contains p || !s.freshPort p || s.lockState == 2 then s
  else (s.useParent p).returnParent (65536 * offset)

def execParentReturn (port : Fin 16) (offset : Int) (s : State) : Host.Outcome State Fault Refusal :=
  .next (parentReturn port.val offset s)

/-- The node may enter LOCKED: its source is valid, and the slew or the step has brought the offset to 2 ns (02 R52, R54). -/
def State.lockReady (s : State) : Bool :=
  match s.tide.slew with
  | some o => decide (offsetAbs o ≤ 2 * 65536) && [1, 3, 4].contains s.lockState && !s.sourceLost
  | none => false

/-- LOCK_ACHIEVED (02 R54). -/
def lockAchieved (s : State) : State := if s.lockReady then (s.setLock 2).stopEst else s

def execLockAchieved (s : State) : Host.Outcome State Fault Refusal := .next (lockAchieved s)

/-! ## Steps and the schedule -/

/-- STEP_WRITE (02 R56, R58). -/
def execStepWrite (wide high : Bool) (value : Word) (s : State) : Host.Outcome State Fault Refusal :=
  .next (s.writeStep (fld (mergeHalf (s.reg .tide 0x020) wide high value) 0 32))

/-- STEP_MARK (02 R57, R512). -/
def execStepMark (s : State) : Host.Outcome State Fault Refusal := .next s.meetMark

/-- SCHEDULE_ENTRY_WRITE (02 R61). -/
def execScheduleEntryWrite (entry : Fin 4096) (word : Fin 4) (wide high : Bool) (value : Word) (s : State) :
    Host.Outcome State Fault Refusal :=
  .next (s.writeEntry entry.val word.val (word.val == 0 && (wide || !high))
    (mergeHalf ((s.entry entry.val).word word.val) wide high value))

/-- START_CHAIN (02 R62–R64). -/
def execStartChain (entry : Fin 4096) (s : State) : Host.Outcome State Fault Refusal := .next (s.dispatchEntry entry.val 1)

/-- ADD_TRIGGER (02 R62–R64, 13 R344). -/
def execAddTrigger (entry : Fin 4096) (s : State) : Host.Outcome State Fault Refusal := .next (s.dispatchEntry entry.val 2)

/-- RING_BELL (02 R62–R64, 14 R386). -/
def execRingBell (entry : Fin 4096) (s : State) : Host.Outcome State Fault Refusal := .next (s.dispatchEntry entry.val 3)

/-- POWER_MODE (01 R35, R36, 02 R62–R64). -/
def execPowerMode (entry : Fin 4096) (s : State) : Host.Outcome State Fault Refusal := .next (s.dispatchEntry entry.val 4)

/-- CHECKPOINT_ACTION (02 R62–R64, 16 R425, R426). -/
def execCheckpointAction (entry : Fin 4096) (s : State) : Host.Outcome State Fault Refusal :=
  .next (s.dispatchEntry entry.val 5)

/-- ROUTE_BANK (02 R62–R64, 11 R299). -/
def execRouteBank (entry : Fin 4096) (s : State) : Host.Outcome State Fault Refusal := .next (s.dispatchEntry entry.val 6)

/-! ## Comparators -/

/-- A comparator signals the harbourmaster, where it is awake (02 R65). -/
def State.signalHm (s : State) (i : Nat) : State :=
  if s.power.depth = 3 ∨ s.harbour.inReset then s
  else { s with harbour := { s.harbour with signals := s.harbour.signals ||| BitVec.ofNat 16 (2 ^ i) } }

/-- TIDE_MARK_COMPARATOR_HIT (02 R65). A mark that lies before the tide when its comparator is enabled counts as reached
(log 56). -/
def markHit (i : Nat) (s : State) : State :=
  if s.bitAt .tide 0x280 i && decide (s.regN .tide (0x200 + 8 * i) ≤ s.now) && !s.tide.reached.toNat.testBit i then
    let s := { s with tide := { s.tide with reached := s.tide.reached ||| BitVec.ofNat 16 (2 ^ i) } }
    let s := (s.putBit .tide 0x288 i true).signalHm i
    if s.bitAt .tide 0x280 (16 + i) then s.wakeFrom.deliverAwake else s
  else s

def execTideMarkComparatorHit (comparator : Fin 16) (s : State) : Host.Outcome State Fault Refusal :=
  .next (markHit comparator.val s)

/-- The reading lies beyond a comparator's threshold in its direction (02 VTC_j). -/
def State.vtcMet (s : State) (j reading : Nat) : Bool :=
  let th := s.fldAt .tide (0x300 + 8 * j) 16 16
  if s.bitAt .tide (0x300 + 8 * j) 4 then decide (th < reading) else decide (reading < th)

/-- VTC_CROSSING (02 R66, 15 Table 15-1). -/
def vtcCrossing (j reading : Nat) (s : State) : State :=
  if s.bitAt .tide (0x300 + 8 * j) 5 && s.vtcMet j reading then
    let s := (s.putBit .tide 0x320 j true).report 0x30 none (sensorDetail j reading)
    if s.bitAt .tide (0x300 + 8 * j) 6 then s.wakeFrom.deliverAwake else s
  else s

def execVtcCrossing (comparator : Fin 4) (reading : BitVec 16) (s : State) : Host.Outcome State Fault Refusal :=
  .next (vtcCrossing comparator.val reading.toNat s)

end Sys2Proof.Machine
end

