-- ==== Sys2Proof/Machine/Dispatch.lean ====
section
/-! DEFINITION. The meaning of each command: one arm per row of the opcode table. -/

namespace Sys2Proof.Machine

def exec (i : Instr) (s : State) : Host.Outcome State Fault Refusal :=
  match i with
  | .registerWrite sender addr wide value => Sys2Proof.Machine.execRegisterWrite sender addr wide value s
  | .cfgCommit sender block => Sys2Proof.Machine.execCfgCommit sender block s
  | .commitBoundary block => Sys2Proof.Machine.execCommitBoundary block s
  | .busErrorAccess sender write addr bytes => Sys2Proof.Machine.execBusErrorAccess sender write addr bytes s
  | .tideOrderedSetSend port => Sys2Proof.Machine.execTideOrderedSetSend port s
  | .tideOrderedSetReceive port set => Sys2Proof.Machine.execTideOrderedSetReceive port set s
  | .ptpMessage message => Sys2Proof.Machine.execPtpMessage message s
  | .ppsEdge => Sys2Proof.Machine.execPpsEdge s
  | .holdoverEntry => Sys2Proof.Machine.execHoldoverEntry s
  | .adriftEntry => Sys2Proof.Machine.execAdriftEntry s
  | .parentReturn port offset => Sys2Proof.Machine.execParentReturn port offset s
  | .lockAchieved => Sys2Proof.Machine.execLockAchieved s
  | .stepWrite wide high value => Sys2Proof.Machine.execStepWrite wide high value s
  | .stepMark => Sys2Proof.Machine.execStepMark s
  | .scheduleEntryWrite entry word wide high value => Sys2Proof.Machine.execScheduleEntryWrite entry word wide high value s
  | .startChain entry => Sys2Proof.Machine.execStartChain entry s
  | .addTrigger entry => Sys2Proof.Machine.execAddTrigger entry s
  | .ringBell entry => Sys2Proof.Machine.execRingBell entry s
  | .powerMode entry => Sys2Proof.Machine.execPowerMode entry s
  | .checkpointAction entry => Sys2Proof.Machine.execCheckpointAction entry s
  | .routeBank entry => Sys2Proof.Machine.execRouteBank entry s
  | .tideMarkComparatorHit comparator => Sys2Proof.Machine.execTideMarkComparatorHit comparator s
  | .vtcCrossing comparator reading => Sys2Proof.Machine.execVtcCrossing comparator reading s
  | .qTailWrite core queue value => Sys2Proof.Machine.execQTailWrite core queue value s
  | .qChainWrite core queue value => Sys2Proof.Machine.execQChainWrite core queue value s
  | .reservedSlotEnter core queue => Sys2Proof.Machine.execReservedSlotEnter core queue s
  | .descriptorStart core queue => Sys2Proof.Machine.execDescriptorStart core queue s
  | .resume core queue => Sys2Proof.Machine.execResume core queue s
  | .skip core queue => Sys2Proof.Machine.execSkip core queue s
  | .flush core queue => Sys2Proof.Machine.execFlush core queue s
  | .wfi core => Sys2Proof.Machine.execWfi core s
  | .pilotWake core => Sys2Proof.Machine.execPilotWake core s
  | .pumpDescriptor core pump => Sys2Proof.Machine.execPumpDescriptor core pump s
  | .pumpComplete core pump => Sys2Proof.Machine.execPumpComplete core pump s
  | .pumpConvRead core pump => Sys2Proof.Machine.execPumpConvRead core pump s
  | .offlineDrain core => Sys2Proof.Machine.execOfflineDrain core s
  | .coreDrainDone core => Sys2Proof.Machine.execCoreDrainDone core s
  | .offlineAbort core => Sys2Proof.Machine.execOfflineAbort core s
  | .online core => Sys2Proof.Machine.execOnline core s
  | .mxeDescriptor core engine => Sys2Proof.Machine.execMxeDescriptor core engine s
  | .mxeComplete core engine => Sys2Proof.Machine.execMxeComplete core engine s
  | .mxConvRead core engine => Sys2Proof.Machine.execMxConvRead core engine s
  | .fleChain core => Sys2Proof.Machine.execFleChain core s
  | .fleComplete core => Sys2Proof.Machine.execFleComplete core s
  | .flConvRead core => Sys2Proof.Machine.execFlConvRead core s
  | .kadd hart rd rs1 rs2 rs3 => Sys2Proof.Machine.execKadd hart rd rs1 rs2 rs3 s
  | .ksub hart rd rs1 rs2 rs3 => Sys2Proof.Machine.execKsub hart rd rs1 rs2 rs3 s
  | .kmul hart rd rs1 rs2 rs3 => Sys2Proof.Machine.execKmul hart rd rs1 rs2 rs3 s
  | .kfma hart rd rs1 rs2 rs3 => Sys2Proof.Machine.execKfma hart rd rs1 rs2 rs3 s
  | .kmax hart rd rs1 rs2 rs3 => Sys2Proof.Machine.execKmax hart rd rs1 rs2 rs3 s
  | .kmin hart rd rs1 rs2 rs3 => Sys2Proof.Machine.execKmin hart rd rs1 rs2 rs3 s
  | .kdiv hart rd rs1 rs2 rs3 => Sys2Proof.Machine.execKdiv hart rd rs1 rs2 rs3 s
  | .kcvt hart rd rs1 rs2 rs3 => Sys2Proof.Machine.execKcvt hart rd rs1 rs2 rs3 s
  | .kgath hart rd rs1 rs2 rs3 => Sys2Proof.Machine.execKgath hart rd rs1 rs2 rs3 s
  | .kscat hart rd rs1 rs2 rs3 => Sys2Proof.Machine.execKscat hart rd rs1 rs2 rs3 s
  | .kdot hart rd rs1 rs2 rs3 => Sys2Proof.Machine.execKdot hart rd rs1 rs2 rs3 s
  | .ksum hart rd rs1 rs2 rs3 => Sys2Proof.Machine.execKsum hart rd rs1 rs2 rs3 s
  | .kamax hart rd rs1 rs2 rs3 => Sys2Proof.Machine.execKamax hart rd rs1 rs2 rs3 s
  | .xkmlvInterruptStop hart op rd rs1 rs2 rs3 stop cause => Sys2Proof.Machine.execXkmlvInterruptStop hart op rd rs1 rs2 rs3 stop cause s
  | .xkmlvCsrWrite hart csr value => Sys2Proof.Machine.execXkmlvCsrWrite hart csr value s
  | .cboClean hart addr => Sys2Proof.Machine.execCboClean hart addr s
  | .cboFlush hart addr => Sys2Proof.Machine.execCboFlush hart addr s
  | .cboInval hart addr => Sys2Proof.Machine.execCboInval hart addr s
  | .cboZero hart addr => Sys2Proof.Machine.execCboZero hart addr s
  | .svBatchStart core => Sys2Proof.Machine.execSvBatchStart core s
  | .segmentClaim core => Sys2Proof.Machine.execSegmentClaim core s
  | .segmentComplete core => Sys2Proof.Machine.execSegmentComplete core s
  | .stopMark core => Sys2Proof.Machine.execStopMark core s
  | .moveReqPoll core => Sys2Proof.Machine.execMoveReqPoll core s
  | .svQueryWrite core wide high value => Sys2Proof.Machine.execSvQueryWrite core wide high value s
  | .ringTailWrite die ring value => Sys2Proof.Machine.execRingTailWrite die ring value s
  | .dispatcherEnter die ring => Sys2Proof.Machine.execDispatcherEnter die ring s
  | .dispatcherClose die => Sys2Proof.Machine.execDispatcherClose die s
  | .batchRefused die ring => Sys2Proof.Machine.execBatchRefused die ring s
  | .hbmRead addr bytes way => Sys2Proof.Machine.execHbmRead addr bytes way s
  | .hbmWrite addr data poison way => Sys2Proof.Machine.execHbmWrite addr data poison way s
  | .refresh channel => Sys2Proof.Machine.execRefresh channel s
  | .patrolScrub channel errors => Sys2Proof.Machine.execPatrolScrub channel errors s
  | .channelRetrainStart channel => Sys2Proof.Machine.execChannelRetrainStart channel s
  | .channelRetrainEnd channel pass => Sys2Proof.Machine.execChannelRetrainEnd channel pass s
  | .channelRefillDone channel => Sys2Proof.Machine.execChannelRefillDone channel s
  | .go channel value => Sys2Proof.Machine.execGo channel value s
  | .abort channel => Sys2Proof.Machine.execAbort channel s
  | .tgDone channel faults order => Sys2Proof.Machine.execTgDone channel faults order s
  | .chCeRead channel => Sys2Proof.Machine.execChCeRead channel s
  | .chUeRead channel => Sys2Proof.Machine.execChUeRead channel s
  | .portTraining port => Sys2Proof.Machine.execPortTraining port s
  | .portUp port outcome => Sys2Proof.Machine.execPortUp port outcome s
  | .retrain port => Sys2Proof.Machine.execRetrain port s
  | .retune port lane => Sys2Proof.Machine.execRetune port lane s
  | .laneDrop port lane => Sys2Proof.Machine.execLaneDrop port lane s
  | .laneRejoin port lane => Sys2Proof.Machine.execLaneRejoin port lane s
  | .portDown port cause => Sys2Proof.Machine.execPortDown port cause s
  | .frameReceive port frame => Sys2Proof.Machine.execFrameReceive port frame s
  | .credit port nak sync ackFseq freed => Sys2Proof.Machine.execCredit port nak sync ackFseq freed s
  | .audit port nak ackFseq sent => Sys2Proof.Machine.execAudit port nak ackFseq sent s
  | .fence port ngi => Sys2Proof.Machine.execFence port ngi s
  | .hello port hello => Sys2Proof.Machine.execHello port hello s
  | .egressPacketStart port => Sys2Proof.Machine.execEgressPacketStart port s
  | .unicast port vc => Sys2Proof.Machine.execUnicast port vc s
  | .multicast port vc => Sys2Proof.Machine.execMulticast port vc s
  | .escape port vc => Sys2Proof.Machine.execEscape port vc s
  | .basinFill port vc => Sys2Proof.Machine.execBasinFill port vc s
  | .rtrBankWrite wide high value => Sys2Proof.Machine.execRtrBankWrite wide high value s
  | .routeTableWrite word wide high value => Sys2Proof.Machine.execRouteTableWrite word wide high value s
  | .tagFilterWrite word wide high value => Sys2Proof.Machine.execTagFilterWrite word wide high value s
  | .dropCountRead cause => Sys2Proof.Machine.execDropCountRead cause s
  | .basinOccRead port vc => Sys2Proof.Machine.execBasinOccRead port vc s
  | .enable queue => Sys2Proof.Machine.execEnable queue s
  | .drain queue => Sys2Proof.Machine.execDrain queue s
  | .queueDrainDone queue => Sys2Proof.Machine.execQueueDrainDone queue s
  | .reset queue => Sys2Proof.Machine.execReset queue s
  | .qctlResume queue => Sys2Proof.Machine.execQctlResume queue s
  | .queueBellSqTail queue index => Sys2Proof.Machine.execQueueBellSqTail queue index s
  | .queueBellCqHead queue index => Sys2Proof.Machine.execQueueBellCqHead queue index s
  | .queueBellRqHead queue index => Sys2Proof.Machine.execQueueBellRqHead queue index s
  | .stagingWindowWrite queue offset data poison => Sys2Proof.Machine.execStagingWindowWrite queue offset data poison s
  | .put queue => Sys2Proof.Machine.execPut queue s
  | .get queue => Sys2Proof.Machine.execGet queue s
  | .send queue => Sys2Proof.Machine.execSend queue s
  | .atomic queue => Sys2Proof.Machine.execAtomic queue s
  | .ctrAdd queue => Sys2Proof.Machine.execCtrAdd queue s
  | .nopWorkRequest queue => Sys2Proof.Machine.execNopWorkRequest queue s
  | .operationComplete queue => Sys2Proof.Machine.execOperationComplete queue s
  | .putReceive quay => Sys2Proof.Machine.execPutReceive quay s
  | .getReqReceive quay => Sys2Proof.Machine.execGetReqReceive quay s
  | .getRespReceive quay => Sys2Proof.Machine.execGetRespReceive quay s
  | .sendReceive quay => Sys2Proof.Machine.execSendReceive quay s
  | .atomicReceive quay => Sys2Proof.Machine.execAtomicReceive quay s
  | .atomicRespReceive quay => Sys2Proof.Machine.execAtomicRespReceive quay s
  | .ackReceive quay => Sys2Proof.Machine.execAckReceive quay s
  | .nakReceive quay => Sys2Proof.Machine.execNakReceive quay s
  | .grantReceive quay => Sys2Proof.Machine.execGrantReceive quay s
  | .ctrAddReceive quay => Sys2Proof.Machine.execCtrAddReceive quay s
  | .errorReceive quay => Sys2Proof.Machine.execErrorReceive quay s
  | .retransmitTimeout queue => Sys2Proof.Machine.execRetransmitTimeout queue s
  | .gapNak queue => Sys2Proof.Machine.execGapNak queue s
  | .ackTimer queue => Sys2Proof.Machine.execAckTimer queue s
  | .grantTimer queue => Sys2Proof.Machine.execGrantTimer queue s
  | .calendarPeriodStart quay => Sys2Proof.Machine.execCalendarPeriodStart quay s
  | .rankFlush quay => Sys2Proof.Machine.execRankFlush quay s
  | .trayRequest sender addr op => Sys2Proof.Machine.execTrayRequest sender addr op s
  | .trayLd quay => Sys2Proof.Machine.execTrayLd quay s
  | .traySt quay => Sys2Proof.Machine.execTraySt quay s
  | .trayAmo quay => Sys2Proof.Machine.execTrayAmo quay s
  | .trayResp quay => Sys2Proof.Machine.execTrayResp quay s
  | .trayErr quay => Sys2Proof.Machine.execTrayErr quay s
  | .trayDead quay request => Sys2Proof.Machine.execTrayDead quay request s
  | .triggerAdd => Sys2Proof.Machine.execTriggerAdd s
  | .trigDropsRead quay => Sys2Proof.Machine.execTrigDropsRead quay s
  | .clStrayRead quay => Sys2Proof.Machine.execClStrayRead quay s
  | .arm group => Sys2Proof.Machine.execArm group s
  | .groupActivate group => Sys2Proof.Machine.execGroupActivate group s
  | .quiesce group => Sys2Proof.Machine.execQuiesce group s
  | .disable group => Sys2Proof.Machine.execDisable group s
  | .groupBellSqTail group index => Sys2Proof.Machine.execGroupBellSqTail group index s
  | .groupBellCqHead group index => Sys2Proof.Machine.execGroupBellCqHead group index s
  | .allreduce group => Sys2Proof.Machine.execAllreduce group s
  | .reduceScatter group => Sys2Proof.Machine.execReduceScatter group s
  | .allgather group => Sys2Proof.Machine.execAllgather group s
  | .broadcast group => Sys2Proof.Machine.execBroadcast group s
  | .alltoall group => Sys2Proof.Machine.execAlltoall group s
  | .gather group => Sys2Proof.Machine.execGather group s
  | .scatter group => Sys2Proof.Machine.execScatter group s
  | .alltoallv group => Sys2Proof.Machine.execAlltoallv group s
  | .gatherv group => Sys2Proof.Machine.execGatherv group s
  | .scatterv group => Sys2Proof.Machine.execScatterv group s
  | .chunk quay => Sys2Proof.Machine.execChunk quay s
  | .cAck quay => Sys2Proof.Machine.execCAck quay s
  | .cGrant quay => Sys2Proof.Machine.execCGrant quay s
  | .cCount quay => Sys2Proof.Machine.execCCount quay s
  | .stepWindowEnd group => Sys2Proof.Machine.execStepWindowEnd group s
  | .collectiveComplete group => Sys2Proof.Machine.execCollectiveComplete group s
  | .groupStatWriteback group => Sys2Proof.Machine.execGroupStatWriteback group s
  | .postCompose sender berth word value => Sys2Proof.Machine.execPostCompose sender berth word value s
  | .post sender berth message => Sys2Proof.Machine.execPost sender berth message s
  | .bTake sender berth => Sys2Proof.Machine.execBTake sender berth s
  | .berthClear berth => Sys2Proof.Machine.execBerthClear berth s
  | .aborted => Sys2Proof.Machine.execAborted s
  | .orBellWrite bell value => Sys2Proof.Machine.execOrBellWrite bell value s
  | .bellRead bell => Sys2Proof.Machine.execBellRead bell s
  | .hostBellWrite bell value => Sys2Proof.Machine.execHostBellWrite bell value s
  | .hostRequest => Sys2Proof.Machine.execHostRequest s
  | .queryVersion berth => Sys2Proof.Machine.execQueryVersion berth s
  | .nop berth => Sys2Proof.Machine.execNop berth s
  | .setPowerMode berth => Sys2Proof.Machine.execSetPowerMode berth s
  | .setSleep berth => Sys2Proof.Machine.execSetSleep berth s
  | .setFec berth => Sys2Proof.Machine.execSetFec berth s
  | .coreState berth => Sys2Proof.Machine.execCoreState berth s
  | .coreLoad berth => Sys2Proof.Machine.execCoreLoad berth s
  | .chRetrain berth => Sys2Proof.Machine.execChRetrain berth s
  | .chIsolate berth => Sys2Proof.Machine.execChIsolate berth s
  | .chRecover berth => Sys2Proof.Machine.execChRecover berth s
  | .regRead berth => Sys2Proof.Machine.execRegRead berth s
  | .regWrite berth => Sys2Proof.Machine.execRegWrite berth s
  | .regCopy berth => Sys2Proof.Machine.execRegCopy berth s
  | .berthAssign berth => Sys2Proof.Machine.execBerthAssign berth s
  | .hostNotify berth => Sys2Proof.Machine.execHostNotify berth s
  | .checkpoint berth => Sys2Proof.Machine.execCheckpoint berth s
  | .restore berth => Sys2Proof.Machine.execRestore berth s
  | .fwStage berth => Sys2Proof.Machine.execFwStage berth s
  | .fwActivate berth => Sys2Proof.Machine.execFwActivate berth s
  | .attest berth => Sys2Proof.Machine.execAttest berth s
  | .lifetimeRead berth => Sys2Proof.Machine.execLifetimeRead berth s
  | .faultStatus berth => Sys2Proof.Machine.execFaultStatus berth s
  | .faultRelease berth => Sys2Proof.Machine.execFaultRelease berth s
  | .setNgi berth => Sys2Proof.Machine.execSetNgi berth s
  | .abortOp berth => Sys2Proof.Machine.execAbortOp berth s
  | .replyRetry slot => Sys2Proof.Machine.execReplyRetry slot s
  | .statusWordUpdate slot => Sys2Proof.Machine.execStatusWordUpdate slot s
  | .faultReport => Sys2Proof.Machine.execFaultReport s
  | .hbmHot stack reading => Sys2Proof.Machine.execHbmHot stack reading s
  | .hbmCrit stack reading => Sys2Proof.Machine.execHbmCrit stack reading s
  | .dieHot sensor reading => Sys2Proof.Machine.execDieHot sensor reading s
  | .dieCrit sensor reading => Sys2Proof.Machine.execDieCrit sensor reading s
  | .thermalClear sensor reading => Sys2Proof.Machine.execThermalClear sensor reading s
  | .droop die => Sys2Proof.Machine.execDroop die s
  | .vrFault => Sys2Proof.Machine.execVrFault s
  | .clkLoss => Sys2Proof.Machine.execClkLoss s
  | .meshDown => Sys2Proof.Machine.execMeshDown s
  | .hubErr => Sys2Proof.Machine.execHubErr s
  | .hmLockstep => Sys2Proof.Machine.execHmLockstep s
  | .hmWdog => Sys2Proof.Machine.execHmWdog s
  | .coreUe core => Sys2Proof.Machine.execCoreUe core s
  | .quayUe quay => Sys2Proof.Machine.execQuayUe quay s
  | .hbmPhy channel => Sys2Proof.Machine.execHbmPhy channel s
  | .quietPeriodEnd domain => Sys2Proof.Machine.execQuietPeriodEnd domain s
  | .selftestPass domain => Sys2Proof.Machine.execSelftestPass domain s
  | .selftestFail domain => Sys2Proof.Machine.execSelftestFail domain s
  | .lifetimeWrite => Sys2Proof.Machine.execLifetimeWrite s
  | .sensorSample readings => Sys2Proof.Machine.execSensorSample readings s
  | .energyIntegrate parts => Sys2Proof.Machine.execEnergyIntegrate parts s
  | .checkpointBegin => Sys2Proof.Machine.execCheckpointBegin s
  | .formPieceEnter core => Sys2Proof.Machine.execFormPieceEnter core s
  | .formPoll => Sys2Proof.Machine.execFormPoll s
  | .formEnd => Sys2Proof.Machine.execFormEnd s
  | .formLate => Sys2Proof.Machine.execFormLate s
  | .shipDone dest => Sys2Proof.Machine.execShipDone dest s
  | .commit dest => Sys2Proof.Machine.execCommit dest s
  | .porRise straps => Sys2Proof.Machine.execPorRise straps s
  | .porFall => Sys2Proof.Machine.execPorFall s
  | .resetN straps => Sys2Proof.Machine.execResetN straps s
  | .bootRom => Sys2Proof.Machine.execBootRom s
  | .firmwareStage => Sys2Proof.Machine.execFirmwareStage s
  | .hbmStage failed => Sys2Proof.Machine.execHbmStage failed s
  | .activationMark image => Sys2Proof.Machine.execActivationMark image s
  | .activationConfirmTimeout => Sys2Proof.Machine.execActivationConfirmTimeout s
  | .sleepEntry => Sys2Proof.Machine.execSleepEntry s
  | .wake source => Sys2Proof.Machine.execWake source s
  | .deepWake => Sys2Proof.Machine.execDeepWake s
  | .powerControlTick => Sys2Proof.Machine.execPowerControlTick s
  | .fastCut estimate => Sys2Proof.Machine.execFastCut estimate s
  | .fastCutHoldEnd => Sys2Proof.Machine.execFastCutHoldEnd s
  | .clockStretch die ns depth => Sys2Proof.Machine.execClockStretch die ns depth s
  | .pwrBrake => Sys2Proof.Machine.execPwrBrake s
  | .vrAlert => Sys2Proof.Machine.execVrAlert s
  | .powerModeMark => Sys2Proof.Machine.execPowerModeMark s
  | .readbackRound => Sys2Proof.Machine.execReadbackRound s
  | .avsTelemetryRead rails => Sys2Proof.Machine.execAvsTelemetryRead rails s
  | .controlSlotSend port => Sys2Proof.Machine.execControlSlotSend port s
  | .vaonPowerUp => Sys2Proof.Machine.execVaonPowerUp s
  | .conditionClear source => Sys2Proof.Machine.execConditionClear source s
  | .instanceConfirm image running => Sys2Proof.Machine.execInstanceConfirm image running s
  | .pwrBrakeRelease => Sys2Proof.Machine.execPwrBrakeRelease s

end Sys2Proof.Machine
end

