-- ==== Sys2Proof/Machine/Idle.lean ====
section
/-! DEFINITION. What happens on an empty queue: one nanosecond of the tide passes (02 R39–R41), with what the node counts in
time. -/

namespace Sys2Proof.Machine

/-- Count the ports' waits for credit (11 STALL_NS_v). -/
def State.countStalls (s : State) : State :=
  let heads := s.inputStalls
  allPorts.foldl (fun (s : State) p =>
    (List.range 8).foldl (fun (s : State) v => if s.stalled heads p v then s.addWrap (.port p) (0x140 + 8 * v) 0 64 1 else s) s) s

/-- Count the groups' waits for a window (13 WAIT_WIN_NS), and run their timers (13 R361). -/
def State.groupTime (s : State) : State :=
  (Tab.keys s.groups).foldl (fun (s : State) g =>
    let r := s.group g
    let s := if r.ready.isEmpty then s
      else s.setGroup g ((r.ready.map (·.1)).eraseDups.foldl (fun (r : GroupRun) l => r.stat l 8 1) r)
    (s.answerTimers g).collTimer g) s

/-- Whole seconds of the lifetime record (15 Table 15-6): POWER_ON_S, and the residency in modes, depths and the safe state. -/
def State.countSecond (s : State) : State :=
  let k := if s.safe then 6 else if s.power.depth = 0 then s.mode else 2 + s.power.depth
  let s := s.lifeAdd (0x100 + 8 * k) 8 1
  if s.power.porN then s.lifeAdd 0x010 8 1 else s

/-- The clocks of the cores run outside DOZE and DEEP: one nanosecond adds their MHz in thousandths of a cycle (00 R8, 07 R176). -/
def State.countCycles (s : State) : State :=
  if 2 ≤ s.power.depth then s
  else { s with cycles := { arith := s.cycles.arith + s.power.clock, pd := s.cycles.pd + s.power.ceiling } }

/-- The parts that run on POR_N: the cycle counts, EST_ERR in holdover, the packets that wait and the spill writes, throttled time, the step of a waiting checkpoint, the bound of a kind-0
hold (02 R52, 11, 13, 16 R425, 17 Table 17-4, 18 R478). -/
def State.partsTick (s : State) : State :=
  let s := s.countCycles
  let s := if s.tide.growFrom.isSome then s.setEst s.grownEst else s
  let s := (((Tab.keys s.ports).foldl (fun (s : State) p => s.flushSpills p) s).agePackets.countStalls.groupTime).markStep.deliverAwake
  let s := if s.duty < 64 then s.addWrap .power 0x020 0 64 1 else s
  if s.harbour.hold && decide ((s.image 0).trialMark + 200_000_000 ≤ s.clock) then s.endHold else s

/-- One nanosecond of the local oscillator passes; without VAON nothing counts. -/
def idleTick (s : State) : State :=
  if !s.power.vaon then s
  else
    let s := s.tickTide
    let s := if s.clock % 1_000_000_000 = 0 then s.countSecond else s
    if s.power.porN then s.partsTick else s

end Sys2Proof.Machine
end

