-- ==== Sys2Proof/Laws/State.lean ====
section
/-! SUPPORT. What every update of the state leaves as it was: one lemma per field. -/

namespace Sys2Proof.Machine

variable (s : State)

@[simp] theorem State.setReg_pending (a : Nat) (v : Word) : (s.setReg a v).pending = s.pending := by rfl
@[simp] theorem State.setReg_shadow (a : Nat) (v : Word) : (s.setReg a v).shadow = s.shadow := by rfl
@[simp] theorem State.setReg_commits (a : Nat) (v : Word) : (s.setReg a v).commits = s.commits := by rfl
@[simp] theorem State.setReg_dirty (a : Nat) (v : Word) : (s.setReg a v).dirty = s.dirty := by rfl
@[simp] theorem State.setReg_mem (a : Nat) (v : Word) : (s.setReg a v).mem = s.mem := by rfl
@[simp] theorem State.setReg_poison (a : Nat) (v : Word) : (s.setReg a v).poison = s.poison := by rfl
@[simp] theorem State.setReg_refill (a : Nat) (v : Word) : (s.setReg a v).refill = s.refill := by rfl
@[simp] theorem State.setReg_undef (a : Nat) (v : Word) : (s.setReg a v).undef = s.undef := by rfl
@[simp] theorem State.setReg_lagged (a : Nat) (v : Word) : (s.setReg a v).lagged = s.lagged := by rfl
@[simp] theorem State.setReg_acc (a : Nat) (v : Word) : (s.setReg a v).acc = s.acc := by rfl
@[simp] theorem State.setReg_accPoison (a : Nat) (v : Word) : (s.setReg a v).accPoison = s.accPoison := by rfl
@[simp] theorem State.setReg_weights (a : Nat) (v : Word) : (s.setReg a v).weights = s.weights := by rfl
@[simp] theorem State.setReg_queues (a : Nat) (v : Word) : (s.setReg a v).queues = s.queues := by rfl
@[simp] theorem State.setReg_harts (a : Nat) (v : Word) : (s.setReg a v).harts = s.harts := by rfl
@[simp] theorem State.setReg_lvseed (a : Nat) (v : Word) : (s.setReg a v).lvseed = s.lvseed := by rfl
@[simp] theorem State.setReg_cycles (a : Nat) (v : Word) : (s.setReg a v).cycles = s.cycles := by rfl
@[simp] theorem State.setReg_caches (a : Nat) (v : Word) : (s.setReg a v).caches = s.caches := by rfl
@[simp] theorem State.setReg_solvers (a : Nat) (v : Word) : (s.setReg a v).solvers = s.solvers := by rfl
@[simp] theorem State.setReg_work (a : Nat) (v : Word) : (s.setReg a v).work = s.work := by rfl
@[simp] theorem State.setReg_dispatch (a : Nat) (v : Word) : (s.setReg a v).dispatch = s.dispatch := by rfl
@[simp] theorem State.setReg_channels (a : Nat) (v : Word) : (s.setReg a v).channels = s.channels := by rfl
@[simp] theorem State.setReg_atDecoder (a : Nat) (v : Word) : (s.setReg a v).atDecoder = s.atDecoder := by rfl
@[simp] theorem State.setReg_ports (a : Nat) (v : Word) : (s.setReg a v).ports = s.ports := by rfl
@[simp] theorem State.setReg_arrived (a : Nat) (v : Word) : (s.setReg a v).arrived = s.arrived := by rfl
@[simp] theorem State.setReg_hostIn (a : Nat) (v : Word) : (s.setReg a v).hostIn = s.hostIn := by rfl
@[simp] theorem State.setReg_quays (a : Nat) (v : Word) : (s.setReg a v).quays = s.quays := by rfl
@[simp] theorem State.setReg_booked (a : Nat) (v : Word) : (s.setReg a v).booked = s.booked := by rfl
@[simp] theorem State.setReg_tray (a : Nat) (v : Word) : (s.setReg a v).tray = s.tray := by rfl
@[simp] theorem State.setReg_trayNext (a : Nat) (v : Word) : (s.setReg a v).trayNext = s.trayNext := by rfl
@[simp] theorem State.setReg_ranks (a : Nat) (v : Word) : (s.setReg a v).ranks = s.ranks := by rfl
@[simp] theorem State.setReg_groups (a : Nat) (v : Word) : (s.setReg a v).groups = s.groups := by rfl
@[simp] theorem State.setReg_adds (a : Nat) (v : Word) : (s.setReg a v).adds = s.adds := by rfl
@[simp] theorem State.setReg_berths (a : Nat) (v : Word) : (s.setReg a v).berths = s.berths := by rfl
@[simp] theorem State.setReg_compose (a : Nat) (v : Word) : (s.setReg a v).compose = s.compose := by rfl
@[simp] theorem State.setReg_bells (a : Nat) (v : Word) : (s.setReg a v).bells = s.bells := by rfl
@[simp] theorem State.setReg_discards (a : Nat) (v : Word) : (s.setReg a v).discards = s.discards := by rfl
@[simp] theorem State.setReg_harbour (a : Nat) (v : Word) : (s.setReg a v).harbour = s.harbour := by rfl
@[simp] theorem State.setReg_reports (a : Nat) (v : Word) : (s.setReg a v).reports = s.reports := by rfl
@[simp] theorem State.setReg_domains (a : Nat) (v : Word) : (s.setReg a v).domains = s.domains := by rfl
@[simp] theorem State.setReg_life (a : Nat) (v : Word) : (s.setReg a v).life = s.life := by rfl
@[simp] theorem State.setReg_ckpt (a : Nat) (v : Word) : (s.setReg a v).ckpt = s.ckpt := by rfl
@[simp] theorem State.setReg_images (a : Nat) (v : Word) : (s.setReg a v).images = s.images := by rfl
@[simp] theorem State.setReg_revoked (a : Nat) (v : Word) : (s.setReg a v).revoked = s.revoked := by rfl
@[simp] theorem State.setReg_svnMin (a : Nat) (v : Word) : (s.setReg a v).svnMin = s.svnMin := by rfl
@[simp] theorem State.setReg_power (a : Nat) (v : Word) : (s.setReg a v).power = s.power := by rfl
@[simp] theorem State.setReg_tide (a : Nat) (v : Word) : (s.setReg a v).tide = s.tide := by rfl
@[simp] theorem State.setReg_sched (a : Nat) (v : Word) : (s.setReg a v).sched = s.sched := by rfl
@[simp] theorem State.setReg_heldActs (a : Nat) (v : Word) : (s.setReg a v).heldActs = s.heldActs := by rfl
@[simp] theorem State.setReg_answer (a : Nat) (v : Word) : (s.setReg a v).answer = s.answer := by rfl
@[simp] theorem State.setReg_draws (a : Nat) (v : Word) : (s.setReg a v).draws = s.draws := by rfl

@[simp] theorem State.setShadow_pending (a : Nat) (v : Word) : (s.setShadow a v).pending = s.pending := by rfl
@[simp] theorem State.setShadow_regs (a : Nat) (v : Word) : (s.setShadow a v).regs = s.regs := by rfl
@[simp] theorem State.setShadow_commits (a : Nat) (v : Word) : (s.setShadow a v).commits = s.commits := by rfl
@[simp] theorem State.setShadow_dirty (a : Nat) (v : Word) : (s.setShadow a v).dirty = s.dirty := by rfl
@[simp] theorem State.setShadow_mem (a : Nat) (v : Word) : (s.setShadow a v).mem = s.mem := by rfl
@[simp] theorem State.setShadow_poison (a : Nat) (v : Word) : (s.setShadow a v).poison = s.poison := by rfl
@[simp] theorem State.setShadow_refill (a : Nat) (v : Word) : (s.setShadow a v).refill = s.refill := by rfl
@[simp] theorem State.setShadow_undef (a : Nat) (v : Word) : (s.setShadow a v).undef = s.undef := by rfl
@[simp] theorem State.setShadow_lagged (a : Nat) (v : Word) : (s.setShadow a v).lagged = s.lagged := by rfl
@[simp] theorem State.setShadow_acc (a : Nat) (v : Word) : (s.setShadow a v).acc = s.acc := by rfl
@[simp] theorem State.setShadow_accPoison (a : Nat) (v : Word) : (s.setShadow a v).accPoison = s.accPoison := by rfl
@[simp] theorem State.setShadow_weights (a : Nat) (v : Word) : (s.setShadow a v).weights = s.weights := by rfl
@[simp] theorem State.setShadow_queues (a : Nat) (v : Word) : (s.setShadow a v).queues = s.queues := by rfl
@[simp] theorem State.setShadow_harts (a : Nat) (v : Word) : (s.setShadow a v).harts = s.harts := by rfl
@[simp] theorem State.setShadow_lvseed (a : Nat) (v : Word) : (s.setShadow a v).lvseed = s.lvseed := by rfl
@[simp] theorem State.setShadow_cycles (a : Nat) (v : Word) : (s.setShadow a v).cycles = s.cycles := by rfl
@[simp] theorem State.setShadow_caches (a : Nat) (v : Word) : (s.setShadow a v).caches = s.caches := by rfl
@[simp] theorem State.setShadow_solvers (a : Nat) (v : Word) : (s.setShadow a v).solvers = s.solvers := by rfl
@[simp] theorem State.setShadow_work (a : Nat) (v : Word) : (s.setShadow a v).work = s.work := by rfl
@[simp] theorem State.setShadow_dispatch (a : Nat) (v : Word) : (s.setShadow a v).dispatch = s.dispatch := by rfl
@[simp] theorem State.setShadow_channels (a : Nat) (v : Word) : (s.setShadow a v).channels = s.channels := by rfl
@[simp] theorem State.setShadow_atDecoder (a : Nat) (v : Word) : (s.setShadow a v).atDecoder = s.atDecoder := by rfl
@[simp] theorem State.setShadow_ports (a : Nat) (v : Word) : (s.setShadow a v).ports = s.ports := by rfl
@[simp] theorem State.setShadow_arrived (a : Nat) (v : Word) : (s.setShadow a v).arrived = s.arrived := by rfl
@[simp] theorem State.setShadow_hostIn (a : Nat) (v : Word) : (s.setShadow a v).hostIn = s.hostIn := by rfl
@[simp] theorem State.setShadow_quays (a : Nat) (v : Word) : (s.setShadow a v).quays = s.quays := by rfl
@[simp] theorem State.setShadow_booked (a : Nat) (v : Word) : (s.setShadow a v).booked = s.booked := by rfl
@[simp] theorem State.setShadow_tray (a : Nat) (v : Word) : (s.setShadow a v).tray = s.tray := by rfl
@[simp] theorem State.setShadow_trayNext (a : Nat) (v : Word) : (s.setShadow a v).trayNext = s.trayNext := by rfl
@[simp] theorem State.setShadow_ranks (a : Nat) (v : Word) : (s.setShadow a v).ranks = s.ranks := by rfl
@[simp] theorem State.setShadow_groups (a : Nat) (v : Word) : (s.setShadow a v).groups = s.groups := by rfl
@[simp] theorem State.setShadow_adds (a : Nat) (v : Word) : (s.setShadow a v).adds = s.adds := by rfl
@[simp] theorem State.setShadow_berths (a : Nat) (v : Word) : (s.setShadow a v).berths = s.berths := by rfl
@[simp] theorem State.setShadow_compose (a : Nat) (v : Word) : (s.setShadow a v).compose = s.compose := by rfl
@[simp] theorem State.setShadow_bells (a : Nat) (v : Word) : (s.setShadow a v).bells = s.bells := by rfl
@[simp] theorem State.setShadow_discards (a : Nat) (v : Word) : (s.setShadow a v).discards = s.discards := by rfl
@[simp] theorem State.setShadow_harbour (a : Nat) (v : Word) : (s.setShadow a v).harbour = s.harbour := by rfl
@[simp] theorem State.setShadow_reports (a : Nat) (v : Word) : (s.setShadow a v).reports = s.reports := by rfl
@[simp] theorem State.setShadow_domains (a : Nat) (v : Word) : (s.setShadow a v).domains = s.domains := by rfl
@[simp] theorem State.setShadow_life (a : Nat) (v : Word) : (s.setShadow a v).life = s.life := by rfl
@[simp] theorem State.setShadow_ckpt (a : Nat) (v : Word) : (s.setShadow a v).ckpt = s.ckpt := by rfl
@[simp] theorem State.setShadow_images (a : Nat) (v : Word) : (s.setShadow a v).images = s.images := by rfl
@[simp] theorem State.setShadow_revoked (a : Nat) (v : Word) : (s.setShadow a v).revoked = s.revoked := by rfl
@[simp] theorem State.setShadow_svnMin (a : Nat) (v : Word) : (s.setShadow a v).svnMin = s.svnMin := by rfl
@[simp] theorem State.setShadow_power (a : Nat) (v : Word) : (s.setShadow a v).power = s.power := by rfl
@[simp] theorem State.setShadow_tide (a : Nat) (v : Word) : (s.setShadow a v).tide = s.tide := by rfl
@[simp] theorem State.setShadow_sched (a : Nat) (v : Word) : (s.setShadow a v).sched = s.sched := by rfl
@[simp] theorem State.setShadow_heldActs (a : Nat) (v : Word) : (s.setShadow a v).heldActs = s.heldActs := by rfl
@[simp] theorem State.setShadow_answer (a : Nat) (v : Word) : (s.setShadow a v).answer = s.answer := by rfl
@[simp] theorem State.setShadow_draws (a : Nat) (v : Word) : (s.setShadow a v).draws = s.draws := by rfl

@[simp] theorem State.putReg_pending (b : Block) (o : Nat) (v : Word) : (s.putReg b o v).pending = s.pending := by rfl
@[simp] theorem State.putReg_shadow (b : Block) (o : Nat) (v : Word) : (s.putReg b o v).shadow = s.shadow := by rfl
@[simp] theorem State.putReg_commits (b : Block) (o : Nat) (v : Word) : (s.putReg b o v).commits = s.commits := by rfl
@[simp] theorem State.putReg_dirty (b : Block) (o : Nat) (v : Word) : (s.putReg b o v).dirty = s.dirty := by rfl
@[simp] theorem State.putReg_mem (b : Block) (o : Nat) (v : Word) : (s.putReg b o v).mem = s.mem := by rfl
@[simp] theorem State.putReg_poison (b : Block) (o : Nat) (v : Word) : (s.putReg b o v).poison = s.poison := by rfl
@[simp] theorem State.putReg_refill (b : Block) (o : Nat) (v : Word) : (s.putReg b o v).refill = s.refill := by rfl
@[simp] theorem State.putReg_undef (b : Block) (o : Nat) (v : Word) : (s.putReg b o v).undef = s.undef := by rfl
@[simp] theorem State.putReg_lagged (b : Block) (o : Nat) (v : Word) : (s.putReg b o v).lagged = s.lagged := by rfl
@[simp] theorem State.putReg_acc (b : Block) (o : Nat) (v : Word) : (s.putReg b o v).acc = s.acc := by rfl
@[simp] theorem State.putReg_accPoison (b : Block) (o : Nat) (v : Word) : (s.putReg b o v).accPoison = s.accPoison := by rfl
@[simp] theorem State.putReg_weights (b : Block) (o : Nat) (v : Word) : (s.putReg b o v).weights = s.weights := by rfl
@[simp] theorem State.putReg_queues (b : Block) (o : Nat) (v : Word) : (s.putReg b o v).queues = s.queues := by rfl
@[simp] theorem State.putReg_harts (b : Block) (o : Nat) (v : Word) : (s.putReg b o v).harts = s.harts := by rfl
@[simp] theorem State.putReg_lvseed (b : Block) (o : Nat) (v : Word) : (s.putReg b o v).lvseed = s.lvseed := by rfl
@[simp] theorem State.putReg_cycles (b : Block) (o : Nat) (v : Word) : (s.putReg b o v).cycles = s.cycles := by rfl
@[simp] theorem State.putReg_caches (b : Block) (o : Nat) (v : Word) : (s.putReg b o v).caches = s.caches := by rfl
@[simp] theorem State.putReg_solvers (b : Block) (o : Nat) (v : Word) : (s.putReg b o v).solvers = s.solvers := by rfl
@[simp] theorem State.putReg_work (b : Block) (o : Nat) (v : Word) : (s.putReg b o v).work = s.work := by rfl
@[simp] theorem State.putReg_dispatch (b : Block) (o : Nat) (v : Word) : (s.putReg b o v).dispatch = s.dispatch := by rfl
@[simp] theorem State.putReg_channels (b : Block) (o : Nat) (v : Word) : (s.putReg b o v).channels = s.channels := by rfl
@[simp] theorem State.putReg_atDecoder (b : Block) (o : Nat) (v : Word) : (s.putReg b o v).atDecoder = s.atDecoder := by rfl
@[simp] theorem State.putReg_ports (b : Block) (o : Nat) (v : Word) : (s.putReg b o v).ports = s.ports := by rfl
@[simp] theorem State.putReg_arrived (b : Block) (o : Nat) (v : Word) : (s.putReg b o v).arrived = s.arrived := by rfl
@[simp] theorem State.putReg_hostIn (b : Block) (o : Nat) (v : Word) : (s.putReg b o v).hostIn = s.hostIn := by rfl
@[simp] theorem State.putReg_quays (b : Block) (o : Nat) (v : Word) : (s.putReg b o v).quays = s.quays := by rfl
@[simp] theorem State.putReg_booked (b : Block) (o : Nat) (v : Word) : (s.putReg b o v).booked = s.booked := by rfl
@[simp] theorem State.putReg_tray (b : Block) (o : Nat) (v : Word) : (s.putReg b o v).tray = s.tray := by rfl
@[simp] theorem State.putReg_trayNext (b : Block) (o : Nat) (v : Word) : (s.putReg b o v).trayNext = s.trayNext := by rfl
@[simp] theorem State.putReg_ranks (b : Block) (o : Nat) (v : Word) : (s.putReg b o v).ranks = s.ranks := by rfl
@[simp] theorem State.putReg_groups (b : Block) (o : Nat) (v : Word) : (s.putReg b o v).groups = s.groups := by rfl
@[simp] theorem State.putReg_adds (b : Block) (o : Nat) (v : Word) : (s.putReg b o v).adds = s.adds := by rfl
@[simp] theorem State.putReg_berths (b : Block) (o : Nat) (v : Word) : (s.putReg b o v).berths = s.berths := by rfl
@[simp] theorem State.putReg_compose (b : Block) (o : Nat) (v : Word) : (s.putReg b o v).compose = s.compose := by rfl
@[simp] theorem State.putReg_bells (b : Block) (o : Nat) (v : Word) : (s.putReg b o v).bells = s.bells := by rfl
@[simp] theorem State.putReg_discards (b : Block) (o : Nat) (v : Word) : (s.putReg b o v).discards = s.discards := by rfl
@[simp] theorem State.putReg_harbour (b : Block) (o : Nat) (v : Word) : (s.putReg b o v).harbour = s.harbour := by rfl
@[simp] theorem State.putReg_reports (b : Block) (o : Nat) (v : Word) : (s.putReg b o v).reports = s.reports := by rfl
@[simp] theorem State.putReg_domains (b : Block) (o : Nat) (v : Word) : (s.putReg b o v).domains = s.domains := by rfl
@[simp] theorem State.putReg_life (b : Block) (o : Nat) (v : Word) : (s.putReg b o v).life = s.life := by rfl
@[simp] theorem State.putReg_ckpt (b : Block) (o : Nat) (v : Word) : (s.putReg b o v).ckpt = s.ckpt := by rfl
@[simp] theorem State.putReg_images (b : Block) (o : Nat) (v : Word) : (s.putReg b o v).images = s.images := by rfl
@[simp] theorem State.putReg_revoked (b : Block) (o : Nat) (v : Word) : (s.putReg b o v).revoked = s.revoked := by rfl
@[simp] theorem State.putReg_svnMin (b : Block) (o : Nat) (v : Word) : (s.putReg b o v).svnMin = s.svnMin := by rfl
@[simp] theorem State.putReg_power (b : Block) (o : Nat) (v : Word) : (s.putReg b o v).power = s.power := by rfl
@[simp] theorem State.putReg_tide (b : Block) (o : Nat) (v : Word) : (s.putReg b o v).tide = s.tide := by rfl
@[simp] theorem State.putReg_sched (b : Block) (o : Nat) (v : Word) : (s.putReg b o v).sched = s.sched := by rfl
@[simp] theorem State.putReg_heldActs (b : Block) (o : Nat) (v : Word) : (s.putReg b o v).heldActs = s.heldActs := by rfl
@[simp] theorem State.putReg_answer (b : Block) (o : Nat) (v : Word) : (s.putReg b o v).answer = s.answer := by rfl
@[simp] theorem State.putReg_draws (b : Block) (o : Nat) (v : Word) : (s.putReg b o v).draws = s.draws := by rfl

@[simp] theorem State.putN_pending (b : Block) (o n : Nat) : (s.putN b o n).pending = s.pending := by rfl
@[simp] theorem State.putN_shadow (b : Block) (o n : Nat) : (s.putN b o n).shadow = s.shadow := by rfl
@[simp] theorem State.putN_commits (b : Block) (o n : Nat) : (s.putN b o n).commits = s.commits := by rfl
@[simp] theorem State.putN_dirty (b : Block) (o n : Nat) : (s.putN b o n).dirty = s.dirty := by rfl
@[simp] theorem State.putN_mem (b : Block) (o n : Nat) : (s.putN b o n).mem = s.mem := by rfl
@[simp] theorem State.putN_poison (b : Block) (o n : Nat) : (s.putN b o n).poison = s.poison := by rfl
@[simp] theorem State.putN_refill (b : Block) (o n : Nat) : (s.putN b o n).refill = s.refill := by rfl
@[simp] theorem State.putN_undef (b : Block) (o n : Nat) : (s.putN b o n).undef = s.undef := by rfl
@[simp] theorem State.putN_lagged (b : Block) (o n : Nat) : (s.putN b o n).lagged = s.lagged := by rfl
@[simp] theorem State.putN_acc (b : Block) (o n : Nat) : (s.putN b o n).acc = s.acc := by rfl
@[simp] theorem State.putN_accPoison (b : Block) (o n : Nat) : (s.putN b o n).accPoison = s.accPoison := by rfl
@[simp] theorem State.putN_weights (b : Block) (o n : Nat) : (s.putN b o n).weights = s.weights := by rfl
@[simp] theorem State.putN_queues (b : Block) (o n : Nat) : (s.putN b o n).queues = s.queues := by rfl
@[simp] theorem State.putN_harts (b : Block) (o n : Nat) : (s.putN b o n).harts = s.harts := by rfl
@[simp] theorem State.putN_lvseed (b : Block) (o n : Nat) : (s.putN b o n).lvseed = s.lvseed := by rfl
@[simp] theorem State.putN_cycles (b : Block) (o n : Nat) : (s.putN b o n).cycles = s.cycles := by rfl
@[simp] theorem State.putN_caches (b : Block) (o n : Nat) : (s.putN b o n).caches = s.caches := by rfl
@[simp] theorem State.putN_solvers (b : Block) (o n : Nat) : (s.putN b o n).solvers = s.solvers := by rfl
@[simp] theorem State.putN_work (b : Block) (o n : Nat) : (s.putN b o n).work = s.work := by rfl
@[simp] theorem State.putN_dispatch (b : Block) (o n : Nat) : (s.putN b o n).dispatch = s.dispatch := by rfl
@[simp] theorem State.putN_channels (b : Block) (o n : Nat) : (s.putN b o n).channels = s.channels := by rfl
@[simp] theorem State.putN_atDecoder (b : Block) (o n : Nat) : (s.putN b o n).atDecoder = s.atDecoder := by rfl
@[simp] theorem State.putN_ports (b : Block) (o n : Nat) : (s.putN b o n).ports = s.ports := by rfl
@[simp] theorem State.putN_arrived (b : Block) (o n : Nat) : (s.putN b o n).arrived = s.arrived := by rfl
@[simp] theorem State.putN_hostIn (b : Block) (o n : Nat) : (s.putN b o n).hostIn = s.hostIn := by rfl
@[simp] theorem State.putN_quays (b : Block) (o n : Nat) : (s.putN b o n).quays = s.quays := by rfl
@[simp] theorem State.putN_booked (b : Block) (o n : Nat) : (s.putN b o n).booked = s.booked := by rfl
@[simp] theorem State.putN_tray (b : Block) (o n : Nat) : (s.putN b o n).tray = s.tray := by rfl
@[simp] theorem State.putN_trayNext (b : Block) (o n : Nat) : (s.putN b o n).trayNext = s.trayNext := by rfl
@[simp] theorem State.putN_ranks (b : Block) (o n : Nat) : (s.putN b o n).ranks = s.ranks := by rfl
@[simp] theorem State.putN_groups (b : Block) (o n : Nat) : (s.putN b o n).groups = s.groups := by rfl
@[simp] theorem State.putN_adds (b : Block) (o n : Nat) : (s.putN b o n).adds = s.adds := by rfl
@[simp] theorem State.putN_berths (b : Block) (o n : Nat) : (s.putN b o n).berths = s.berths := by rfl
@[simp] theorem State.putN_compose (b : Block) (o n : Nat) : (s.putN b o n).compose = s.compose := by rfl
@[simp] theorem State.putN_bells (b : Block) (o n : Nat) : (s.putN b o n).bells = s.bells := by rfl
@[simp] theorem State.putN_discards (b : Block) (o n : Nat) : (s.putN b o n).discards = s.discards := by rfl
@[simp] theorem State.putN_harbour (b : Block) (o n : Nat) : (s.putN b o n).harbour = s.harbour := by rfl
@[simp] theorem State.putN_reports (b : Block) (o n : Nat) : (s.putN b o n).reports = s.reports := by rfl
@[simp] theorem State.putN_domains (b : Block) (o n : Nat) : (s.putN b o n).domains = s.domains := by rfl
@[simp] theorem State.putN_life (b : Block) (o n : Nat) : (s.putN b o n).life = s.life := by rfl
@[simp] theorem State.putN_ckpt (b : Block) (o n : Nat) : (s.putN b o n).ckpt = s.ckpt := by rfl
@[simp] theorem State.putN_images (b : Block) (o n : Nat) : (s.putN b o n).images = s.images := by rfl
@[simp] theorem State.putN_revoked (b : Block) (o n : Nat) : (s.putN b o n).revoked = s.revoked := by rfl
@[simp] theorem State.putN_svnMin (b : Block) (o n : Nat) : (s.putN b o n).svnMin = s.svnMin := by rfl
@[simp] theorem State.putN_power (b : Block) (o n : Nat) : (s.putN b o n).power = s.power := by rfl
@[simp] theorem State.putN_tide (b : Block) (o n : Nat) : (s.putN b o n).tide = s.tide := by rfl
@[simp] theorem State.putN_sched (b : Block) (o n : Nat) : (s.putN b o n).sched = s.sched := by rfl
@[simp] theorem State.putN_heldActs (b : Block) (o n : Nat) : (s.putN b o n).heldActs = s.heldActs := by rfl
@[simp] theorem State.putN_answer (b : Block) (o n : Nat) : (s.putN b o n).answer = s.answer := by rfl
@[simp] theorem State.putN_draws (b : Block) (o n : Nat) : (s.putN b o n).draws = s.draws := by rfl

@[simp] theorem State.putFld_pending (b : Block) (o l n v : Nat) : (s.putFld b o l n v).pending = s.pending := by rfl
@[simp] theorem State.putFld_shadow (b : Block) (o l n v : Nat) : (s.putFld b o l n v).shadow = s.shadow := by rfl
@[simp] theorem State.putFld_commits (b : Block) (o l n v : Nat) : (s.putFld b o l n v).commits = s.commits := by rfl
@[simp] theorem State.putFld_dirty (b : Block) (o l n v : Nat) : (s.putFld b o l n v).dirty = s.dirty := by rfl
@[simp] theorem State.putFld_mem (b : Block) (o l n v : Nat) : (s.putFld b o l n v).mem = s.mem := by rfl
@[simp] theorem State.putFld_poison (b : Block) (o l n v : Nat) : (s.putFld b o l n v).poison = s.poison := by rfl
@[simp] theorem State.putFld_refill (b : Block) (o l n v : Nat) : (s.putFld b o l n v).refill = s.refill := by rfl
@[simp] theorem State.putFld_undef (b : Block) (o l n v : Nat) : (s.putFld b o l n v).undef = s.undef := by rfl
@[simp] theorem State.putFld_lagged (b : Block) (o l n v : Nat) : (s.putFld b o l n v).lagged = s.lagged := by rfl
@[simp] theorem State.putFld_acc (b : Block) (o l n v : Nat) : (s.putFld b o l n v).acc = s.acc := by rfl
@[simp] theorem State.putFld_accPoison (b : Block) (o l n v : Nat) : (s.putFld b o l n v).accPoison = s.accPoison := by rfl
@[simp] theorem State.putFld_weights (b : Block) (o l n v : Nat) : (s.putFld b o l n v).weights = s.weights := by rfl
@[simp] theorem State.putFld_queues (b : Block) (o l n v : Nat) : (s.putFld b o l n v).queues = s.queues := by rfl
@[simp] theorem State.putFld_harts (b : Block) (o l n v : Nat) : (s.putFld b o l n v).harts = s.harts := by rfl
@[simp] theorem State.putFld_lvseed (b : Block) (o l n v : Nat) : (s.putFld b o l n v).lvseed = s.lvseed := by rfl
@[simp] theorem State.putFld_cycles (b : Block) (o l n v : Nat) : (s.putFld b o l n v).cycles = s.cycles := by rfl
@[simp] theorem State.putFld_caches (b : Block) (o l n v : Nat) : (s.putFld b o l n v).caches = s.caches := by rfl
@[simp] theorem State.putFld_solvers (b : Block) (o l n v : Nat) : (s.putFld b o l n v).solvers = s.solvers := by rfl
@[simp] theorem State.putFld_work (b : Block) (o l n v : Nat) : (s.putFld b o l n v).work = s.work := by rfl
@[simp] theorem State.putFld_dispatch (b : Block) (o l n v : Nat) : (s.putFld b o l n v).dispatch = s.dispatch := by rfl
@[simp] theorem State.putFld_channels (b : Block) (o l n v : Nat) : (s.putFld b o l n v).channels = s.channels := by rfl
@[simp] theorem State.putFld_atDecoder (b : Block) (o l n v : Nat) : (s.putFld b o l n v).atDecoder = s.atDecoder := by rfl
@[simp] theorem State.putFld_ports (b : Block) (o l n v : Nat) : (s.putFld b o l n v).ports = s.ports := by rfl
@[simp] theorem State.putFld_arrived (b : Block) (o l n v : Nat) : (s.putFld b o l n v).arrived = s.arrived := by rfl
@[simp] theorem State.putFld_hostIn (b : Block) (o l n v : Nat) : (s.putFld b o l n v).hostIn = s.hostIn := by rfl
@[simp] theorem State.putFld_quays (b : Block) (o l n v : Nat) : (s.putFld b o l n v).quays = s.quays := by rfl
@[simp] theorem State.putFld_booked (b : Block) (o l n v : Nat) : (s.putFld b o l n v).booked = s.booked := by rfl
@[simp] theorem State.putFld_tray (b : Block) (o l n v : Nat) : (s.putFld b o l n v).tray = s.tray := by rfl
@[simp] theorem State.putFld_trayNext (b : Block) (o l n v : Nat) : (s.putFld b o l n v).trayNext = s.trayNext := by rfl
@[simp] theorem State.putFld_ranks (b : Block) (o l n v : Nat) : (s.putFld b o l n v).ranks = s.ranks := by rfl
@[simp] theorem State.putFld_groups (b : Block) (o l n v : Nat) : (s.putFld b o l n v).groups = s.groups := by rfl
@[simp] theorem State.putFld_adds (b : Block) (o l n v : Nat) : (s.putFld b o l n v).adds = s.adds := by rfl
@[simp] theorem State.putFld_berths (b : Block) (o l n v : Nat) : (s.putFld b o l n v).berths = s.berths := by rfl
@[simp] theorem State.putFld_compose (b : Block) (o l n v : Nat) : (s.putFld b o l n v).compose = s.compose := by rfl
@[simp] theorem State.putFld_bells (b : Block) (o l n v : Nat) : (s.putFld b o l n v).bells = s.bells := by rfl
@[simp] theorem State.putFld_discards (b : Block) (o l n v : Nat) : (s.putFld b o l n v).discards = s.discards := by rfl
@[simp] theorem State.putFld_harbour (b : Block) (o l n v : Nat) : (s.putFld b o l n v).harbour = s.harbour := by rfl
@[simp] theorem State.putFld_reports (b : Block) (o l n v : Nat) : (s.putFld b o l n v).reports = s.reports := by rfl
@[simp] theorem State.putFld_domains (b : Block) (o l n v : Nat) : (s.putFld b o l n v).domains = s.domains := by rfl
@[simp] theorem State.putFld_life (b : Block) (o l n v : Nat) : (s.putFld b o l n v).life = s.life := by rfl
@[simp] theorem State.putFld_ckpt (b : Block) (o l n v : Nat) : (s.putFld b o l n v).ckpt = s.ckpt := by rfl
@[simp] theorem State.putFld_images (b : Block) (o l n v : Nat) : (s.putFld b o l n v).images = s.images := by rfl
@[simp] theorem State.putFld_revoked (b : Block) (o l n v : Nat) : (s.putFld b o l n v).revoked = s.revoked := by rfl
@[simp] theorem State.putFld_svnMin (b : Block) (o l n v : Nat) : (s.putFld b o l n v).svnMin = s.svnMin := by rfl
@[simp] theorem State.putFld_power (b : Block) (o l n v : Nat) : (s.putFld b o l n v).power = s.power := by rfl
@[simp] theorem State.putFld_tide (b : Block) (o l n v : Nat) : (s.putFld b o l n v).tide = s.tide := by rfl
@[simp] theorem State.putFld_sched (b : Block) (o l n v : Nat) : (s.putFld b o l n v).sched = s.sched := by rfl
@[simp] theorem State.putFld_heldActs (b : Block) (o l n v : Nat) : (s.putFld b o l n v).heldActs = s.heldActs := by rfl
@[simp] theorem State.putFld_answer (b : Block) (o l n v : Nat) : (s.putFld b o l n v).answer = s.answer := by rfl
@[simp] theorem State.putFld_draws (b : Block) (o l n v : Nat) : (s.putFld b o l n v).draws = s.draws := by rfl

@[simp] theorem State.putBit_pending (b : Block) (o i : Nat) (v : Bool) : (s.putBit b o i v).pending = s.pending := by rfl
@[simp] theorem State.putBit_shadow (b : Block) (o i : Nat) (v : Bool) : (s.putBit b o i v).shadow = s.shadow := by rfl
@[simp] theorem State.putBit_commits (b : Block) (o i : Nat) (v : Bool) : (s.putBit b o i v).commits = s.commits := by rfl
@[simp] theorem State.putBit_dirty (b : Block) (o i : Nat) (v : Bool) : (s.putBit b o i v).dirty = s.dirty := by rfl
@[simp] theorem State.putBit_mem (b : Block) (o i : Nat) (v : Bool) : (s.putBit b o i v).mem = s.mem := by rfl
@[simp] theorem State.putBit_poison (b : Block) (o i : Nat) (v : Bool) : (s.putBit b o i v).poison = s.poison := by rfl
@[simp] theorem State.putBit_refill (b : Block) (o i : Nat) (v : Bool) : (s.putBit b o i v).refill = s.refill := by rfl
@[simp] theorem State.putBit_undef (b : Block) (o i : Nat) (v : Bool) : (s.putBit b o i v).undef = s.undef := by rfl
@[simp] theorem State.putBit_lagged (b : Block) (o i : Nat) (v : Bool) : (s.putBit b o i v).lagged = s.lagged := by rfl
@[simp] theorem State.putBit_acc (b : Block) (o i : Nat) (v : Bool) : (s.putBit b o i v).acc = s.acc := by rfl
@[simp] theorem State.putBit_accPoison (b : Block) (o i : Nat) (v : Bool) : (s.putBit b o i v).accPoison = s.accPoison := by rfl
@[simp] theorem State.putBit_weights (b : Block) (o i : Nat) (v : Bool) : (s.putBit b o i v).weights = s.weights := by rfl
@[simp] theorem State.putBit_queues (b : Block) (o i : Nat) (v : Bool) : (s.putBit b o i v).queues = s.queues := by rfl
@[simp] theorem State.putBit_harts (b : Block) (o i : Nat) (v : Bool) : (s.putBit b o i v).harts = s.harts := by rfl
@[simp] theorem State.putBit_lvseed (b : Block) (o i : Nat) (v : Bool) : (s.putBit b o i v).lvseed = s.lvseed := by rfl
@[simp] theorem State.putBit_cycles (b : Block) (o i : Nat) (v : Bool) : (s.putBit b o i v).cycles = s.cycles := by rfl
@[simp] theorem State.putBit_caches (b : Block) (o i : Nat) (v : Bool) : (s.putBit b o i v).caches = s.caches := by rfl
@[simp] theorem State.putBit_solvers (b : Block) (o i : Nat) (v : Bool) : (s.putBit b o i v).solvers = s.solvers := by rfl
@[simp] theorem State.putBit_work (b : Block) (o i : Nat) (v : Bool) : (s.putBit b o i v).work = s.work := by rfl
@[simp] theorem State.putBit_dispatch (b : Block) (o i : Nat) (v : Bool) : (s.putBit b o i v).dispatch = s.dispatch := by rfl
@[simp] theorem State.putBit_channels (b : Block) (o i : Nat) (v : Bool) : (s.putBit b o i v).channels = s.channels := by rfl
@[simp] theorem State.putBit_atDecoder (b : Block) (o i : Nat) (v : Bool) : (s.putBit b o i v).atDecoder = s.atDecoder := by rfl
@[simp] theorem State.putBit_ports (b : Block) (o i : Nat) (v : Bool) : (s.putBit b o i v).ports = s.ports := by rfl
@[simp] theorem State.putBit_arrived (b : Block) (o i : Nat) (v : Bool) : (s.putBit b o i v).arrived = s.arrived := by rfl
@[simp] theorem State.putBit_hostIn (b : Block) (o i : Nat) (v : Bool) : (s.putBit b o i v).hostIn = s.hostIn := by rfl
@[simp] theorem State.putBit_quays (b : Block) (o i : Nat) (v : Bool) : (s.putBit b o i v).quays = s.quays := by rfl
@[simp] theorem State.putBit_booked (b : Block) (o i : Nat) (v : Bool) : (s.putBit b o i v).booked = s.booked := by rfl
@[simp] theorem State.putBit_tray (b : Block) (o i : Nat) (v : Bool) : (s.putBit b o i v).tray = s.tray := by rfl
@[simp] theorem State.putBit_trayNext (b : Block) (o i : Nat) (v : Bool) : (s.putBit b o i v).trayNext = s.trayNext := by rfl
@[simp] theorem State.putBit_ranks (b : Block) (o i : Nat) (v : Bool) : (s.putBit b o i v).ranks = s.ranks := by rfl
@[simp] theorem State.putBit_groups (b : Block) (o i : Nat) (v : Bool) : (s.putBit b o i v).groups = s.groups := by rfl
@[simp] theorem State.putBit_adds (b : Block) (o i : Nat) (v : Bool) : (s.putBit b o i v).adds = s.adds := by rfl
@[simp] theorem State.putBit_berths (b : Block) (o i : Nat) (v : Bool) : (s.putBit b o i v).berths = s.berths := by rfl
@[simp] theorem State.putBit_compose (b : Block) (o i : Nat) (v : Bool) : (s.putBit b o i v).compose = s.compose := by rfl
@[simp] theorem State.putBit_bells (b : Block) (o i : Nat) (v : Bool) : (s.putBit b o i v).bells = s.bells := by rfl
@[simp] theorem State.putBit_discards (b : Block) (o i : Nat) (v : Bool) : (s.putBit b o i v).discards = s.discards := by rfl
@[simp] theorem State.putBit_harbour (b : Block) (o i : Nat) (v : Bool) : (s.putBit b o i v).harbour = s.harbour := by rfl
@[simp] theorem State.putBit_reports (b : Block) (o i : Nat) (v : Bool) : (s.putBit b o i v).reports = s.reports := by rfl
@[simp] theorem State.putBit_domains (b : Block) (o i : Nat) (v : Bool) : (s.putBit b o i v).domains = s.domains := by rfl
@[simp] theorem State.putBit_life (b : Block) (o i : Nat) (v : Bool) : (s.putBit b o i v).life = s.life := by rfl
@[simp] theorem State.putBit_ckpt (b : Block) (o i : Nat) (v : Bool) : (s.putBit b o i v).ckpt = s.ckpt := by rfl
@[simp] theorem State.putBit_images (b : Block) (o i : Nat) (v : Bool) : (s.putBit b o i v).images = s.images := by rfl
@[simp] theorem State.putBit_revoked (b : Block) (o i : Nat) (v : Bool) : (s.putBit b o i v).revoked = s.revoked := by rfl
@[simp] theorem State.putBit_svnMin (b : Block) (o i : Nat) (v : Bool) : (s.putBit b o i v).svnMin = s.svnMin := by rfl
@[simp] theorem State.putBit_power (b : Block) (o i : Nat) (v : Bool) : (s.putBit b o i v).power = s.power := by rfl
@[simp] theorem State.putBit_tide (b : Block) (o i : Nat) (v : Bool) : (s.putBit b o i v).tide = s.tide := by rfl
@[simp] theorem State.putBit_sched (b : Block) (o i : Nat) (v : Bool) : (s.putBit b o i v).sched = s.sched := by rfl
@[simp] theorem State.putBit_heldActs (b : Block) (o i : Nat) (v : Bool) : (s.putBit b o i v).heldActs = s.heldActs := by rfl
@[simp] theorem State.putBit_answer (b : Block) (o i : Nat) (v : Bool) : (s.putBit b o i v).answer = s.answer := by rfl
@[simp] theorem State.putBit_draws (b : Block) (o i : Nat) (v : Bool) : (s.putBit b o i v).draws = s.draws := by rfl

@[simp] theorem State.addWrap_pending (b : Block) (o l n v : Nat) : (s.addWrap b o l n v).pending = s.pending := by rfl
@[simp] theorem State.addWrap_shadow (b : Block) (o l n v : Nat) : (s.addWrap b o l n v).shadow = s.shadow := by rfl
@[simp] theorem State.addWrap_commits (b : Block) (o l n v : Nat) : (s.addWrap b o l n v).commits = s.commits := by rfl
@[simp] theorem State.addWrap_dirty (b : Block) (o l n v : Nat) : (s.addWrap b o l n v).dirty = s.dirty := by rfl
@[simp] theorem State.addWrap_mem (b : Block) (o l n v : Nat) : (s.addWrap b o l n v).mem = s.mem := by rfl
@[simp] theorem State.addWrap_poison (b : Block) (o l n v : Nat) : (s.addWrap b o l n v).poison = s.poison := by rfl
@[simp] theorem State.addWrap_refill (b : Block) (o l n v : Nat) : (s.addWrap b o l n v).refill = s.refill := by rfl
@[simp] theorem State.addWrap_undef (b : Block) (o l n v : Nat) : (s.addWrap b o l n v).undef = s.undef := by rfl
@[simp] theorem State.addWrap_lagged (b : Block) (o l n v : Nat) : (s.addWrap b o l n v).lagged = s.lagged := by rfl
@[simp] theorem State.addWrap_acc (b : Block) (o l n v : Nat) : (s.addWrap b o l n v).acc = s.acc := by rfl
@[simp] theorem State.addWrap_accPoison (b : Block) (o l n v : Nat) : (s.addWrap b o l n v).accPoison = s.accPoison := by rfl
@[simp] theorem State.addWrap_weights (b : Block) (o l n v : Nat) : (s.addWrap b o l n v).weights = s.weights := by rfl
@[simp] theorem State.addWrap_queues (b : Block) (o l n v : Nat) : (s.addWrap b o l n v).queues = s.queues := by rfl
@[simp] theorem State.addWrap_harts (b : Block) (o l n v : Nat) : (s.addWrap b o l n v).harts = s.harts := by rfl
@[simp] theorem State.addWrap_lvseed (b : Block) (o l n v : Nat) : (s.addWrap b o l n v).lvseed = s.lvseed := by rfl
@[simp] theorem State.addWrap_cycles (b : Block) (o l n v : Nat) : (s.addWrap b o l n v).cycles = s.cycles := by rfl
@[simp] theorem State.addWrap_caches (b : Block) (o l n v : Nat) : (s.addWrap b o l n v).caches = s.caches := by rfl
@[simp] theorem State.addWrap_solvers (b : Block) (o l n v : Nat) : (s.addWrap b o l n v).solvers = s.solvers := by rfl
@[simp] theorem State.addWrap_work (b : Block) (o l n v : Nat) : (s.addWrap b o l n v).work = s.work := by rfl
@[simp] theorem State.addWrap_dispatch (b : Block) (o l n v : Nat) : (s.addWrap b o l n v).dispatch = s.dispatch := by rfl
@[simp] theorem State.addWrap_channels (b : Block) (o l n v : Nat) : (s.addWrap b o l n v).channels = s.channels := by rfl
@[simp] theorem State.addWrap_atDecoder (b : Block) (o l n v : Nat) : (s.addWrap b o l n v).atDecoder = s.atDecoder := by rfl
@[simp] theorem State.addWrap_ports (b : Block) (o l n v : Nat) : (s.addWrap b o l n v).ports = s.ports := by rfl
@[simp] theorem State.addWrap_arrived (b : Block) (o l n v : Nat) : (s.addWrap b o l n v).arrived = s.arrived := by rfl
@[simp] theorem State.addWrap_hostIn (b : Block) (o l n v : Nat) : (s.addWrap b o l n v).hostIn = s.hostIn := by rfl
@[simp] theorem State.addWrap_quays (b : Block) (o l n v : Nat) : (s.addWrap b o l n v).quays = s.quays := by rfl
@[simp] theorem State.addWrap_booked (b : Block) (o l n v : Nat) : (s.addWrap b o l n v).booked = s.booked := by rfl
@[simp] theorem State.addWrap_tray (b : Block) (o l n v : Nat) : (s.addWrap b o l n v).tray = s.tray := by rfl
@[simp] theorem State.addWrap_trayNext (b : Block) (o l n v : Nat) : (s.addWrap b o l n v).trayNext = s.trayNext := by rfl
@[simp] theorem State.addWrap_ranks (b : Block) (o l n v : Nat) : (s.addWrap b o l n v).ranks = s.ranks := by rfl
@[simp] theorem State.addWrap_groups (b : Block) (o l n v : Nat) : (s.addWrap b o l n v).groups = s.groups := by rfl
@[simp] theorem State.addWrap_adds (b : Block) (o l n v : Nat) : (s.addWrap b o l n v).adds = s.adds := by rfl
@[simp] theorem State.addWrap_berths (b : Block) (o l n v : Nat) : (s.addWrap b o l n v).berths = s.berths := by rfl
@[simp] theorem State.addWrap_compose (b : Block) (o l n v : Nat) : (s.addWrap b o l n v).compose = s.compose := by rfl
@[simp] theorem State.addWrap_bells (b : Block) (o l n v : Nat) : (s.addWrap b o l n v).bells = s.bells := by rfl
@[simp] theorem State.addWrap_discards (b : Block) (o l n v : Nat) : (s.addWrap b o l n v).discards = s.discards := by rfl
@[simp] theorem State.addWrap_harbour (b : Block) (o l n v : Nat) : (s.addWrap b o l n v).harbour = s.harbour := by rfl
@[simp] theorem State.addWrap_reports (b : Block) (o l n v : Nat) : (s.addWrap b o l n v).reports = s.reports := by rfl
@[simp] theorem State.addWrap_domains (b : Block) (o l n v : Nat) : (s.addWrap b o l n v).domains = s.domains := by rfl
@[simp] theorem State.addWrap_life (b : Block) (o l n v : Nat) : (s.addWrap b o l n v).life = s.life := by rfl
@[simp] theorem State.addWrap_ckpt (b : Block) (o l n v : Nat) : (s.addWrap b o l n v).ckpt = s.ckpt := by rfl
@[simp] theorem State.addWrap_images (b : Block) (o l n v : Nat) : (s.addWrap b o l n v).images = s.images := by rfl
@[simp] theorem State.addWrap_revoked (b : Block) (o l n v : Nat) : (s.addWrap b o l n v).revoked = s.revoked := by rfl
@[simp] theorem State.addWrap_svnMin (b : Block) (o l n v : Nat) : (s.addWrap b o l n v).svnMin = s.svnMin := by rfl
@[simp] theorem State.addWrap_power (b : Block) (o l n v : Nat) : (s.addWrap b o l n v).power = s.power := by rfl
@[simp] theorem State.addWrap_tide (b : Block) (o l n v : Nat) : (s.addWrap b o l n v).tide = s.tide := by rfl
@[simp] theorem State.addWrap_sched (b : Block) (o l n v : Nat) : (s.addWrap b o l n v).sched = s.sched := by rfl
@[simp] theorem State.addWrap_heldActs (b : Block) (o l n v : Nat) : (s.addWrap b o l n v).heldActs = s.heldActs := by rfl
@[simp] theorem State.addWrap_answer (b : Block) (o l n v : Nat) : (s.addWrap b o l n v).answer = s.answer := by rfl
@[simp] theorem State.addWrap_draws (b : Block) (o l n v : Nat) : (s.addWrap b o l n v).draws = s.draws := by rfl

@[simp] theorem State.addSat_pending (b : Block) (o l n v : Nat) : (s.addSat b o l n v).pending = s.pending := by rfl
@[simp] theorem State.addSat_shadow (b : Block) (o l n v : Nat) : (s.addSat b o l n v).shadow = s.shadow := by rfl
@[simp] theorem State.addSat_commits (b : Block) (o l n v : Nat) : (s.addSat b o l n v).commits = s.commits := by rfl
@[simp] theorem State.addSat_dirty (b : Block) (o l n v : Nat) : (s.addSat b o l n v).dirty = s.dirty := by rfl
@[simp] theorem State.addSat_mem (b : Block) (o l n v : Nat) : (s.addSat b o l n v).mem = s.mem := by rfl
@[simp] theorem State.addSat_poison (b : Block) (o l n v : Nat) : (s.addSat b o l n v).poison = s.poison := by rfl
@[simp] theorem State.addSat_refill (b : Block) (o l n v : Nat) : (s.addSat b o l n v).refill = s.refill := by rfl
@[simp] theorem State.addSat_undef (b : Block) (o l n v : Nat) : (s.addSat b o l n v).undef = s.undef := by rfl
@[simp] theorem State.addSat_lagged (b : Block) (o l n v : Nat) : (s.addSat b o l n v).lagged = s.lagged := by rfl
@[simp] theorem State.addSat_acc (b : Block) (o l n v : Nat) : (s.addSat b o l n v).acc = s.acc := by rfl
@[simp] theorem State.addSat_accPoison (b : Block) (o l n v : Nat) : (s.addSat b o l n v).accPoison = s.accPoison := by rfl
@[simp] theorem State.addSat_weights (b : Block) (o l n v : Nat) : (s.addSat b o l n v).weights = s.weights := by rfl
@[simp] theorem State.addSat_queues (b : Block) (o l n v : Nat) : (s.addSat b o l n v).queues = s.queues := by rfl
@[simp] theorem State.addSat_harts (b : Block) (o l n v : Nat) : (s.addSat b o l n v).harts = s.harts := by rfl
@[simp] theorem State.addSat_lvseed (b : Block) (o l n v : Nat) : (s.addSat b o l n v).lvseed = s.lvseed := by rfl
@[simp] theorem State.addSat_cycles (b : Block) (o l n v : Nat) : (s.addSat b o l n v).cycles = s.cycles := by rfl
@[simp] theorem State.addSat_caches (b : Block) (o l n v : Nat) : (s.addSat b o l n v).caches = s.caches := by rfl
@[simp] theorem State.addSat_solvers (b : Block) (o l n v : Nat) : (s.addSat b o l n v).solvers = s.solvers := by rfl
@[simp] theorem State.addSat_work (b : Block) (o l n v : Nat) : (s.addSat b o l n v).work = s.work := by rfl
@[simp] theorem State.addSat_dispatch (b : Block) (o l n v : Nat) : (s.addSat b o l n v).dispatch = s.dispatch := by rfl
@[simp] theorem State.addSat_channels (b : Block) (o l n v : Nat) : (s.addSat b o l n v).channels = s.channels := by rfl
@[simp] theorem State.addSat_atDecoder (b : Block) (o l n v : Nat) : (s.addSat b o l n v).atDecoder = s.atDecoder := by rfl
@[simp] theorem State.addSat_ports (b : Block) (o l n v : Nat) : (s.addSat b o l n v).ports = s.ports := by rfl
@[simp] theorem State.addSat_arrived (b : Block) (o l n v : Nat) : (s.addSat b o l n v).arrived = s.arrived := by rfl
@[simp] theorem State.addSat_hostIn (b : Block) (o l n v : Nat) : (s.addSat b o l n v).hostIn = s.hostIn := by rfl
@[simp] theorem State.addSat_quays (b : Block) (o l n v : Nat) : (s.addSat b o l n v).quays = s.quays := by rfl
@[simp] theorem State.addSat_booked (b : Block) (o l n v : Nat) : (s.addSat b o l n v).booked = s.booked := by rfl
@[simp] theorem State.addSat_tray (b : Block) (o l n v : Nat) : (s.addSat b o l n v).tray = s.tray := by rfl
@[simp] theorem State.addSat_trayNext (b : Block) (o l n v : Nat) : (s.addSat b o l n v).trayNext = s.trayNext := by rfl
@[simp] theorem State.addSat_ranks (b : Block) (o l n v : Nat) : (s.addSat b o l n v).ranks = s.ranks := by rfl
@[simp] theorem State.addSat_groups (b : Block) (o l n v : Nat) : (s.addSat b o l n v).groups = s.groups := by rfl
@[simp] theorem State.addSat_adds (b : Block) (o l n v : Nat) : (s.addSat b o l n v).adds = s.adds := by rfl
@[simp] theorem State.addSat_berths (b : Block) (o l n v : Nat) : (s.addSat b o l n v).berths = s.berths := by rfl
@[simp] theorem State.addSat_compose (b : Block) (o l n v : Nat) : (s.addSat b o l n v).compose = s.compose := by rfl
@[simp] theorem State.addSat_bells (b : Block) (o l n v : Nat) : (s.addSat b o l n v).bells = s.bells := by rfl
@[simp] theorem State.addSat_discards (b : Block) (o l n v : Nat) : (s.addSat b o l n v).discards = s.discards := by rfl
@[simp] theorem State.addSat_harbour (b : Block) (o l n v : Nat) : (s.addSat b o l n v).harbour = s.harbour := by rfl
@[simp] theorem State.addSat_reports (b : Block) (o l n v : Nat) : (s.addSat b o l n v).reports = s.reports := by rfl
@[simp] theorem State.addSat_domains (b : Block) (o l n v : Nat) : (s.addSat b o l n v).domains = s.domains := by rfl
@[simp] theorem State.addSat_life (b : Block) (o l n v : Nat) : (s.addSat b o l n v).life = s.life := by rfl
@[simp] theorem State.addSat_ckpt (b : Block) (o l n v : Nat) : (s.addSat b o l n v).ckpt = s.ckpt := by rfl
@[simp] theorem State.addSat_images (b : Block) (o l n v : Nat) : (s.addSat b o l n v).images = s.images := by rfl
@[simp] theorem State.addSat_revoked (b : Block) (o l n v : Nat) : (s.addSat b o l n v).revoked = s.revoked := by rfl
@[simp] theorem State.addSat_svnMin (b : Block) (o l n v : Nat) : (s.addSat b o l n v).svnMin = s.svnMin := by rfl
@[simp] theorem State.addSat_power (b : Block) (o l n v : Nat) : (s.addSat b o l n v).power = s.power := by rfl
@[simp] theorem State.addSat_tide (b : Block) (o l n v : Nat) : (s.addSat b o l n v).tide = s.tide := by rfl
@[simp] theorem State.addSat_sched (b : Block) (o l n v : Nat) : (s.addSat b o l n v).sched = s.sched := by rfl
@[simp] theorem State.addSat_heldActs (b : Block) (o l n v : Nat) : (s.addSat b o l n v).heldActs = s.heldActs := by rfl
@[simp] theorem State.addSat_answer (b : Block) (o l n v : Nat) : (s.addSat b o l n v).answer = s.answer := by rfl
@[simp] theorem State.addSat_draws (b : Block) (o l n v : Nat) : (s.addSat b o l n v).draws = s.draws := by rfl

@[simp] theorem State.reject_pending (b : Block) : (s.reject b).pending = s.pending := by rfl
@[simp] theorem State.reject_shadow (b : Block) : (s.reject b).shadow = s.shadow := by rfl
@[simp] theorem State.reject_commits (b : Block) : (s.reject b).commits = s.commits := by rfl
@[simp] theorem State.reject_dirty (b : Block) : (s.reject b).dirty = s.dirty := by rfl
@[simp] theorem State.reject_mem (b : Block) : (s.reject b).mem = s.mem := by rfl
@[simp] theorem State.reject_poison (b : Block) : (s.reject b).poison = s.poison := by rfl
@[simp] theorem State.reject_refill (b : Block) : (s.reject b).refill = s.refill := by rfl
@[simp] theorem State.reject_undef (b : Block) : (s.reject b).undef = s.undef := by rfl
@[simp] theorem State.reject_lagged (b : Block) : (s.reject b).lagged = s.lagged := by rfl
@[simp] theorem State.reject_acc (b : Block) : (s.reject b).acc = s.acc := by rfl
@[simp] theorem State.reject_accPoison (b : Block) : (s.reject b).accPoison = s.accPoison := by rfl
@[simp] theorem State.reject_weights (b : Block) : (s.reject b).weights = s.weights := by rfl
@[simp] theorem State.reject_queues (b : Block) : (s.reject b).queues = s.queues := by rfl
@[simp] theorem State.reject_harts (b : Block) : (s.reject b).harts = s.harts := by rfl
@[simp] theorem State.reject_lvseed (b : Block) : (s.reject b).lvseed = s.lvseed := by rfl
@[simp] theorem State.reject_cycles (b : Block) : (s.reject b).cycles = s.cycles := by rfl
@[simp] theorem State.reject_caches (b : Block) : (s.reject b).caches = s.caches := by rfl
@[simp] theorem State.reject_solvers (b : Block) : (s.reject b).solvers = s.solvers := by rfl
@[simp] theorem State.reject_work (b : Block) : (s.reject b).work = s.work := by rfl
@[simp] theorem State.reject_dispatch (b : Block) : (s.reject b).dispatch = s.dispatch := by rfl
@[simp] theorem State.reject_channels (b : Block) : (s.reject b).channels = s.channels := by rfl
@[simp] theorem State.reject_atDecoder (b : Block) : (s.reject b).atDecoder = s.atDecoder := by rfl
@[simp] theorem State.reject_ports (b : Block) : (s.reject b).ports = s.ports := by rfl
@[simp] theorem State.reject_arrived (b : Block) : (s.reject b).arrived = s.arrived := by rfl
@[simp] theorem State.reject_hostIn (b : Block) : (s.reject b).hostIn = s.hostIn := by rfl
@[simp] theorem State.reject_quays (b : Block) : (s.reject b).quays = s.quays := by rfl
@[simp] theorem State.reject_booked (b : Block) : (s.reject b).booked = s.booked := by rfl
@[simp] theorem State.reject_tray (b : Block) : (s.reject b).tray = s.tray := by rfl
@[simp] theorem State.reject_trayNext (b : Block) : (s.reject b).trayNext = s.trayNext := by rfl
@[simp] theorem State.reject_ranks (b : Block) : (s.reject b).ranks = s.ranks := by rfl
@[simp] theorem State.reject_groups (b : Block) : (s.reject b).groups = s.groups := by rfl
@[simp] theorem State.reject_adds (b : Block) : (s.reject b).adds = s.adds := by rfl
@[simp] theorem State.reject_berths (b : Block) : (s.reject b).berths = s.berths := by rfl
@[simp] theorem State.reject_compose (b : Block) : (s.reject b).compose = s.compose := by rfl
@[simp] theorem State.reject_bells (b : Block) : (s.reject b).bells = s.bells := by rfl
@[simp] theorem State.reject_discards (b : Block) : (s.reject b).discards = s.discards := by rfl
@[simp] theorem State.reject_harbour (b : Block) : (s.reject b).harbour = s.harbour := by rfl
@[simp] theorem State.reject_reports (b : Block) : (s.reject b).reports = s.reports := by rfl
@[simp] theorem State.reject_domains (b : Block) : (s.reject b).domains = s.domains := by rfl
@[simp] theorem State.reject_life (b : Block) : (s.reject b).life = s.life := by rfl
@[simp] theorem State.reject_ckpt (b : Block) : (s.reject b).ckpt = s.ckpt := by rfl
@[simp] theorem State.reject_images (b : Block) : (s.reject b).images = s.images := by rfl
@[simp] theorem State.reject_revoked (b : Block) : (s.reject b).revoked = s.revoked := by rfl
@[simp] theorem State.reject_svnMin (b : Block) : (s.reject b).svnMin = s.svnMin := by rfl
@[simp] theorem State.reject_power (b : Block) : (s.reject b).power = s.power := by rfl
@[simp] theorem State.reject_tide (b : Block) : (s.reject b).tide = s.tide := by rfl
@[simp] theorem State.reject_sched (b : Block) : (s.reject b).sched = s.sched := by rfl
@[simp] theorem State.reject_heldActs (b : Block) : (s.reject b).heldActs = s.heldActs := by rfl
@[simp] theorem State.reject_answer (b : Block) : (s.reject b).answer = s.answer := by rfl
@[simp] theorem State.reject_draws (b : Block) : (s.reject b).draws = s.draws := by rfl

@[simp] theorem State.putBoth_pending (b : Block) (o : Nat) (v : Word) : (s.putBoth b o v).pending = s.pending := by rfl
@[simp] theorem State.putBoth_commits (b : Block) (o : Nat) (v : Word) : (s.putBoth b o v).commits = s.commits := by rfl
@[simp] theorem State.putBoth_dirty (b : Block) (o : Nat) (v : Word) : (s.putBoth b o v).dirty = s.dirty := by rfl
@[simp] theorem State.putBoth_mem (b : Block) (o : Nat) (v : Word) : (s.putBoth b o v).mem = s.mem := by rfl
@[simp] theorem State.putBoth_poison (b : Block) (o : Nat) (v : Word) : (s.putBoth b o v).poison = s.poison := by rfl
@[simp] theorem State.putBoth_refill (b : Block) (o : Nat) (v : Word) : (s.putBoth b o v).refill = s.refill := by rfl
@[simp] theorem State.putBoth_undef (b : Block) (o : Nat) (v : Word) : (s.putBoth b o v).undef = s.undef := by rfl
@[simp] theorem State.putBoth_lagged (b : Block) (o : Nat) (v : Word) : (s.putBoth b o v).lagged = s.lagged := by rfl
@[simp] theorem State.putBoth_acc (b : Block) (o : Nat) (v : Word) : (s.putBoth b o v).acc = s.acc := by rfl
@[simp] theorem State.putBoth_accPoison (b : Block) (o : Nat) (v : Word) : (s.putBoth b o v).accPoison = s.accPoison := by rfl
@[simp] theorem State.putBoth_weights (b : Block) (o : Nat) (v : Word) : (s.putBoth b o v).weights = s.weights := by rfl
@[simp] theorem State.putBoth_queues (b : Block) (o : Nat) (v : Word) : (s.putBoth b o v).queues = s.queues := by rfl
@[simp] theorem State.putBoth_harts (b : Block) (o : Nat) (v : Word) : (s.putBoth b o v).harts = s.harts := by rfl
@[simp] theorem State.putBoth_lvseed (b : Block) (o : Nat) (v : Word) : (s.putBoth b o v).lvseed = s.lvseed := by rfl
@[simp] theorem State.putBoth_cycles (b : Block) (o : Nat) (v : Word) : (s.putBoth b o v).cycles = s.cycles := by rfl
@[simp] theorem State.putBoth_caches (b : Block) (o : Nat) (v : Word) : (s.putBoth b o v).caches = s.caches := by rfl
@[simp] theorem State.putBoth_solvers (b : Block) (o : Nat) (v : Word) : (s.putBoth b o v).solvers = s.solvers := by rfl
@[simp] theorem State.putBoth_work (b : Block) (o : Nat) (v : Word) : (s.putBoth b o v).work = s.work := by rfl
@[simp] theorem State.putBoth_dispatch (b : Block) (o : Nat) (v : Word) : (s.putBoth b o v).dispatch = s.dispatch := by rfl
@[simp] theorem State.putBoth_channels (b : Block) (o : Nat) (v : Word) : (s.putBoth b o v).channels = s.channels := by rfl
@[simp] theorem State.putBoth_atDecoder (b : Block) (o : Nat) (v : Word) : (s.putBoth b o v).atDecoder = s.atDecoder := by rfl
@[simp] theorem State.putBoth_ports (b : Block) (o : Nat) (v : Word) : (s.putBoth b o v).ports = s.ports := by rfl
@[simp] theorem State.putBoth_arrived (b : Block) (o : Nat) (v : Word) : (s.putBoth b o v).arrived = s.arrived := by rfl
@[simp] theorem State.putBoth_hostIn (b : Block) (o : Nat) (v : Word) : (s.putBoth b o v).hostIn = s.hostIn := by rfl
@[simp] theorem State.putBoth_quays (b : Block) (o : Nat) (v : Word) : (s.putBoth b o v).quays = s.quays := by rfl
@[simp] theorem State.putBoth_booked (b : Block) (o : Nat) (v : Word) : (s.putBoth b o v).booked = s.booked := by rfl
@[simp] theorem State.putBoth_tray (b : Block) (o : Nat) (v : Word) : (s.putBoth b o v).tray = s.tray := by rfl
@[simp] theorem State.putBoth_trayNext (b : Block) (o : Nat) (v : Word) : (s.putBoth b o v).trayNext = s.trayNext := by rfl
@[simp] theorem State.putBoth_ranks (b : Block) (o : Nat) (v : Word) : (s.putBoth b o v).ranks = s.ranks := by rfl
@[simp] theorem State.putBoth_groups (b : Block) (o : Nat) (v : Word) : (s.putBoth b o v).groups = s.groups := by rfl
@[simp] theorem State.putBoth_adds (b : Block) (o : Nat) (v : Word) : (s.putBoth b o v).adds = s.adds := by rfl
@[simp] theorem State.putBoth_berths (b : Block) (o : Nat) (v : Word) : (s.putBoth b o v).berths = s.berths := by rfl
@[simp] theorem State.putBoth_compose (b : Block) (o : Nat) (v : Word) : (s.putBoth b o v).compose = s.compose := by rfl
@[simp] theorem State.putBoth_bells (b : Block) (o : Nat) (v : Word) : (s.putBoth b o v).bells = s.bells := by rfl
@[simp] theorem State.putBoth_discards (b : Block) (o : Nat) (v : Word) : (s.putBoth b o v).discards = s.discards := by rfl
@[simp] theorem State.putBoth_harbour (b : Block) (o : Nat) (v : Word) : (s.putBoth b o v).harbour = s.harbour := by rfl
@[simp] theorem State.putBoth_reports (b : Block) (o : Nat) (v : Word) : (s.putBoth b o v).reports = s.reports := by rfl
@[simp] theorem State.putBoth_domains (b : Block) (o : Nat) (v : Word) : (s.putBoth b o v).domains = s.domains := by rfl
@[simp] theorem State.putBoth_life (b : Block) (o : Nat) (v : Word) : (s.putBoth b o v).life = s.life := by rfl
@[simp] theorem State.putBoth_ckpt (b : Block) (o : Nat) (v : Word) : (s.putBoth b o v).ckpt = s.ckpt := by rfl
@[simp] theorem State.putBoth_images (b : Block) (o : Nat) (v : Word) : (s.putBoth b o v).images = s.images := by rfl
@[simp] theorem State.putBoth_revoked (b : Block) (o : Nat) (v : Word) : (s.putBoth b o v).revoked = s.revoked := by rfl
@[simp] theorem State.putBoth_svnMin (b : Block) (o : Nat) (v : Word) : (s.putBoth b o v).svnMin = s.svnMin := by rfl
@[simp] theorem State.putBoth_power (b : Block) (o : Nat) (v : Word) : (s.putBoth b o v).power = s.power := by rfl
@[simp] theorem State.putBoth_tide (b : Block) (o : Nat) (v : Word) : (s.putBoth b o v).tide = s.tide := by rfl
@[simp] theorem State.putBoth_sched (b : Block) (o : Nat) (v : Word) : (s.putBoth b o v).sched = s.sched := by rfl
@[simp] theorem State.putBoth_heldActs (b : Block) (o : Nat) (v : Word) : (s.putBoth b o v).heldActs = s.heldActs := by rfl
@[simp] theorem State.putBoth_answer (b : Block) (o : Nat) (v : Word) : (s.putBoth b o v).answer = s.answer := by rfl
@[simp] theorem State.putBoth_draws (b : Block) (o : Nat) (v : Word) : (s.putBoth b o v).draws = s.draws := by rfl

@[simp] theorem State.drawn_pending : (s.drawn).pending = s.pending := by rfl
@[simp] theorem State.drawn_regs : (s.drawn).regs = s.regs := by rfl
@[simp] theorem State.drawn_shadow : (s.drawn).shadow = s.shadow := by rfl
@[simp] theorem State.drawn_commits : (s.drawn).commits = s.commits := by rfl
@[simp] theorem State.drawn_dirty : (s.drawn).dirty = s.dirty := by rfl
@[simp] theorem State.drawn_mem : (s.drawn).mem = s.mem := by rfl
@[simp] theorem State.drawn_poison : (s.drawn).poison = s.poison := by rfl
@[simp] theorem State.drawn_refill : (s.drawn).refill = s.refill := by rfl
@[simp] theorem State.drawn_undef : (s.drawn).undef = s.undef := by rfl
@[simp] theorem State.drawn_lagged : (s.drawn).lagged = s.lagged := by rfl
@[simp] theorem State.drawn_acc : (s.drawn).acc = s.acc := by rfl
@[simp] theorem State.drawn_accPoison : (s.drawn).accPoison = s.accPoison := by rfl
@[simp] theorem State.drawn_weights : (s.drawn).weights = s.weights := by rfl
@[simp] theorem State.drawn_queues : (s.drawn).queues = s.queues := by rfl
@[simp] theorem State.drawn_harts : (s.drawn).harts = s.harts := by rfl
@[simp] theorem State.drawn_lvseed : (s.drawn).lvseed = s.lvseed := by rfl
@[simp] theorem State.drawn_cycles : (s.drawn).cycles = s.cycles := by rfl
@[simp] theorem State.drawn_caches : (s.drawn).caches = s.caches := by rfl
@[simp] theorem State.drawn_solvers : (s.drawn).solvers = s.solvers := by rfl
@[simp] theorem State.drawn_work : (s.drawn).work = s.work := by rfl
@[simp] theorem State.drawn_dispatch : (s.drawn).dispatch = s.dispatch := by rfl
@[simp] theorem State.drawn_channels : (s.drawn).channels = s.channels := by rfl
@[simp] theorem State.drawn_atDecoder : (s.drawn).atDecoder = s.atDecoder := by rfl
@[simp] theorem State.drawn_ports : (s.drawn).ports = s.ports := by rfl
@[simp] theorem State.drawn_arrived : (s.drawn).arrived = s.arrived := by rfl
@[simp] theorem State.drawn_hostIn : (s.drawn).hostIn = s.hostIn := by rfl
@[simp] theorem State.drawn_quays : (s.drawn).quays = s.quays := by rfl
@[simp] theorem State.drawn_booked : (s.drawn).booked = s.booked := by rfl
@[simp] theorem State.drawn_tray : (s.drawn).tray = s.tray := by rfl
@[simp] theorem State.drawn_trayNext : (s.drawn).trayNext = s.trayNext := by rfl
@[simp] theorem State.drawn_ranks : (s.drawn).ranks = s.ranks := by rfl
@[simp] theorem State.drawn_groups : (s.drawn).groups = s.groups := by rfl
@[simp] theorem State.drawn_adds : (s.drawn).adds = s.adds := by rfl
@[simp] theorem State.drawn_berths : (s.drawn).berths = s.berths := by rfl
@[simp] theorem State.drawn_compose : (s.drawn).compose = s.compose := by rfl
@[simp] theorem State.drawn_bells : (s.drawn).bells = s.bells := by rfl
@[simp] theorem State.drawn_discards : (s.drawn).discards = s.discards := by rfl
@[simp] theorem State.drawn_harbour : (s.drawn).harbour = s.harbour := by rfl
@[simp] theorem State.drawn_reports : (s.drawn).reports = s.reports := by rfl
@[simp] theorem State.drawn_domains : (s.drawn).domains = s.domains := by rfl
@[simp] theorem State.drawn_life : (s.drawn).life = s.life := by rfl
@[simp] theorem State.drawn_ckpt : (s.drawn).ckpt = s.ckpt := by rfl
@[simp] theorem State.drawn_images : (s.drawn).images = s.images := by rfl
@[simp] theorem State.drawn_revoked : (s.drawn).revoked = s.revoked := by rfl
@[simp] theorem State.drawn_svnMin : (s.drawn).svnMin = s.svnMin := by rfl
@[simp] theorem State.drawn_power : (s.drawn).power = s.power := by rfl
@[simp] theorem State.drawn_tide : (s.drawn).tide = s.tide := by rfl
@[simp] theorem State.drawn_sched : (s.drawn).sched = s.sched := by rfl
@[simp] theorem State.drawn_heldActs : (s.drawn).heldActs = s.heldActs := by rfl
@[simp] theorem State.drawn_answer : (s.drawn).answer = s.answer := by rfl

@[simp] theorem State.drawnN_pending (n : Nat) : (s.drawnN n).pending = s.pending := by rfl
@[simp] theorem State.drawnN_regs (n : Nat) : (s.drawnN n).regs = s.regs := by rfl
@[simp] theorem State.drawnN_shadow (n : Nat) : (s.drawnN n).shadow = s.shadow := by rfl
@[simp] theorem State.drawnN_commits (n : Nat) : (s.drawnN n).commits = s.commits := by rfl
@[simp] theorem State.drawnN_dirty (n : Nat) : (s.drawnN n).dirty = s.dirty := by rfl
@[simp] theorem State.drawnN_mem (n : Nat) : (s.drawnN n).mem = s.mem := by rfl
@[simp] theorem State.drawnN_poison (n : Nat) : (s.drawnN n).poison = s.poison := by rfl
@[simp] theorem State.drawnN_refill (n : Nat) : (s.drawnN n).refill = s.refill := by rfl
@[simp] theorem State.drawnN_undef (n : Nat) : (s.drawnN n).undef = s.undef := by rfl
@[simp] theorem State.drawnN_lagged (n : Nat) : (s.drawnN n).lagged = s.lagged := by rfl
@[simp] theorem State.drawnN_acc (n : Nat) : (s.drawnN n).acc = s.acc := by rfl
@[simp] theorem State.drawnN_accPoison (n : Nat) : (s.drawnN n).accPoison = s.accPoison := by rfl
@[simp] theorem State.drawnN_weights (n : Nat) : (s.drawnN n).weights = s.weights := by rfl
@[simp] theorem State.drawnN_queues (n : Nat) : (s.drawnN n).queues = s.queues := by rfl
@[simp] theorem State.drawnN_harts (n : Nat) : (s.drawnN n).harts = s.harts := by rfl
@[simp] theorem State.drawnN_lvseed (n : Nat) : (s.drawnN n).lvseed = s.lvseed := by rfl
@[simp] theorem State.drawnN_cycles (n : Nat) : (s.drawnN n).cycles = s.cycles := by rfl
@[simp] theorem State.drawnN_caches (n : Nat) : (s.drawnN n).caches = s.caches := by rfl
@[simp] theorem State.drawnN_solvers (n : Nat) : (s.drawnN n).solvers = s.solvers := by rfl
@[simp] theorem State.drawnN_work (n : Nat) : (s.drawnN n).work = s.work := by rfl
@[simp] theorem State.drawnN_dispatch (n : Nat) : (s.drawnN n).dispatch = s.dispatch := by rfl
@[simp] theorem State.drawnN_channels (n : Nat) : (s.drawnN n).channels = s.channels := by rfl
@[simp] theorem State.drawnN_atDecoder (n : Nat) : (s.drawnN n).atDecoder = s.atDecoder := by rfl
@[simp] theorem State.drawnN_ports (n : Nat) : (s.drawnN n).ports = s.ports := by rfl
@[simp] theorem State.drawnN_arrived (n : Nat) : (s.drawnN n).arrived = s.arrived := by rfl
@[simp] theorem State.drawnN_hostIn (n : Nat) : (s.drawnN n).hostIn = s.hostIn := by rfl
@[simp] theorem State.drawnN_quays (n : Nat) : (s.drawnN n).quays = s.quays := by rfl
@[simp] theorem State.drawnN_booked (n : Nat) : (s.drawnN n).booked = s.booked := by rfl
@[simp] theorem State.drawnN_tray (n : Nat) : (s.drawnN n).tray = s.tray := by rfl
@[simp] theorem State.drawnN_trayNext (n : Nat) : (s.drawnN n).trayNext = s.trayNext := by rfl
@[simp] theorem State.drawnN_ranks (n : Nat) : (s.drawnN n).ranks = s.ranks := by rfl
@[simp] theorem State.drawnN_groups (n : Nat) : (s.drawnN n).groups = s.groups := by rfl
@[simp] theorem State.drawnN_adds (n : Nat) : (s.drawnN n).adds = s.adds := by rfl
@[simp] theorem State.drawnN_berths (n : Nat) : (s.drawnN n).berths = s.berths := by rfl
@[simp] theorem State.drawnN_compose (n : Nat) : (s.drawnN n).compose = s.compose := by rfl
@[simp] theorem State.drawnN_bells (n : Nat) : (s.drawnN n).bells = s.bells := by rfl
@[simp] theorem State.drawnN_discards (n : Nat) : (s.drawnN n).discards = s.discards := by rfl
@[simp] theorem State.drawnN_harbour (n : Nat) : (s.drawnN n).harbour = s.harbour := by rfl
@[simp] theorem State.drawnN_reports (n : Nat) : (s.drawnN n).reports = s.reports := by rfl
@[simp] theorem State.drawnN_domains (n : Nat) : (s.drawnN n).domains = s.domains := by rfl
@[simp] theorem State.drawnN_life (n : Nat) : (s.drawnN n).life = s.life := by rfl
@[simp] theorem State.drawnN_ckpt (n : Nat) : (s.drawnN n).ckpt = s.ckpt := by rfl
@[simp] theorem State.drawnN_images (n : Nat) : (s.drawnN n).images = s.images := by rfl
@[simp] theorem State.drawnN_revoked (n : Nat) : (s.drawnN n).revoked = s.revoked := by rfl
@[simp] theorem State.drawnN_svnMin (n : Nat) : (s.drawnN n).svnMin = s.svnMin := by rfl
@[simp] theorem State.drawnN_power (n : Nat) : (s.drawnN n).power = s.power := by rfl
@[simp] theorem State.drawnN_tide (n : Nat) : (s.drawnN n).tide = s.tide := by rfl
@[simp] theorem State.drawnN_sched (n : Nat) : (s.drawnN n).sched = s.sched := by rfl
@[simp] theorem State.drawnN_heldActs (n : Nat) : (s.drawnN n).heldActs = s.heldActs := by rfl
@[simp] theorem State.drawnN_answer (n : Nat) : (s.drawnN n).answer = s.answer := by rfl

@[simp] theorem State.answers_pending (n : Nat) (d : List Byte) (p : Bool) : (s.answers n d p).pending = s.pending := by rfl
@[simp] theorem State.answers_regs (n : Nat) (d : List Byte) (p : Bool) : (s.answers n d p).regs = s.regs := by rfl
@[simp] theorem State.answers_shadow (n : Nat) (d : List Byte) (p : Bool) : (s.answers n d p).shadow = s.shadow := by rfl
@[simp] theorem State.answers_commits (n : Nat) (d : List Byte) (p : Bool) : (s.answers n d p).commits = s.commits := by rfl
@[simp] theorem State.answers_dirty (n : Nat) (d : List Byte) (p : Bool) : (s.answers n d p).dirty = s.dirty := by rfl
@[simp] theorem State.answers_mem (n : Nat) (d : List Byte) (p : Bool) : (s.answers n d p).mem = s.mem := by rfl
@[simp] theorem State.answers_poison (n : Nat) (d : List Byte) (p : Bool) : (s.answers n d p).poison = s.poison := by rfl
@[simp] theorem State.answers_refill (n : Nat) (d : List Byte) (p : Bool) : (s.answers n d p).refill = s.refill := by rfl
@[simp] theorem State.answers_undef (n : Nat) (d : List Byte) (p : Bool) : (s.answers n d p).undef = s.undef := by rfl
@[simp] theorem State.answers_lagged (n : Nat) (d : List Byte) (p : Bool) : (s.answers n d p).lagged = s.lagged := by rfl
@[simp] theorem State.answers_acc (n : Nat) (d : List Byte) (p : Bool) : (s.answers n d p).acc = s.acc := by rfl
@[simp] theorem State.answers_accPoison (n : Nat) (d : List Byte) (p : Bool) : (s.answers n d p).accPoison = s.accPoison := by rfl
@[simp] theorem State.answers_weights (n : Nat) (d : List Byte) (p : Bool) : (s.answers n d p).weights = s.weights := by rfl
@[simp] theorem State.answers_queues (n : Nat) (d : List Byte) (p : Bool) : (s.answers n d p).queues = s.queues := by rfl
@[simp] theorem State.answers_harts (n : Nat) (d : List Byte) (p : Bool) : (s.answers n d p).harts = s.harts := by rfl
@[simp] theorem State.answers_lvseed (n : Nat) (d : List Byte) (p : Bool) : (s.answers n d p).lvseed = s.lvseed := by rfl
@[simp] theorem State.answers_cycles (n : Nat) (d : List Byte) (p : Bool) : (s.answers n d p).cycles = s.cycles := by rfl
@[simp] theorem State.answers_caches (n : Nat) (d : List Byte) (p : Bool) : (s.answers n d p).caches = s.caches := by rfl
@[simp] theorem State.answers_solvers (n : Nat) (d : List Byte) (p : Bool) : (s.answers n d p).solvers = s.solvers := by rfl
@[simp] theorem State.answers_work (n : Nat) (d : List Byte) (p : Bool) : (s.answers n d p).work = s.work := by rfl
@[simp] theorem State.answers_dispatch (n : Nat) (d : List Byte) (p : Bool) : (s.answers n d p).dispatch = s.dispatch := by rfl
@[simp] theorem State.answers_channels (n : Nat) (d : List Byte) (p : Bool) : (s.answers n d p).channels = s.channels := by rfl
@[simp] theorem State.answers_atDecoder (n : Nat) (d : List Byte) (p : Bool) : (s.answers n d p).atDecoder = s.atDecoder := by rfl
@[simp] theorem State.answers_ports (n : Nat) (d : List Byte) (p : Bool) : (s.answers n d p).ports = s.ports := by rfl
@[simp] theorem State.answers_arrived (n : Nat) (d : List Byte) (p : Bool) : (s.answers n d p).arrived = s.arrived := by rfl
@[simp] theorem State.answers_hostIn (n : Nat) (d : List Byte) (p : Bool) : (s.answers n d p).hostIn = s.hostIn := by rfl
@[simp] theorem State.answers_quays (n : Nat) (d : List Byte) (p : Bool) : (s.answers n d p).quays = s.quays := by rfl
@[simp] theorem State.answers_booked (n : Nat) (d : List Byte) (p : Bool) : (s.answers n d p).booked = s.booked := by rfl
@[simp] theorem State.answers_tray (n : Nat) (d : List Byte) (p : Bool) : (s.answers n d p).tray = s.tray := by rfl
@[simp] theorem State.answers_trayNext (n : Nat) (d : List Byte) (p : Bool) : (s.answers n d p).trayNext = s.trayNext := by rfl
@[simp] theorem State.answers_ranks (n : Nat) (d : List Byte) (p : Bool) : (s.answers n d p).ranks = s.ranks := by rfl
@[simp] theorem State.answers_groups (n : Nat) (d : List Byte) (p : Bool) : (s.answers n d p).groups = s.groups := by rfl
@[simp] theorem State.answers_adds (n : Nat) (d : List Byte) (p : Bool) : (s.answers n d p).adds = s.adds := by rfl
@[simp] theorem State.answers_berths (n : Nat) (d : List Byte) (p : Bool) : (s.answers n d p).berths = s.berths := by rfl
@[simp] theorem State.answers_compose (n : Nat) (d : List Byte) (p : Bool) : (s.answers n d p).compose = s.compose := by rfl
@[simp] theorem State.answers_bells (n : Nat) (d : List Byte) (p : Bool) : (s.answers n d p).bells = s.bells := by rfl
@[simp] theorem State.answers_discards (n : Nat) (d : List Byte) (p : Bool) : (s.answers n d p).discards = s.discards := by rfl
@[simp] theorem State.answers_harbour (n : Nat) (d : List Byte) (p : Bool) : (s.answers n d p).harbour = s.harbour := by rfl
@[simp] theorem State.answers_reports (n : Nat) (d : List Byte) (p : Bool) : (s.answers n d p).reports = s.reports := by rfl
@[simp] theorem State.answers_domains (n : Nat) (d : List Byte) (p : Bool) : (s.answers n d p).domains = s.domains := by rfl
@[simp] theorem State.answers_life (n : Nat) (d : List Byte) (p : Bool) : (s.answers n d p).life = s.life := by rfl
@[simp] theorem State.answers_ckpt (n : Nat) (d : List Byte) (p : Bool) : (s.answers n d p).ckpt = s.ckpt := by rfl
@[simp] theorem State.answers_images (n : Nat) (d : List Byte) (p : Bool) : (s.answers n d p).images = s.images := by rfl
@[simp] theorem State.answers_revoked (n : Nat) (d : List Byte) (p : Bool) : (s.answers n d p).revoked = s.revoked := by rfl
@[simp] theorem State.answers_svnMin (n : Nat) (d : List Byte) (p : Bool) : (s.answers n d p).svnMin = s.svnMin := by rfl
@[simp] theorem State.answers_power (n : Nat) (d : List Byte) (p : Bool) : (s.answers n d p).power = s.power := by rfl
@[simp] theorem State.answers_tide (n : Nat) (d : List Byte) (p : Bool) : (s.answers n d p).tide = s.tide := by rfl
@[simp] theorem State.answers_sched (n : Nat) (d : List Byte) (p : Bool) : (s.answers n d p).sched = s.sched := by rfl
@[simp] theorem State.answers_heldActs (n : Nat) (d : List Byte) (p : Bool) : (s.answers n d p).heldActs = s.heldActs := by rfl
@[simp] theorem State.answers_draws (n : Nat) (d : List Byte) (p : Bool) : (s.answers n d p).draws = s.draws := by rfl

@[simp] theorem State.report_pending (n : Nat) (d : Option Nat) (x : Nat) : (s.report n d x).pending = s.pending := by rfl
@[simp] theorem State.report_regs (n : Nat) (d : Option Nat) (x : Nat) : (s.report n d x).regs = s.regs := by rfl
@[simp] theorem State.report_shadow (n : Nat) (d : Option Nat) (x : Nat) : (s.report n d x).shadow = s.shadow := by rfl
@[simp] theorem State.report_commits (n : Nat) (d : Option Nat) (x : Nat) : (s.report n d x).commits = s.commits := by rfl
@[simp] theorem State.report_dirty (n : Nat) (d : Option Nat) (x : Nat) : (s.report n d x).dirty = s.dirty := by rfl
@[simp] theorem State.report_mem (n : Nat) (d : Option Nat) (x : Nat) : (s.report n d x).mem = s.mem := by rfl
@[simp] theorem State.report_poison (n : Nat) (d : Option Nat) (x : Nat) : (s.report n d x).poison = s.poison := by rfl
@[simp] theorem State.report_refill (n : Nat) (d : Option Nat) (x : Nat) : (s.report n d x).refill = s.refill := by rfl
@[simp] theorem State.report_undef (n : Nat) (d : Option Nat) (x : Nat) : (s.report n d x).undef = s.undef := by rfl
@[simp] theorem State.report_lagged (n : Nat) (d : Option Nat) (x : Nat) : (s.report n d x).lagged = s.lagged := by rfl
@[simp] theorem State.report_acc (n : Nat) (d : Option Nat) (x : Nat) : (s.report n d x).acc = s.acc := by rfl
@[simp] theorem State.report_accPoison (n : Nat) (d : Option Nat) (x : Nat) : (s.report n d x).accPoison = s.accPoison := by rfl
@[simp] theorem State.report_weights (n : Nat) (d : Option Nat) (x : Nat) : (s.report n d x).weights = s.weights := by rfl
@[simp] theorem State.report_queues (n : Nat) (d : Option Nat) (x : Nat) : (s.report n d x).queues = s.queues := by rfl
@[simp] theorem State.report_harts (n : Nat) (d : Option Nat) (x : Nat) : (s.report n d x).harts = s.harts := by rfl
@[simp] theorem State.report_lvseed (n : Nat) (d : Option Nat) (x : Nat) : (s.report n d x).lvseed = s.lvseed := by rfl
@[simp] theorem State.report_cycles (n : Nat) (d : Option Nat) (x : Nat) : (s.report n d x).cycles = s.cycles := by rfl
@[simp] theorem State.report_caches (n : Nat) (d : Option Nat) (x : Nat) : (s.report n d x).caches = s.caches := by rfl
@[simp] theorem State.report_solvers (n : Nat) (d : Option Nat) (x : Nat) : (s.report n d x).solvers = s.solvers := by rfl
@[simp] theorem State.report_work (n : Nat) (d : Option Nat) (x : Nat) : (s.report n d x).work = s.work := by rfl
@[simp] theorem State.report_dispatch (n : Nat) (d : Option Nat) (x : Nat) : (s.report n d x).dispatch = s.dispatch := by rfl
@[simp] theorem State.report_channels (n : Nat) (d : Option Nat) (x : Nat) : (s.report n d x).channels = s.channels := by rfl
@[simp] theorem State.report_atDecoder (n : Nat) (d : Option Nat) (x : Nat) : (s.report n d x).atDecoder = s.atDecoder := by rfl
@[simp] theorem State.report_ports (n : Nat) (d : Option Nat) (x : Nat) : (s.report n d x).ports = s.ports := by rfl
@[simp] theorem State.report_arrived (n : Nat) (d : Option Nat) (x : Nat) : (s.report n d x).arrived = s.arrived := by rfl
@[simp] theorem State.report_hostIn (n : Nat) (d : Option Nat) (x : Nat) : (s.report n d x).hostIn = s.hostIn := by rfl
@[simp] theorem State.report_quays (n : Nat) (d : Option Nat) (x : Nat) : (s.report n d x).quays = s.quays := by rfl
@[simp] theorem State.report_booked (n : Nat) (d : Option Nat) (x : Nat) : (s.report n d x).booked = s.booked := by rfl
@[simp] theorem State.report_tray (n : Nat) (d : Option Nat) (x : Nat) : (s.report n d x).tray = s.tray := by rfl
@[simp] theorem State.report_trayNext (n : Nat) (d : Option Nat) (x : Nat) : (s.report n d x).trayNext = s.trayNext := by rfl
@[simp] theorem State.report_ranks (n : Nat) (d : Option Nat) (x : Nat) : (s.report n d x).ranks = s.ranks := by rfl
@[simp] theorem State.report_groups (n : Nat) (d : Option Nat) (x : Nat) : (s.report n d x).groups = s.groups := by rfl
@[simp] theorem State.report_adds (n : Nat) (d : Option Nat) (x : Nat) : (s.report n d x).adds = s.adds := by rfl
@[simp] theorem State.report_berths (n : Nat) (d : Option Nat) (x : Nat) : (s.report n d x).berths = s.berths := by rfl
@[simp] theorem State.report_compose (n : Nat) (d : Option Nat) (x : Nat) : (s.report n d x).compose = s.compose := by rfl
@[simp] theorem State.report_bells (n : Nat) (d : Option Nat) (x : Nat) : (s.report n d x).bells = s.bells := by rfl
@[simp] theorem State.report_discards (n : Nat) (d : Option Nat) (x : Nat) : (s.report n d x).discards = s.discards := by rfl
@[simp] theorem State.report_harbour (n : Nat) (d : Option Nat) (x : Nat) : (s.report n d x).harbour = s.harbour := by rfl
@[simp] theorem State.report_domains (n : Nat) (d : Option Nat) (x : Nat) : (s.report n d x).domains = s.domains := by rfl
@[simp] theorem State.report_life (n : Nat) (d : Option Nat) (x : Nat) : (s.report n d x).life = s.life := by rfl
@[simp] theorem State.report_ckpt (n : Nat) (d : Option Nat) (x : Nat) : (s.report n d x).ckpt = s.ckpt := by rfl
@[simp] theorem State.report_images (n : Nat) (d : Option Nat) (x : Nat) : (s.report n d x).images = s.images := by rfl
@[simp] theorem State.report_revoked (n : Nat) (d : Option Nat) (x : Nat) : (s.report n d x).revoked = s.revoked := by rfl
@[simp] theorem State.report_svnMin (n : Nat) (d : Option Nat) (x : Nat) : (s.report n d x).svnMin = s.svnMin := by rfl
@[simp] theorem State.report_power (n : Nat) (d : Option Nat) (x : Nat) : (s.report n d x).power = s.power := by rfl
@[simp] theorem State.report_tide (n : Nat) (d : Option Nat) (x : Nat) : (s.report n d x).tide = s.tide := by rfl
@[simp] theorem State.report_sched (n : Nat) (d : Option Nat) (x : Nat) : (s.report n d x).sched = s.sched := by rfl
@[simp] theorem State.report_heldActs (n : Nat) (d : Option Nat) (x : Nat) : (s.report n d x).heldActs = s.heldActs := by rfl
@[simp] theorem State.report_answer (n : Nat) (d : Option Nat) (x : Nat) : (s.report n d x).answer = s.answer := by rfl
@[simp] theorem State.report_draws (n : Nat) (d : Option Nat) (x : Nat) : (s.report n d x).draws = s.draws := by rfl

@[simp] theorem State.setQueue_pending (c q : Nat) (v : QueueRun) : (s.setQueue c q v).pending = s.pending := by rfl
@[simp] theorem State.setQueue_regs (c q : Nat) (v : QueueRun) : (s.setQueue c q v).regs = s.regs := by rfl
@[simp] theorem State.setQueue_shadow (c q : Nat) (v : QueueRun) : (s.setQueue c q v).shadow = s.shadow := by rfl
@[simp] theorem State.setQueue_commits (c q : Nat) (v : QueueRun) : (s.setQueue c q v).commits = s.commits := by rfl
@[simp] theorem State.setQueue_dirty (c q : Nat) (v : QueueRun) : (s.setQueue c q v).dirty = s.dirty := by rfl
@[simp] theorem State.setQueue_mem (c q : Nat) (v : QueueRun) : (s.setQueue c q v).mem = s.mem := by rfl
@[simp] theorem State.setQueue_poison (c q : Nat) (v : QueueRun) : (s.setQueue c q v).poison = s.poison := by rfl
@[simp] theorem State.setQueue_refill (c q : Nat) (v : QueueRun) : (s.setQueue c q v).refill = s.refill := by rfl
@[simp] theorem State.setQueue_undef (c q : Nat) (v : QueueRun) : (s.setQueue c q v).undef = s.undef := by rfl
@[simp] theorem State.setQueue_lagged (c q : Nat) (v : QueueRun) : (s.setQueue c q v).lagged = s.lagged := by rfl
@[simp] theorem State.setQueue_acc (c q : Nat) (v : QueueRun) : (s.setQueue c q v).acc = s.acc := by rfl
@[simp] theorem State.setQueue_accPoison (c q : Nat) (v : QueueRun) : (s.setQueue c q v).accPoison = s.accPoison := by rfl
@[simp] theorem State.setQueue_weights (c q : Nat) (v : QueueRun) : (s.setQueue c q v).weights = s.weights := by rfl
@[simp] theorem State.setQueue_harts (c q : Nat) (v : QueueRun) : (s.setQueue c q v).harts = s.harts := by rfl
@[simp] theorem State.setQueue_lvseed (c q : Nat) (v : QueueRun) : (s.setQueue c q v).lvseed = s.lvseed := by rfl
@[simp] theorem State.setQueue_cycles (c q : Nat) (v : QueueRun) : (s.setQueue c q v).cycles = s.cycles := by rfl
@[simp] theorem State.setQueue_caches (c q : Nat) (v : QueueRun) : (s.setQueue c q v).caches = s.caches := by rfl
@[simp] theorem State.setQueue_solvers (c q : Nat) (v : QueueRun) : (s.setQueue c q v).solvers = s.solvers := by rfl
@[simp] theorem State.setQueue_work (c q : Nat) (v : QueueRun) : (s.setQueue c q v).work = s.work := by rfl
@[simp] theorem State.setQueue_dispatch (c q : Nat) (v : QueueRun) : (s.setQueue c q v).dispatch = s.dispatch := by rfl
@[simp] theorem State.setQueue_channels (c q : Nat) (v : QueueRun) : (s.setQueue c q v).channels = s.channels := by rfl
@[simp] theorem State.setQueue_atDecoder (c q : Nat) (v : QueueRun) : (s.setQueue c q v).atDecoder = s.atDecoder := by rfl
@[simp] theorem State.setQueue_ports (c q : Nat) (v : QueueRun) : (s.setQueue c q v).ports = s.ports := by rfl
@[simp] theorem State.setQueue_arrived (c q : Nat) (v : QueueRun) : (s.setQueue c q v).arrived = s.arrived := by rfl
@[simp] theorem State.setQueue_hostIn (c q : Nat) (v : QueueRun) : (s.setQueue c q v).hostIn = s.hostIn := by rfl
@[simp] theorem State.setQueue_quays (c q : Nat) (v : QueueRun) : (s.setQueue c q v).quays = s.quays := by rfl
@[simp] theorem State.setQueue_booked (c q : Nat) (v : QueueRun) : (s.setQueue c q v).booked = s.booked := by rfl
@[simp] theorem State.setQueue_tray (c q : Nat) (v : QueueRun) : (s.setQueue c q v).tray = s.tray := by rfl
@[simp] theorem State.setQueue_trayNext (c q : Nat) (v : QueueRun) : (s.setQueue c q v).trayNext = s.trayNext := by rfl
@[simp] theorem State.setQueue_ranks (c q : Nat) (v : QueueRun) : (s.setQueue c q v).ranks = s.ranks := by rfl
@[simp] theorem State.setQueue_groups (c q : Nat) (v : QueueRun) : (s.setQueue c q v).groups = s.groups := by rfl
@[simp] theorem State.setQueue_adds (c q : Nat) (v : QueueRun) : (s.setQueue c q v).adds = s.adds := by rfl
@[simp] theorem State.setQueue_berths (c q : Nat) (v : QueueRun) : (s.setQueue c q v).berths = s.berths := by rfl
@[simp] theorem State.setQueue_compose (c q : Nat) (v : QueueRun) : (s.setQueue c q v).compose = s.compose := by rfl
@[simp] theorem State.setQueue_bells (c q : Nat) (v : QueueRun) : (s.setQueue c q v).bells = s.bells := by rfl
@[simp] theorem State.setQueue_discards (c q : Nat) (v : QueueRun) : (s.setQueue c q v).discards = s.discards := by rfl
@[simp] theorem State.setQueue_harbour (c q : Nat) (v : QueueRun) : (s.setQueue c q v).harbour = s.harbour := by rfl
@[simp] theorem State.setQueue_reports (c q : Nat) (v : QueueRun) : (s.setQueue c q v).reports = s.reports := by rfl
@[simp] theorem State.setQueue_domains (c q : Nat) (v : QueueRun) : (s.setQueue c q v).domains = s.domains := by rfl
@[simp] theorem State.setQueue_life (c q : Nat) (v : QueueRun) : (s.setQueue c q v).life = s.life := by rfl
@[simp] theorem State.setQueue_ckpt (c q : Nat) (v : QueueRun) : (s.setQueue c q v).ckpt = s.ckpt := by rfl
@[simp] theorem State.setQueue_images (c q : Nat) (v : QueueRun) : (s.setQueue c q v).images = s.images := by rfl
@[simp] theorem State.setQueue_revoked (c q : Nat) (v : QueueRun) : (s.setQueue c q v).revoked = s.revoked := by rfl
@[simp] theorem State.setQueue_svnMin (c q : Nat) (v : QueueRun) : (s.setQueue c q v).svnMin = s.svnMin := by rfl
@[simp] theorem State.setQueue_power (c q : Nat) (v : QueueRun) : (s.setQueue c q v).power = s.power := by rfl
@[simp] theorem State.setQueue_tide (c q : Nat) (v : QueueRun) : (s.setQueue c q v).tide = s.tide := by rfl
@[simp] theorem State.setQueue_sched (c q : Nat) (v : QueueRun) : (s.setQueue c q v).sched = s.sched := by rfl
@[simp] theorem State.setQueue_heldActs (c q : Nat) (v : QueueRun) : (s.setQueue c q v).heldActs = s.heldActs := by rfl
@[simp] theorem State.setQueue_answer (c q : Nat) (v : QueueRun) : (s.setQueue c q v).answer = s.answer := by rfl
@[simp] theorem State.setQueue_draws (c q : Nat) (v : QueueRun) : (s.setQueue c q v).draws = s.draws := by rfl

@[simp] theorem State.setHart_pending (h : Nat) (v : Hart) : (s.setHart h v).pending = s.pending := by rfl
@[simp] theorem State.setHart_regs (h : Nat) (v : Hart) : (s.setHart h v).regs = s.regs := by rfl
@[simp] theorem State.setHart_shadow (h : Nat) (v : Hart) : (s.setHart h v).shadow = s.shadow := by rfl
@[simp] theorem State.setHart_commits (h : Nat) (v : Hart) : (s.setHart h v).commits = s.commits := by rfl
@[simp] theorem State.setHart_dirty (h : Nat) (v : Hart) : (s.setHart h v).dirty = s.dirty := by rfl
@[simp] theorem State.setHart_mem (h : Nat) (v : Hart) : (s.setHart h v).mem = s.mem := by rfl
@[simp] theorem State.setHart_poison (h : Nat) (v : Hart) : (s.setHart h v).poison = s.poison := by rfl
@[simp] theorem State.setHart_refill (h : Nat) (v : Hart) : (s.setHart h v).refill = s.refill := by rfl
@[simp] theorem State.setHart_undef (h : Nat) (v : Hart) : (s.setHart h v).undef = s.undef := by rfl
@[simp] theorem State.setHart_lagged (h : Nat) (v : Hart) : (s.setHart h v).lagged = s.lagged := by rfl
@[simp] theorem State.setHart_acc (h : Nat) (v : Hart) : (s.setHart h v).acc = s.acc := by rfl
@[simp] theorem State.setHart_accPoison (h : Nat) (v : Hart) : (s.setHart h v).accPoison = s.accPoison := by rfl
@[simp] theorem State.setHart_weights (h : Nat) (v : Hart) : (s.setHart h v).weights = s.weights := by rfl
@[simp] theorem State.setHart_queues (h : Nat) (v : Hart) : (s.setHart h v).queues = s.queues := by rfl
@[simp] theorem State.setHart_lvseed (h : Nat) (v : Hart) : (s.setHart h v).lvseed = s.lvseed := by rfl
@[simp] theorem State.setHart_cycles (h : Nat) (v : Hart) : (s.setHart h v).cycles = s.cycles := by rfl
@[simp] theorem State.setHart_caches (h : Nat) (v : Hart) : (s.setHart h v).caches = s.caches := by rfl
@[simp] theorem State.setHart_solvers (h : Nat) (v : Hart) : (s.setHart h v).solvers = s.solvers := by rfl
@[simp] theorem State.setHart_work (h : Nat) (v : Hart) : (s.setHart h v).work = s.work := by rfl
@[simp] theorem State.setHart_dispatch (h : Nat) (v : Hart) : (s.setHart h v).dispatch = s.dispatch := by rfl
@[simp] theorem State.setHart_channels (h : Nat) (v : Hart) : (s.setHart h v).channels = s.channels := by rfl
@[simp] theorem State.setHart_atDecoder (h : Nat) (v : Hart) : (s.setHart h v).atDecoder = s.atDecoder := by rfl
@[simp] theorem State.setHart_ports (h : Nat) (v : Hart) : (s.setHart h v).ports = s.ports := by rfl
@[simp] theorem State.setHart_arrived (h : Nat) (v : Hart) : (s.setHart h v).arrived = s.arrived := by rfl
@[simp] theorem State.setHart_hostIn (h : Nat) (v : Hart) : (s.setHart h v).hostIn = s.hostIn := by rfl
@[simp] theorem State.setHart_quays (h : Nat) (v : Hart) : (s.setHart h v).quays = s.quays := by rfl
@[simp] theorem State.setHart_booked (h : Nat) (v : Hart) : (s.setHart h v).booked = s.booked := by rfl
@[simp] theorem State.setHart_tray (h : Nat) (v : Hart) : (s.setHart h v).tray = s.tray := by rfl
@[simp] theorem State.setHart_trayNext (h : Nat) (v : Hart) : (s.setHart h v).trayNext = s.trayNext := by rfl
@[simp] theorem State.setHart_ranks (h : Nat) (v : Hart) : (s.setHart h v).ranks = s.ranks := by rfl
@[simp] theorem State.setHart_groups (h : Nat) (v : Hart) : (s.setHart h v).groups = s.groups := by rfl
@[simp] theorem State.setHart_adds (h : Nat) (v : Hart) : (s.setHart h v).adds = s.adds := by rfl
@[simp] theorem State.setHart_berths (h : Nat) (v : Hart) : (s.setHart h v).berths = s.berths := by rfl
@[simp] theorem State.setHart_compose (h : Nat) (v : Hart) : (s.setHart h v).compose = s.compose := by rfl
@[simp] theorem State.setHart_bells (h : Nat) (v : Hart) : (s.setHart h v).bells = s.bells := by rfl
@[simp] theorem State.setHart_discards (h : Nat) (v : Hart) : (s.setHart h v).discards = s.discards := by rfl
@[simp] theorem State.setHart_harbour (h : Nat) (v : Hart) : (s.setHart h v).harbour = s.harbour := by rfl
@[simp] theorem State.setHart_reports (h : Nat) (v : Hart) : (s.setHart h v).reports = s.reports := by rfl
@[simp] theorem State.setHart_domains (h : Nat) (v : Hart) : (s.setHart h v).domains = s.domains := by rfl
@[simp] theorem State.setHart_life (h : Nat) (v : Hart) : (s.setHart h v).life = s.life := by rfl
@[simp] theorem State.setHart_ckpt (h : Nat) (v : Hart) : (s.setHart h v).ckpt = s.ckpt := by rfl
@[simp] theorem State.setHart_images (h : Nat) (v : Hart) : (s.setHart h v).images = s.images := by rfl
@[simp] theorem State.setHart_revoked (h : Nat) (v : Hart) : (s.setHart h v).revoked = s.revoked := by rfl
@[simp] theorem State.setHart_svnMin (h : Nat) (v : Hart) : (s.setHart h v).svnMin = s.svnMin := by rfl
@[simp] theorem State.setHart_power (h : Nat) (v : Hart) : (s.setHart h v).power = s.power := by rfl
@[simp] theorem State.setHart_tide (h : Nat) (v : Hart) : (s.setHart h v).tide = s.tide := by rfl
@[simp] theorem State.setHart_sched (h : Nat) (v : Hart) : (s.setHart h v).sched = s.sched := by rfl
@[simp] theorem State.setHart_heldActs (h : Nat) (v : Hart) : (s.setHart h v).heldActs = s.heldActs := by rfl
@[simp] theorem State.setHart_answer (h : Nat) (v : Hart) : (s.setHart h v).answer = s.answer := by rfl
@[simp] theorem State.setHart_draws (h : Nat) (v : Hart) : (s.setHart h v).draws = s.draws := by rfl

@[simp] theorem State.setChannel_pending (c : Nat) (v : Channel) : (s.setChannel c v).pending = s.pending := by rfl
@[simp] theorem State.setChannel_regs (c : Nat) (v : Channel) : (s.setChannel c v).regs = s.regs := by rfl
@[simp] theorem State.setChannel_shadow (c : Nat) (v : Channel) : (s.setChannel c v).shadow = s.shadow := by rfl
@[simp] theorem State.setChannel_commits (c : Nat) (v : Channel) : (s.setChannel c v).commits = s.commits := by rfl
@[simp] theorem State.setChannel_dirty (c : Nat) (v : Channel) : (s.setChannel c v).dirty = s.dirty := by rfl
@[simp] theorem State.setChannel_mem (c : Nat) (v : Channel) : (s.setChannel c v).mem = s.mem := by rfl
@[simp] theorem State.setChannel_poison (c : Nat) (v : Channel) : (s.setChannel c v).poison = s.poison := by rfl
@[simp] theorem State.setChannel_refill (c : Nat) (v : Channel) : (s.setChannel c v).refill = s.refill := by rfl
@[simp] theorem State.setChannel_undef (c : Nat) (v : Channel) : (s.setChannel c v).undef = s.undef := by rfl
@[simp] theorem State.setChannel_lagged (c : Nat) (v : Channel) : (s.setChannel c v).lagged = s.lagged := by rfl
@[simp] theorem State.setChannel_acc (c : Nat) (v : Channel) : (s.setChannel c v).acc = s.acc := by rfl
@[simp] theorem State.setChannel_accPoison (c : Nat) (v : Channel) : (s.setChannel c v).accPoison = s.accPoison := by rfl
@[simp] theorem State.setChannel_weights (c : Nat) (v : Channel) : (s.setChannel c v).weights = s.weights := by rfl
@[simp] theorem State.setChannel_queues (c : Nat) (v : Channel) : (s.setChannel c v).queues = s.queues := by rfl
@[simp] theorem State.setChannel_harts (c : Nat) (v : Channel) : (s.setChannel c v).harts = s.harts := by rfl
@[simp] theorem State.setChannel_lvseed (c : Nat) (v : Channel) : (s.setChannel c v).lvseed = s.lvseed := by rfl
@[simp] theorem State.setChannel_cycles (c : Nat) (v : Channel) : (s.setChannel c v).cycles = s.cycles := by rfl
@[simp] theorem State.setChannel_caches (c : Nat) (v : Channel) : (s.setChannel c v).caches = s.caches := by rfl
@[simp] theorem State.setChannel_solvers (c : Nat) (v : Channel) : (s.setChannel c v).solvers = s.solvers := by rfl
@[simp] theorem State.setChannel_work (c : Nat) (v : Channel) : (s.setChannel c v).work = s.work := by rfl
@[simp] theorem State.setChannel_dispatch (c : Nat) (v : Channel) : (s.setChannel c v).dispatch = s.dispatch := by rfl
@[simp] theorem State.setChannel_atDecoder (c : Nat) (v : Channel) : (s.setChannel c v).atDecoder = s.atDecoder := by rfl
@[simp] theorem State.setChannel_ports (c : Nat) (v : Channel) : (s.setChannel c v).ports = s.ports := by rfl
@[simp] theorem State.setChannel_arrived (c : Nat) (v : Channel) : (s.setChannel c v).arrived = s.arrived := by rfl
@[simp] theorem State.setChannel_hostIn (c : Nat) (v : Channel) : (s.setChannel c v).hostIn = s.hostIn := by rfl
@[simp] theorem State.setChannel_quays (c : Nat) (v : Channel) : (s.setChannel c v).quays = s.quays := by rfl
@[simp] theorem State.setChannel_booked (c : Nat) (v : Channel) : (s.setChannel c v).booked = s.booked := by rfl
@[simp] theorem State.setChannel_tray (c : Nat) (v : Channel) : (s.setChannel c v).tray = s.tray := by rfl
@[simp] theorem State.setChannel_trayNext (c : Nat) (v : Channel) : (s.setChannel c v).trayNext = s.trayNext := by rfl
@[simp] theorem State.setChannel_ranks (c : Nat) (v : Channel) : (s.setChannel c v).ranks = s.ranks := by rfl
@[simp] theorem State.setChannel_groups (c : Nat) (v : Channel) : (s.setChannel c v).groups = s.groups := by rfl
@[simp] theorem State.setChannel_adds (c : Nat) (v : Channel) : (s.setChannel c v).adds = s.adds := by rfl
@[simp] theorem State.setChannel_berths (c : Nat) (v : Channel) : (s.setChannel c v).berths = s.berths := by rfl
@[simp] theorem State.setChannel_compose (c : Nat) (v : Channel) : (s.setChannel c v).compose = s.compose := by rfl
@[simp] theorem State.setChannel_bells (c : Nat) (v : Channel) : (s.setChannel c v).bells = s.bells := by rfl
@[simp] theorem State.setChannel_discards (c : Nat) (v : Channel) : (s.setChannel c v).discards = s.discards := by rfl
@[simp] theorem State.setChannel_harbour (c : Nat) (v : Channel) : (s.setChannel c v).harbour = s.harbour := by rfl
@[simp] theorem State.setChannel_reports (c : Nat) (v : Channel) : (s.setChannel c v).reports = s.reports := by rfl
@[simp] theorem State.setChannel_domains (c : Nat) (v : Channel) : (s.setChannel c v).domains = s.domains := by rfl
@[simp] theorem State.setChannel_life (c : Nat) (v : Channel) : (s.setChannel c v).life = s.life := by rfl
@[simp] theorem State.setChannel_ckpt (c : Nat) (v : Channel) : (s.setChannel c v).ckpt = s.ckpt := by rfl
@[simp] theorem State.setChannel_images (c : Nat) (v : Channel) : (s.setChannel c v).images = s.images := by rfl
@[simp] theorem State.setChannel_revoked (c : Nat) (v : Channel) : (s.setChannel c v).revoked = s.revoked := by rfl
@[simp] theorem State.setChannel_svnMin (c : Nat) (v : Channel) : (s.setChannel c v).svnMin = s.svnMin := by rfl
@[simp] theorem State.setChannel_power (c : Nat) (v : Channel) : (s.setChannel c v).power = s.power := by rfl
@[simp] theorem State.setChannel_tide (c : Nat) (v : Channel) : (s.setChannel c v).tide = s.tide := by rfl
@[simp] theorem State.setChannel_sched (c : Nat) (v : Channel) : (s.setChannel c v).sched = s.sched := by rfl
@[simp] theorem State.setChannel_heldActs (c : Nat) (v : Channel) : (s.setChannel c v).heldActs = s.heldActs := by rfl
@[simp] theorem State.setChannel_answer (c : Nat) (v : Channel) : (s.setChannel c v).answer = s.answer := by rfl
@[simp] theorem State.setChannel_draws (c : Nat) (v : Channel) : (s.setChannel c v).draws = s.draws := by rfl

@[simp] theorem State.setPort_pending (p : Nat) (v : PortRun) : (s.setPort p v).pending = s.pending := by rfl
@[simp] theorem State.setPort_regs (p : Nat) (v : PortRun) : (s.setPort p v).regs = s.regs := by rfl
@[simp] theorem State.setPort_shadow (p : Nat) (v : PortRun) : (s.setPort p v).shadow = s.shadow := by rfl
@[simp] theorem State.setPort_commits (p : Nat) (v : PortRun) : (s.setPort p v).commits = s.commits := by rfl
@[simp] theorem State.setPort_dirty (p : Nat) (v : PortRun) : (s.setPort p v).dirty = s.dirty := by rfl
@[simp] theorem State.setPort_mem (p : Nat) (v : PortRun) : (s.setPort p v).mem = s.mem := by rfl
@[simp] theorem State.setPort_poison (p : Nat) (v : PortRun) : (s.setPort p v).poison = s.poison := by rfl
@[simp] theorem State.setPort_refill (p : Nat) (v : PortRun) : (s.setPort p v).refill = s.refill := by rfl
@[simp] theorem State.setPort_undef (p : Nat) (v : PortRun) : (s.setPort p v).undef = s.undef := by rfl
@[simp] theorem State.setPort_lagged (p : Nat) (v : PortRun) : (s.setPort p v).lagged = s.lagged := by rfl
@[simp] theorem State.setPort_acc (p : Nat) (v : PortRun) : (s.setPort p v).acc = s.acc := by rfl
@[simp] theorem State.setPort_accPoison (p : Nat) (v : PortRun) : (s.setPort p v).accPoison = s.accPoison := by rfl
@[simp] theorem State.setPort_weights (p : Nat) (v : PortRun) : (s.setPort p v).weights = s.weights := by rfl
@[simp] theorem State.setPort_queues (p : Nat) (v : PortRun) : (s.setPort p v).queues = s.queues := by rfl
@[simp] theorem State.setPort_harts (p : Nat) (v : PortRun) : (s.setPort p v).harts = s.harts := by rfl
@[simp] theorem State.setPort_lvseed (p : Nat) (v : PortRun) : (s.setPort p v).lvseed = s.lvseed := by rfl
@[simp] theorem State.setPort_cycles (p : Nat) (v : PortRun) : (s.setPort p v).cycles = s.cycles := by rfl
@[simp] theorem State.setPort_caches (p : Nat) (v : PortRun) : (s.setPort p v).caches = s.caches := by rfl
@[simp] theorem State.setPort_solvers (p : Nat) (v : PortRun) : (s.setPort p v).solvers = s.solvers := by rfl
@[simp] theorem State.setPort_work (p : Nat) (v : PortRun) : (s.setPort p v).work = s.work := by rfl
@[simp] theorem State.setPort_dispatch (p : Nat) (v : PortRun) : (s.setPort p v).dispatch = s.dispatch := by rfl
@[simp] theorem State.setPort_channels (p : Nat) (v : PortRun) : (s.setPort p v).channels = s.channels := by rfl
@[simp] theorem State.setPort_atDecoder (p : Nat) (v : PortRun) : (s.setPort p v).atDecoder = s.atDecoder := by rfl
@[simp] theorem State.setPort_arrived (p : Nat) (v : PortRun) : (s.setPort p v).arrived = s.arrived := by rfl
@[simp] theorem State.setPort_hostIn (p : Nat) (v : PortRun) : (s.setPort p v).hostIn = s.hostIn := by rfl
@[simp] theorem State.setPort_quays (p : Nat) (v : PortRun) : (s.setPort p v).quays = s.quays := by rfl
@[simp] theorem State.setPort_booked (p : Nat) (v : PortRun) : (s.setPort p v).booked = s.booked := by rfl
@[simp] theorem State.setPort_tray (p : Nat) (v : PortRun) : (s.setPort p v).tray = s.tray := by rfl
@[simp] theorem State.setPort_trayNext (p : Nat) (v : PortRun) : (s.setPort p v).trayNext = s.trayNext := by rfl
@[simp] theorem State.setPort_ranks (p : Nat) (v : PortRun) : (s.setPort p v).ranks = s.ranks := by rfl
@[simp] theorem State.setPort_groups (p : Nat) (v : PortRun) : (s.setPort p v).groups = s.groups := by rfl
@[simp] theorem State.setPort_adds (p : Nat) (v : PortRun) : (s.setPort p v).adds = s.adds := by rfl
@[simp] theorem State.setPort_berths (p : Nat) (v : PortRun) : (s.setPort p v).berths = s.berths := by rfl
@[simp] theorem State.setPort_compose (p : Nat) (v : PortRun) : (s.setPort p v).compose = s.compose := by rfl
@[simp] theorem State.setPort_bells (p : Nat) (v : PortRun) : (s.setPort p v).bells = s.bells := by rfl
@[simp] theorem State.setPort_discards (p : Nat) (v : PortRun) : (s.setPort p v).discards = s.discards := by rfl
@[simp] theorem State.setPort_harbour (p : Nat) (v : PortRun) : (s.setPort p v).harbour = s.harbour := by rfl
@[simp] theorem State.setPort_reports (p : Nat) (v : PortRun) : (s.setPort p v).reports = s.reports := by rfl
@[simp] theorem State.setPort_domains (p : Nat) (v : PortRun) : (s.setPort p v).domains = s.domains := by rfl
@[simp] theorem State.setPort_life (p : Nat) (v : PortRun) : (s.setPort p v).life = s.life := by rfl
@[simp] theorem State.setPort_ckpt (p : Nat) (v : PortRun) : (s.setPort p v).ckpt = s.ckpt := by rfl
@[simp] theorem State.setPort_images (p : Nat) (v : PortRun) : (s.setPort p v).images = s.images := by rfl
@[simp] theorem State.setPort_revoked (p : Nat) (v : PortRun) : (s.setPort p v).revoked = s.revoked := by rfl
@[simp] theorem State.setPort_svnMin (p : Nat) (v : PortRun) : (s.setPort p v).svnMin = s.svnMin := by rfl
@[simp] theorem State.setPort_power (p : Nat) (v : PortRun) : (s.setPort p v).power = s.power := by rfl
@[simp] theorem State.setPort_tide (p : Nat) (v : PortRun) : (s.setPort p v).tide = s.tide := by rfl
@[simp] theorem State.setPort_sched (p : Nat) (v : PortRun) : (s.setPort p v).sched = s.sched := by rfl
@[simp] theorem State.setPort_heldActs (p : Nat) (v : PortRun) : (s.setPort p v).heldActs = s.heldActs := by rfl
@[simp] theorem State.setPort_answer (p : Nat) (v : PortRun) : (s.setPort p v).answer = s.answer := by rfl
@[simp] theorem State.setPort_draws (p : Nat) (v : PortRun) : (s.setPort p v).draws = s.draws := by rfl

@[simp] theorem State.setQuayQueue_pending (q : Nat) (v : QuayQueue) : (s.setQuayQueue q v).pending = s.pending := by rfl
@[simp] theorem State.setQuayQueue_regs (q : Nat) (v : QuayQueue) : (s.setQuayQueue q v).regs = s.regs := by rfl
@[simp] theorem State.setQuayQueue_shadow (q : Nat) (v : QuayQueue) : (s.setQuayQueue q v).shadow = s.shadow := by rfl
@[simp] theorem State.setQuayQueue_commits (q : Nat) (v : QuayQueue) : (s.setQuayQueue q v).commits = s.commits := by rfl
@[simp] theorem State.setQuayQueue_dirty (q : Nat) (v : QuayQueue) : (s.setQuayQueue q v).dirty = s.dirty := by rfl
@[simp] theorem State.setQuayQueue_mem (q : Nat) (v : QuayQueue) : (s.setQuayQueue q v).mem = s.mem := by rfl
@[simp] theorem State.setQuayQueue_poison (q : Nat) (v : QuayQueue) : (s.setQuayQueue q v).poison = s.poison := by rfl
@[simp] theorem State.setQuayQueue_refill (q : Nat) (v : QuayQueue) : (s.setQuayQueue q v).refill = s.refill := by rfl
@[simp] theorem State.setQuayQueue_undef (q : Nat) (v : QuayQueue) : (s.setQuayQueue q v).undef = s.undef := by rfl
@[simp] theorem State.setQuayQueue_lagged (q : Nat) (v : QuayQueue) : (s.setQuayQueue q v).lagged = s.lagged := by rfl
@[simp] theorem State.setQuayQueue_acc (q : Nat) (v : QuayQueue) : (s.setQuayQueue q v).acc = s.acc := by rfl
@[simp] theorem State.setQuayQueue_accPoison (q : Nat) (v : QuayQueue) : (s.setQuayQueue q v).accPoison = s.accPoison := by rfl
@[simp] theorem State.setQuayQueue_weights (q : Nat) (v : QuayQueue) : (s.setQuayQueue q v).weights = s.weights := by rfl
@[simp] theorem State.setQuayQueue_queues (q : Nat) (v : QuayQueue) : (s.setQuayQueue q v).queues = s.queues := by rfl
@[simp] theorem State.setQuayQueue_harts (q : Nat) (v : QuayQueue) : (s.setQuayQueue q v).harts = s.harts := by rfl
@[simp] theorem State.setQuayQueue_lvseed (q : Nat) (v : QuayQueue) : (s.setQuayQueue q v).lvseed = s.lvseed := by rfl
@[simp] theorem State.setQuayQueue_cycles (q : Nat) (v : QuayQueue) : (s.setQuayQueue q v).cycles = s.cycles := by rfl
@[simp] theorem State.setQuayQueue_caches (q : Nat) (v : QuayQueue) : (s.setQuayQueue q v).caches = s.caches := by rfl
@[simp] theorem State.setQuayQueue_solvers (q : Nat) (v : QuayQueue) : (s.setQuayQueue q v).solvers = s.solvers := by rfl
@[simp] theorem State.setQuayQueue_work (q : Nat) (v : QuayQueue) : (s.setQuayQueue q v).work = s.work := by rfl
@[simp] theorem State.setQuayQueue_dispatch (q : Nat) (v : QuayQueue) : (s.setQuayQueue q v).dispatch = s.dispatch := by rfl
@[simp] theorem State.setQuayQueue_channels (q : Nat) (v : QuayQueue) : (s.setQuayQueue q v).channels = s.channels := by rfl
@[simp] theorem State.setQuayQueue_atDecoder (q : Nat) (v : QuayQueue) : (s.setQuayQueue q v).atDecoder = s.atDecoder := by rfl
@[simp] theorem State.setQuayQueue_ports (q : Nat) (v : QuayQueue) : (s.setQuayQueue q v).ports = s.ports := by rfl
@[simp] theorem State.setQuayQueue_arrived (q : Nat) (v : QuayQueue) : (s.setQuayQueue q v).arrived = s.arrived := by rfl
@[simp] theorem State.setQuayQueue_hostIn (q : Nat) (v : QuayQueue) : (s.setQuayQueue q v).hostIn = s.hostIn := by rfl
@[simp] theorem State.setQuayQueue_booked (q : Nat) (v : QuayQueue) : (s.setQuayQueue q v).booked = s.booked := by rfl
@[simp] theorem State.setQuayQueue_tray (q : Nat) (v : QuayQueue) : (s.setQuayQueue q v).tray = s.tray := by rfl
@[simp] theorem State.setQuayQueue_trayNext (q : Nat) (v : QuayQueue) : (s.setQuayQueue q v).trayNext = s.trayNext := by rfl
@[simp] theorem State.setQuayQueue_ranks (q : Nat) (v : QuayQueue) : (s.setQuayQueue q v).ranks = s.ranks := by rfl
@[simp] theorem State.setQuayQueue_groups (q : Nat) (v : QuayQueue) : (s.setQuayQueue q v).groups = s.groups := by rfl
@[simp] theorem State.setQuayQueue_adds (q : Nat) (v : QuayQueue) : (s.setQuayQueue q v).adds = s.adds := by rfl
@[simp] theorem State.setQuayQueue_berths (q : Nat) (v : QuayQueue) : (s.setQuayQueue q v).berths = s.berths := by rfl
@[simp] theorem State.setQuayQueue_compose (q : Nat) (v : QuayQueue) : (s.setQuayQueue q v).compose = s.compose := by rfl
@[simp] theorem State.setQuayQueue_bells (q : Nat) (v : QuayQueue) : (s.setQuayQueue q v).bells = s.bells := by rfl
@[simp] theorem State.setQuayQueue_discards (q : Nat) (v : QuayQueue) : (s.setQuayQueue q v).discards = s.discards := by rfl
@[simp] theorem State.setQuayQueue_harbour (q : Nat) (v : QuayQueue) : (s.setQuayQueue q v).harbour = s.harbour := by rfl
@[simp] theorem State.setQuayQueue_reports (q : Nat) (v : QuayQueue) : (s.setQuayQueue q v).reports = s.reports := by rfl
@[simp] theorem State.setQuayQueue_domains (q : Nat) (v : QuayQueue) : (s.setQuayQueue q v).domains = s.domains := by rfl
@[simp] theorem State.setQuayQueue_life (q : Nat) (v : QuayQueue) : (s.setQuayQueue q v).life = s.life := by rfl
@[simp] theorem State.setQuayQueue_ckpt (q : Nat) (v : QuayQueue) : (s.setQuayQueue q v).ckpt = s.ckpt := by rfl
@[simp] theorem State.setQuayQueue_images (q : Nat) (v : QuayQueue) : (s.setQuayQueue q v).images = s.images := by rfl
@[simp] theorem State.setQuayQueue_revoked (q : Nat) (v : QuayQueue) : (s.setQuayQueue q v).revoked = s.revoked := by rfl
@[simp] theorem State.setQuayQueue_svnMin (q : Nat) (v : QuayQueue) : (s.setQuayQueue q v).svnMin = s.svnMin := by rfl
@[simp] theorem State.setQuayQueue_power (q : Nat) (v : QuayQueue) : (s.setQuayQueue q v).power = s.power := by rfl
@[simp] theorem State.setQuayQueue_tide (q : Nat) (v : QuayQueue) : (s.setQuayQueue q v).tide = s.tide := by rfl
@[simp] theorem State.setQuayQueue_sched (q : Nat) (v : QuayQueue) : (s.setQuayQueue q v).sched = s.sched := by rfl
@[simp] theorem State.setQuayQueue_heldActs (q : Nat) (v : QuayQueue) : (s.setQuayQueue q v).heldActs = s.heldActs := by rfl
@[simp] theorem State.setQuayQueue_answer (q : Nat) (v : QuayQueue) : (s.setQuayQueue q v).answer = s.answer := by rfl
@[simp] theorem State.setQuayQueue_draws (q : Nat) (v : QuayQueue) : (s.setQuayQueue q v).draws = s.draws := by rfl

@[simp] theorem State.setGroup_pending (g : Nat) (v : GroupRun) : (s.setGroup g v).pending = s.pending := by rfl
@[simp] theorem State.setGroup_regs (g : Nat) (v : GroupRun) : (s.setGroup g v).regs = s.regs := by rfl
@[simp] theorem State.setGroup_shadow (g : Nat) (v : GroupRun) : (s.setGroup g v).shadow = s.shadow := by rfl
@[simp] theorem State.setGroup_commits (g : Nat) (v : GroupRun) : (s.setGroup g v).commits = s.commits := by rfl
@[simp] theorem State.setGroup_dirty (g : Nat) (v : GroupRun) : (s.setGroup g v).dirty = s.dirty := by rfl
@[simp] theorem State.setGroup_mem (g : Nat) (v : GroupRun) : (s.setGroup g v).mem = s.mem := by rfl
@[simp] theorem State.setGroup_poison (g : Nat) (v : GroupRun) : (s.setGroup g v).poison = s.poison := by rfl
@[simp] theorem State.setGroup_refill (g : Nat) (v : GroupRun) : (s.setGroup g v).refill = s.refill := by rfl
@[simp] theorem State.setGroup_undef (g : Nat) (v : GroupRun) : (s.setGroup g v).undef = s.undef := by rfl
@[simp] theorem State.setGroup_lagged (g : Nat) (v : GroupRun) : (s.setGroup g v).lagged = s.lagged := by rfl
@[simp] theorem State.setGroup_acc (g : Nat) (v : GroupRun) : (s.setGroup g v).acc = s.acc := by rfl
@[simp] theorem State.setGroup_accPoison (g : Nat) (v : GroupRun) : (s.setGroup g v).accPoison = s.accPoison := by rfl
@[simp] theorem State.setGroup_weights (g : Nat) (v : GroupRun) : (s.setGroup g v).weights = s.weights := by rfl
@[simp] theorem State.setGroup_queues (g : Nat) (v : GroupRun) : (s.setGroup g v).queues = s.queues := by rfl
@[simp] theorem State.setGroup_harts (g : Nat) (v : GroupRun) : (s.setGroup g v).harts = s.harts := by rfl
@[simp] theorem State.setGroup_lvseed (g : Nat) (v : GroupRun) : (s.setGroup g v).lvseed = s.lvseed := by rfl
@[simp] theorem State.setGroup_cycles (g : Nat) (v : GroupRun) : (s.setGroup g v).cycles = s.cycles := by rfl
@[simp] theorem State.setGroup_caches (g : Nat) (v : GroupRun) : (s.setGroup g v).caches = s.caches := by rfl
@[simp] theorem State.setGroup_solvers (g : Nat) (v : GroupRun) : (s.setGroup g v).solvers = s.solvers := by rfl
@[simp] theorem State.setGroup_work (g : Nat) (v : GroupRun) : (s.setGroup g v).work = s.work := by rfl
@[simp] theorem State.setGroup_dispatch (g : Nat) (v : GroupRun) : (s.setGroup g v).dispatch = s.dispatch := by rfl
@[simp] theorem State.setGroup_channels (g : Nat) (v : GroupRun) : (s.setGroup g v).channels = s.channels := by rfl
@[simp] theorem State.setGroup_atDecoder (g : Nat) (v : GroupRun) : (s.setGroup g v).atDecoder = s.atDecoder := by rfl
@[simp] theorem State.setGroup_ports (g : Nat) (v : GroupRun) : (s.setGroup g v).ports = s.ports := by rfl
@[simp] theorem State.setGroup_arrived (g : Nat) (v : GroupRun) : (s.setGroup g v).arrived = s.arrived := by rfl
@[simp] theorem State.setGroup_hostIn (g : Nat) (v : GroupRun) : (s.setGroup g v).hostIn = s.hostIn := by rfl
@[simp] theorem State.setGroup_quays (g : Nat) (v : GroupRun) : (s.setGroup g v).quays = s.quays := by rfl
@[simp] theorem State.setGroup_booked (g : Nat) (v : GroupRun) : (s.setGroup g v).booked = s.booked := by rfl
@[simp] theorem State.setGroup_tray (g : Nat) (v : GroupRun) : (s.setGroup g v).tray = s.tray := by rfl
@[simp] theorem State.setGroup_trayNext (g : Nat) (v : GroupRun) : (s.setGroup g v).trayNext = s.trayNext := by rfl
@[simp] theorem State.setGroup_ranks (g : Nat) (v : GroupRun) : (s.setGroup g v).ranks = s.ranks := by rfl
@[simp] theorem State.setGroup_adds (g : Nat) (v : GroupRun) : (s.setGroup g v).adds = s.adds := by rfl
@[simp] theorem State.setGroup_berths (g : Nat) (v : GroupRun) : (s.setGroup g v).berths = s.berths := by rfl
@[simp] theorem State.setGroup_compose (g : Nat) (v : GroupRun) : (s.setGroup g v).compose = s.compose := by rfl
@[simp] theorem State.setGroup_bells (g : Nat) (v : GroupRun) : (s.setGroup g v).bells = s.bells := by rfl
@[simp] theorem State.setGroup_discards (g : Nat) (v : GroupRun) : (s.setGroup g v).discards = s.discards := by rfl
@[simp] theorem State.setGroup_harbour (g : Nat) (v : GroupRun) : (s.setGroup g v).harbour = s.harbour := by rfl
@[simp] theorem State.setGroup_reports (g : Nat) (v : GroupRun) : (s.setGroup g v).reports = s.reports := by rfl
@[simp] theorem State.setGroup_domains (g : Nat) (v : GroupRun) : (s.setGroup g v).domains = s.domains := by rfl
@[simp] theorem State.setGroup_life (g : Nat) (v : GroupRun) : (s.setGroup g v).life = s.life := by rfl
@[simp] theorem State.setGroup_ckpt (g : Nat) (v : GroupRun) : (s.setGroup g v).ckpt = s.ckpt := by rfl
@[simp] theorem State.setGroup_images (g : Nat) (v : GroupRun) : (s.setGroup g v).images = s.images := by rfl
@[simp] theorem State.setGroup_revoked (g : Nat) (v : GroupRun) : (s.setGroup g v).revoked = s.revoked := by rfl
@[simp] theorem State.setGroup_svnMin (g : Nat) (v : GroupRun) : (s.setGroup g v).svnMin = s.svnMin := by rfl
@[simp] theorem State.setGroup_power (g : Nat) (v : GroupRun) : (s.setGroup g v).power = s.power := by rfl
@[simp] theorem State.setGroup_tide (g : Nat) (v : GroupRun) : (s.setGroup g v).tide = s.tide := by rfl
@[simp] theorem State.setGroup_sched (g : Nat) (v : GroupRun) : (s.setGroup g v).sched = s.sched := by rfl
@[simp] theorem State.setGroup_heldActs (g : Nat) (v : GroupRun) : (s.setGroup g v).heldActs = s.heldActs := by rfl
@[simp] theorem State.setGroup_answer (g : Nat) (v : GroupRun) : (s.setGroup g v).answer = s.answer := by rfl
@[simp] theorem State.setGroup_draws (g : Nat) (v : GroupRun) : (s.setGroup g v).draws = s.draws := by rfl

@[simp] theorem State.setDomain_pending (d : Nat) (v : Domain) : (s.setDomain d v).pending = s.pending := by rfl
@[simp] theorem State.setDomain_regs (d : Nat) (v : Domain) : (s.setDomain d v).regs = s.regs := by rfl
@[simp] theorem State.setDomain_shadow (d : Nat) (v : Domain) : (s.setDomain d v).shadow = s.shadow := by rfl
@[simp] theorem State.setDomain_commits (d : Nat) (v : Domain) : (s.setDomain d v).commits = s.commits := by rfl
@[simp] theorem State.setDomain_dirty (d : Nat) (v : Domain) : (s.setDomain d v).dirty = s.dirty := by rfl
@[simp] theorem State.setDomain_mem (d : Nat) (v : Domain) : (s.setDomain d v).mem = s.mem := by rfl
@[simp] theorem State.setDomain_poison (d : Nat) (v : Domain) : (s.setDomain d v).poison = s.poison := by rfl
@[simp] theorem State.setDomain_refill (d : Nat) (v : Domain) : (s.setDomain d v).refill = s.refill := by rfl
@[simp] theorem State.setDomain_undef (d : Nat) (v : Domain) : (s.setDomain d v).undef = s.undef := by rfl
@[simp] theorem State.setDomain_lagged (d : Nat) (v : Domain) : (s.setDomain d v).lagged = s.lagged := by rfl
@[simp] theorem State.setDomain_acc (d : Nat) (v : Domain) : (s.setDomain d v).acc = s.acc := by rfl
@[simp] theorem State.setDomain_accPoison (d : Nat) (v : Domain) : (s.setDomain d v).accPoison = s.accPoison := by rfl
@[simp] theorem State.setDomain_weights (d : Nat) (v : Domain) : (s.setDomain d v).weights = s.weights := by rfl
@[simp] theorem State.setDomain_queues (d : Nat) (v : Domain) : (s.setDomain d v).queues = s.queues := by rfl
@[simp] theorem State.setDomain_harts (d : Nat) (v : Domain) : (s.setDomain d v).harts = s.harts := by rfl
@[simp] theorem State.setDomain_lvseed (d : Nat) (v : Domain) : (s.setDomain d v).lvseed = s.lvseed := by rfl
@[simp] theorem State.setDomain_cycles (d : Nat) (v : Domain) : (s.setDomain d v).cycles = s.cycles := by rfl
@[simp] theorem State.setDomain_caches (d : Nat) (v : Domain) : (s.setDomain d v).caches = s.caches := by rfl
@[simp] theorem State.setDomain_solvers (d : Nat) (v : Domain) : (s.setDomain d v).solvers = s.solvers := by rfl
@[simp] theorem State.setDomain_work (d : Nat) (v : Domain) : (s.setDomain d v).work = s.work := by rfl
@[simp] theorem State.setDomain_dispatch (d : Nat) (v : Domain) : (s.setDomain d v).dispatch = s.dispatch := by rfl
@[simp] theorem State.setDomain_channels (d : Nat) (v : Domain) : (s.setDomain d v).channels = s.channels := by rfl
@[simp] theorem State.setDomain_atDecoder (d : Nat) (v : Domain) : (s.setDomain d v).atDecoder = s.atDecoder := by rfl
@[simp] theorem State.setDomain_ports (d : Nat) (v : Domain) : (s.setDomain d v).ports = s.ports := by rfl
@[simp] theorem State.setDomain_arrived (d : Nat) (v : Domain) : (s.setDomain d v).arrived = s.arrived := by rfl
@[simp] theorem State.setDomain_hostIn (d : Nat) (v : Domain) : (s.setDomain d v).hostIn = s.hostIn := by rfl
@[simp] theorem State.setDomain_quays (d : Nat) (v : Domain) : (s.setDomain d v).quays = s.quays := by rfl
@[simp] theorem State.setDomain_booked (d : Nat) (v : Domain) : (s.setDomain d v).booked = s.booked := by rfl
@[simp] theorem State.setDomain_tray (d : Nat) (v : Domain) : (s.setDomain d v).tray = s.tray := by rfl
@[simp] theorem State.setDomain_trayNext (d : Nat) (v : Domain) : (s.setDomain d v).trayNext = s.trayNext := by rfl
@[simp] theorem State.setDomain_ranks (d : Nat) (v : Domain) : (s.setDomain d v).ranks = s.ranks := by rfl
@[simp] theorem State.setDomain_groups (d : Nat) (v : Domain) : (s.setDomain d v).groups = s.groups := by rfl
@[simp] theorem State.setDomain_adds (d : Nat) (v : Domain) : (s.setDomain d v).adds = s.adds := by rfl
@[simp] theorem State.setDomain_berths (d : Nat) (v : Domain) : (s.setDomain d v).berths = s.berths := by rfl
@[simp] theorem State.setDomain_compose (d : Nat) (v : Domain) : (s.setDomain d v).compose = s.compose := by rfl
@[simp] theorem State.setDomain_bells (d : Nat) (v : Domain) : (s.setDomain d v).bells = s.bells := by rfl
@[simp] theorem State.setDomain_discards (d : Nat) (v : Domain) : (s.setDomain d v).discards = s.discards := by rfl
@[simp] theorem State.setDomain_harbour (d : Nat) (v : Domain) : (s.setDomain d v).harbour = s.harbour := by rfl
@[simp] theorem State.setDomain_reports (d : Nat) (v : Domain) : (s.setDomain d v).reports = s.reports := by rfl
@[simp] theorem State.setDomain_life (d : Nat) (v : Domain) : (s.setDomain d v).life = s.life := by rfl
@[simp] theorem State.setDomain_ckpt (d : Nat) (v : Domain) : (s.setDomain d v).ckpt = s.ckpt := by rfl
@[simp] theorem State.setDomain_images (d : Nat) (v : Domain) : (s.setDomain d v).images = s.images := by rfl
@[simp] theorem State.setDomain_revoked (d : Nat) (v : Domain) : (s.setDomain d v).revoked = s.revoked := by rfl
@[simp] theorem State.setDomain_svnMin (d : Nat) (v : Domain) : (s.setDomain d v).svnMin = s.svnMin := by rfl
@[simp] theorem State.setDomain_power (d : Nat) (v : Domain) : (s.setDomain d v).power = s.power := by rfl
@[simp] theorem State.setDomain_tide (d : Nat) (v : Domain) : (s.setDomain d v).tide = s.tide := by rfl
@[simp] theorem State.setDomain_sched (d : Nat) (v : Domain) : (s.setDomain d v).sched = s.sched := by rfl
@[simp] theorem State.setDomain_heldActs (d : Nat) (v : Domain) : (s.setDomain d v).heldActs = s.heldActs := by rfl
@[simp] theorem State.setDomain_answer (d : Nat) (v : Domain) : (s.setDomain d v).answer = s.answer := by rfl
@[simp] theorem State.setDomain_draws (d : Nat) (v : Domain) : (s.setDomain d v).draws = s.draws := by rfl

@[simp] theorem State.setDispatcher_pending (d : Nat) (v : Dispatcher) : (s.setDispatcher d v).pending = s.pending := by rfl
@[simp] theorem State.setDispatcher_regs (d : Nat) (v : Dispatcher) : (s.setDispatcher d v).regs = s.regs := by rfl
@[simp] theorem State.setDispatcher_shadow (d : Nat) (v : Dispatcher) : (s.setDispatcher d v).shadow = s.shadow := by rfl
@[simp] theorem State.setDispatcher_commits (d : Nat) (v : Dispatcher) : (s.setDispatcher d v).commits = s.commits := by rfl
@[simp] theorem State.setDispatcher_dirty (d : Nat) (v : Dispatcher) : (s.setDispatcher d v).dirty = s.dirty := by rfl
@[simp] theorem State.setDispatcher_mem (d : Nat) (v : Dispatcher) : (s.setDispatcher d v).mem = s.mem := by rfl
@[simp] theorem State.setDispatcher_poison (d : Nat) (v : Dispatcher) : (s.setDispatcher d v).poison = s.poison := by rfl
@[simp] theorem State.setDispatcher_refill (d : Nat) (v : Dispatcher) : (s.setDispatcher d v).refill = s.refill := by rfl
@[simp] theorem State.setDispatcher_undef (d : Nat) (v : Dispatcher) : (s.setDispatcher d v).undef = s.undef := by rfl
@[simp] theorem State.setDispatcher_lagged (d : Nat) (v : Dispatcher) : (s.setDispatcher d v).lagged = s.lagged := by rfl
@[simp] theorem State.setDispatcher_acc (d : Nat) (v : Dispatcher) : (s.setDispatcher d v).acc = s.acc := by rfl
@[simp] theorem State.setDispatcher_accPoison (d : Nat) (v : Dispatcher) : (s.setDispatcher d v).accPoison = s.accPoison := by rfl
@[simp] theorem State.setDispatcher_weights (d : Nat) (v : Dispatcher) : (s.setDispatcher d v).weights = s.weights := by rfl
@[simp] theorem State.setDispatcher_queues (d : Nat) (v : Dispatcher) : (s.setDispatcher d v).queues = s.queues := by rfl
@[simp] theorem State.setDispatcher_harts (d : Nat) (v : Dispatcher) : (s.setDispatcher d v).harts = s.harts := by rfl
@[simp] theorem State.setDispatcher_lvseed (d : Nat) (v : Dispatcher) : (s.setDispatcher d v).lvseed = s.lvseed := by rfl
@[simp] theorem State.setDispatcher_cycles (d : Nat) (v : Dispatcher) : (s.setDispatcher d v).cycles = s.cycles := by rfl
@[simp] theorem State.setDispatcher_caches (d : Nat) (v : Dispatcher) : (s.setDispatcher d v).caches = s.caches := by rfl
@[simp] theorem State.setDispatcher_solvers (d : Nat) (v : Dispatcher) : (s.setDispatcher d v).solvers = s.solvers := by rfl
@[simp] theorem State.setDispatcher_work (d : Nat) (v : Dispatcher) : (s.setDispatcher d v).work = s.work := by rfl
@[simp] theorem State.setDispatcher_channels (d : Nat) (v : Dispatcher) : (s.setDispatcher d v).channels = s.channels := by rfl
@[simp] theorem State.setDispatcher_atDecoder (d : Nat) (v : Dispatcher) : (s.setDispatcher d v).atDecoder = s.atDecoder := by rfl
@[simp] theorem State.setDispatcher_ports (d : Nat) (v : Dispatcher) : (s.setDispatcher d v).ports = s.ports := by rfl
@[simp] theorem State.setDispatcher_arrived (d : Nat) (v : Dispatcher) : (s.setDispatcher d v).arrived = s.arrived := by rfl
@[simp] theorem State.setDispatcher_hostIn (d : Nat) (v : Dispatcher) : (s.setDispatcher d v).hostIn = s.hostIn := by rfl
@[simp] theorem State.setDispatcher_quays (d : Nat) (v : Dispatcher) : (s.setDispatcher d v).quays = s.quays := by rfl
@[simp] theorem State.setDispatcher_booked (d : Nat) (v : Dispatcher) : (s.setDispatcher d v).booked = s.booked := by rfl
@[simp] theorem State.setDispatcher_tray (d : Nat) (v : Dispatcher) : (s.setDispatcher d v).tray = s.tray := by rfl
@[simp] theorem State.setDispatcher_trayNext (d : Nat) (v : Dispatcher) : (s.setDispatcher d v).trayNext = s.trayNext := by rfl
@[simp] theorem State.setDispatcher_ranks (d : Nat) (v : Dispatcher) : (s.setDispatcher d v).ranks = s.ranks := by rfl
@[simp] theorem State.setDispatcher_groups (d : Nat) (v : Dispatcher) : (s.setDispatcher d v).groups = s.groups := by rfl
@[simp] theorem State.setDispatcher_adds (d : Nat) (v : Dispatcher) : (s.setDispatcher d v).adds = s.adds := by rfl
@[simp] theorem State.setDispatcher_berths (d : Nat) (v : Dispatcher) : (s.setDispatcher d v).berths = s.berths := by rfl
@[simp] theorem State.setDispatcher_compose (d : Nat) (v : Dispatcher) : (s.setDispatcher d v).compose = s.compose := by rfl
@[simp] theorem State.setDispatcher_bells (d : Nat) (v : Dispatcher) : (s.setDispatcher d v).bells = s.bells := by rfl
@[simp] theorem State.setDispatcher_discards (d : Nat) (v : Dispatcher) : (s.setDispatcher d v).discards = s.discards := by rfl
@[simp] theorem State.setDispatcher_harbour (d : Nat) (v : Dispatcher) : (s.setDispatcher d v).harbour = s.harbour := by rfl
@[simp] theorem State.setDispatcher_reports (d : Nat) (v : Dispatcher) : (s.setDispatcher d v).reports = s.reports := by rfl
@[simp] theorem State.setDispatcher_domains (d : Nat) (v : Dispatcher) : (s.setDispatcher d v).domains = s.domains := by rfl
@[simp] theorem State.setDispatcher_life (d : Nat) (v : Dispatcher) : (s.setDispatcher d v).life = s.life := by rfl
@[simp] theorem State.setDispatcher_ckpt (d : Nat) (v : Dispatcher) : (s.setDispatcher d v).ckpt = s.ckpt := by rfl
@[simp] theorem State.setDispatcher_images (d : Nat) (v : Dispatcher) : (s.setDispatcher d v).images = s.images := by rfl
@[simp] theorem State.setDispatcher_revoked (d : Nat) (v : Dispatcher) : (s.setDispatcher d v).revoked = s.revoked := by rfl
@[simp] theorem State.setDispatcher_svnMin (d : Nat) (v : Dispatcher) : (s.setDispatcher d v).svnMin = s.svnMin := by rfl
@[simp] theorem State.setDispatcher_power (d : Nat) (v : Dispatcher) : (s.setDispatcher d v).power = s.power := by rfl
@[simp] theorem State.setDispatcher_tide (d : Nat) (v : Dispatcher) : (s.setDispatcher d v).tide = s.tide := by rfl
@[simp] theorem State.setDispatcher_sched (d : Nat) (v : Dispatcher) : (s.setDispatcher d v).sched = s.sched := by rfl
@[simp] theorem State.setDispatcher_heldActs (d : Nat) (v : Dispatcher) : (s.setDispatcher d v).heldActs = s.heldActs := by rfl
@[simp] theorem State.setDispatcher_answer (d : Nat) (v : Dispatcher) : (s.setDispatcher d v).answer = s.answer := by rfl
@[simp] theorem State.setDispatcher_draws (d : Nat) (v : Dispatcher) : (s.setDispatcher d v).draws = s.draws := by rfl

@[simp] theorem State.setImage_pending (i : Nat) (v : ImageBank) : (s.setImage i v).pending = s.pending := by rfl
@[simp] theorem State.setImage_regs (i : Nat) (v : ImageBank) : (s.setImage i v).regs = s.regs := by rfl
@[simp] theorem State.setImage_shadow (i : Nat) (v : ImageBank) : (s.setImage i v).shadow = s.shadow := by rfl
@[simp] theorem State.setImage_commits (i : Nat) (v : ImageBank) : (s.setImage i v).commits = s.commits := by rfl
@[simp] theorem State.setImage_dirty (i : Nat) (v : ImageBank) : (s.setImage i v).dirty = s.dirty := by rfl
@[simp] theorem State.setImage_mem (i : Nat) (v : ImageBank) : (s.setImage i v).mem = s.mem := by rfl
@[simp] theorem State.setImage_poison (i : Nat) (v : ImageBank) : (s.setImage i v).poison = s.poison := by rfl
@[simp] theorem State.setImage_refill (i : Nat) (v : ImageBank) : (s.setImage i v).refill = s.refill := by rfl
@[simp] theorem State.setImage_undef (i : Nat) (v : ImageBank) : (s.setImage i v).undef = s.undef := by rfl
@[simp] theorem State.setImage_lagged (i : Nat) (v : ImageBank) : (s.setImage i v).lagged = s.lagged := by rfl
@[simp] theorem State.setImage_acc (i : Nat) (v : ImageBank) : (s.setImage i v).acc = s.acc := by rfl
@[simp] theorem State.setImage_accPoison (i : Nat) (v : ImageBank) : (s.setImage i v).accPoison = s.accPoison := by rfl
@[simp] theorem State.setImage_weights (i : Nat) (v : ImageBank) : (s.setImage i v).weights = s.weights := by rfl
@[simp] theorem State.setImage_queues (i : Nat) (v : ImageBank) : (s.setImage i v).queues = s.queues := by rfl
@[simp] theorem State.setImage_harts (i : Nat) (v : ImageBank) : (s.setImage i v).harts = s.harts := by rfl
@[simp] theorem State.setImage_lvseed (i : Nat) (v : ImageBank) : (s.setImage i v).lvseed = s.lvseed := by rfl
@[simp] theorem State.setImage_cycles (i : Nat) (v : ImageBank) : (s.setImage i v).cycles = s.cycles := by rfl
@[simp] theorem State.setImage_caches (i : Nat) (v : ImageBank) : (s.setImage i v).caches = s.caches := by rfl
@[simp] theorem State.setImage_solvers (i : Nat) (v : ImageBank) : (s.setImage i v).solvers = s.solvers := by rfl
@[simp] theorem State.setImage_work (i : Nat) (v : ImageBank) : (s.setImage i v).work = s.work := by rfl
@[simp] theorem State.setImage_dispatch (i : Nat) (v : ImageBank) : (s.setImage i v).dispatch = s.dispatch := by rfl
@[simp] theorem State.setImage_channels (i : Nat) (v : ImageBank) : (s.setImage i v).channels = s.channels := by rfl
@[simp] theorem State.setImage_atDecoder (i : Nat) (v : ImageBank) : (s.setImage i v).atDecoder = s.atDecoder := by rfl
@[simp] theorem State.setImage_ports (i : Nat) (v : ImageBank) : (s.setImage i v).ports = s.ports := by rfl
@[simp] theorem State.setImage_arrived (i : Nat) (v : ImageBank) : (s.setImage i v).arrived = s.arrived := by rfl
@[simp] theorem State.setImage_hostIn (i : Nat) (v : ImageBank) : (s.setImage i v).hostIn = s.hostIn := by rfl
@[simp] theorem State.setImage_quays (i : Nat) (v : ImageBank) : (s.setImage i v).quays = s.quays := by rfl
@[simp] theorem State.setImage_booked (i : Nat) (v : ImageBank) : (s.setImage i v).booked = s.booked := by rfl
@[simp] theorem State.setImage_tray (i : Nat) (v : ImageBank) : (s.setImage i v).tray = s.tray := by rfl
@[simp] theorem State.setImage_trayNext (i : Nat) (v : ImageBank) : (s.setImage i v).trayNext = s.trayNext := by rfl
@[simp] theorem State.setImage_ranks (i : Nat) (v : ImageBank) : (s.setImage i v).ranks = s.ranks := by rfl
@[simp] theorem State.setImage_groups (i : Nat) (v : ImageBank) : (s.setImage i v).groups = s.groups := by rfl
@[simp] theorem State.setImage_adds (i : Nat) (v : ImageBank) : (s.setImage i v).adds = s.adds := by rfl
@[simp] theorem State.setImage_berths (i : Nat) (v : ImageBank) : (s.setImage i v).berths = s.berths := by rfl
@[simp] theorem State.setImage_compose (i : Nat) (v : ImageBank) : (s.setImage i v).compose = s.compose := by rfl
@[simp] theorem State.setImage_bells (i : Nat) (v : ImageBank) : (s.setImage i v).bells = s.bells := by rfl
@[simp] theorem State.setImage_discards (i : Nat) (v : ImageBank) : (s.setImage i v).discards = s.discards := by rfl
@[simp] theorem State.setImage_harbour (i : Nat) (v : ImageBank) : (s.setImage i v).harbour = s.harbour := by rfl
@[simp] theorem State.setImage_reports (i : Nat) (v : ImageBank) : (s.setImage i v).reports = s.reports := by rfl
@[simp] theorem State.setImage_domains (i : Nat) (v : ImageBank) : (s.setImage i v).domains = s.domains := by rfl
@[simp] theorem State.setImage_life (i : Nat) (v : ImageBank) : (s.setImage i v).life = s.life := by rfl
@[simp] theorem State.setImage_ckpt (i : Nat) (v : ImageBank) : (s.setImage i v).ckpt = s.ckpt := by rfl
@[simp] theorem State.setImage_revoked (i : Nat) (v : ImageBank) : (s.setImage i v).revoked = s.revoked := by rfl
@[simp] theorem State.setImage_svnMin (i : Nat) (v : ImageBank) : (s.setImage i v).svnMin = s.svnMin := by rfl
@[simp] theorem State.setImage_power (i : Nat) (v : ImageBank) : (s.setImage i v).power = s.power := by rfl
@[simp] theorem State.setImage_tide (i : Nat) (v : ImageBank) : (s.setImage i v).tide = s.tide := by rfl
@[simp] theorem State.setImage_sched (i : Nat) (v : ImageBank) : (s.setImage i v).sched = s.sched := by rfl
@[simp] theorem State.setImage_heldActs (i : Nat) (v : ImageBank) : (s.setImage i v).heldActs = s.heldActs := by rfl
@[simp] theorem State.setImage_answer (i : Nat) (v : ImageBank) : (s.setImage i v).answer = s.answer := by rfl
@[simp] theorem State.setImage_draws (i : Nat) (v : ImageBank) : (s.setImage i v).draws = s.draws := by rfl

@[simp] theorem State.setEntry_pending (i : Nat) (v : SchedEntry) : (s.setEntry i v).pending = s.pending := by rfl
@[simp] theorem State.setEntry_regs (i : Nat) (v : SchedEntry) : (s.setEntry i v).regs = s.regs := by rfl
@[simp] theorem State.setEntry_shadow (i : Nat) (v : SchedEntry) : (s.setEntry i v).shadow = s.shadow := by rfl
@[simp] theorem State.setEntry_commits (i : Nat) (v : SchedEntry) : (s.setEntry i v).commits = s.commits := by rfl
@[simp] theorem State.setEntry_dirty (i : Nat) (v : SchedEntry) : (s.setEntry i v).dirty = s.dirty := by rfl
@[simp] theorem State.setEntry_mem (i : Nat) (v : SchedEntry) : (s.setEntry i v).mem = s.mem := by rfl
@[simp] theorem State.setEntry_poison (i : Nat) (v : SchedEntry) : (s.setEntry i v).poison = s.poison := by rfl
@[simp] theorem State.setEntry_refill (i : Nat) (v : SchedEntry) : (s.setEntry i v).refill = s.refill := by rfl
@[simp] theorem State.setEntry_undef (i : Nat) (v : SchedEntry) : (s.setEntry i v).undef = s.undef := by rfl
@[simp] theorem State.setEntry_lagged (i : Nat) (v : SchedEntry) : (s.setEntry i v).lagged = s.lagged := by rfl
@[simp] theorem State.setEntry_acc (i : Nat) (v : SchedEntry) : (s.setEntry i v).acc = s.acc := by rfl
@[simp] theorem State.setEntry_accPoison (i : Nat) (v : SchedEntry) : (s.setEntry i v).accPoison = s.accPoison := by rfl
@[simp] theorem State.setEntry_weights (i : Nat) (v : SchedEntry) : (s.setEntry i v).weights = s.weights := by rfl
@[simp] theorem State.setEntry_queues (i : Nat) (v : SchedEntry) : (s.setEntry i v).queues = s.queues := by rfl
@[simp] theorem State.setEntry_harts (i : Nat) (v : SchedEntry) : (s.setEntry i v).harts = s.harts := by rfl
@[simp] theorem State.setEntry_lvseed (i : Nat) (v : SchedEntry) : (s.setEntry i v).lvseed = s.lvseed := by rfl
@[simp] theorem State.setEntry_cycles (i : Nat) (v : SchedEntry) : (s.setEntry i v).cycles = s.cycles := by rfl
@[simp] theorem State.setEntry_caches (i : Nat) (v : SchedEntry) : (s.setEntry i v).caches = s.caches := by rfl
@[simp] theorem State.setEntry_solvers (i : Nat) (v : SchedEntry) : (s.setEntry i v).solvers = s.solvers := by rfl
@[simp] theorem State.setEntry_work (i : Nat) (v : SchedEntry) : (s.setEntry i v).work = s.work := by rfl
@[simp] theorem State.setEntry_dispatch (i : Nat) (v : SchedEntry) : (s.setEntry i v).dispatch = s.dispatch := by rfl
@[simp] theorem State.setEntry_channels (i : Nat) (v : SchedEntry) : (s.setEntry i v).channels = s.channels := by rfl
@[simp] theorem State.setEntry_atDecoder (i : Nat) (v : SchedEntry) : (s.setEntry i v).atDecoder = s.atDecoder := by rfl
@[simp] theorem State.setEntry_ports (i : Nat) (v : SchedEntry) : (s.setEntry i v).ports = s.ports := by rfl
@[simp] theorem State.setEntry_arrived (i : Nat) (v : SchedEntry) : (s.setEntry i v).arrived = s.arrived := by rfl
@[simp] theorem State.setEntry_hostIn (i : Nat) (v : SchedEntry) : (s.setEntry i v).hostIn = s.hostIn := by rfl
@[simp] theorem State.setEntry_quays (i : Nat) (v : SchedEntry) : (s.setEntry i v).quays = s.quays := by rfl
@[simp] theorem State.setEntry_booked (i : Nat) (v : SchedEntry) : (s.setEntry i v).booked = s.booked := by rfl
@[simp] theorem State.setEntry_tray (i : Nat) (v : SchedEntry) : (s.setEntry i v).tray = s.tray := by rfl
@[simp] theorem State.setEntry_trayNext (i : Nat) (v : SchedEntry) : (s.setEntry i v).trayNext = s.trayNext := by rfl
@[simp] theorem State.setEntry_ranks (i : Nat) (v : SchedEntry) : (s.setEntry i v).ranks = s.ranks := by rfl
@[simp] theorem State.setEntry_groups (i : Nat) (v : SchedEntry) : (s.setEntry i v).groups = s.groups := by rfl
@[simp] theorem State.setEntry_adds (i : Nat) (v : SchedEntry) : (s.setEntry i v).adds = s.adds := by rfl
@[simp] theorem State.setEntry_berths (i : Nat) (v : SchedEntry) : (s.setEntry i v).berths = s.berths := by rfl
@[simp] theorem State.setEntry_compose (i : Nat) (v : SchedEntry) : (s.setEntry i v).compose = s.compose := by rfl
@[simp] theorem State.setEntry_bells (i : Nat) (v : SchedEntry) : (s.setEntry i v).bells = s.bells := by rfl
@[simp] theorem State.setEntry_discards (i : Nat) (v : SchedEntry) : (s.setEntry i v).discards = s.discards := by rfl
@[simp] theorem State.setEntry_harbour (i : Nat) (v : SchedEntry) : (s.setEntry i v).harbour = s.harbour := by rfl
@[simp] theorem State.setEntry_reports (i : Nat) (v : SchedEntry) : (s.setEntry i v).reports = s.reports := by rfl
@[simp] theorem State.setEntry_domains (i : Nat) (v : SchedEntry) : (s.setEntry i v).domains = s.domains := by rfl
@[simp] theorem State.setEntry_life (i : Nat) (v : SchedEntry) : (s.setEntry i v).life = s.life := by rfl
@[simp] theorem State.setEntry_ckpt (i : Nat) (v : SchedEntry) : (s.setEntry i v).ckpt = s.ckpt := by rfl
@[simp] theorem State.setEntry_images (i : Nat) (v : SchedEntry) : (s.setEntry i v).images = s.images := by rfl
@[simp] theorem State.setEntry_revoked (i : Nat) (v : SchedEntry) : (s.setEntry i v).revoked = s.revoked := by rfl
@[simp] theorem State.setEntry_svnMin (i : Nat) (v : SchedEntry) : (s.setEntry i v).svnMin = s.svnMin := by rfl
@[simp] theorem State.setEntry_power (i : Nat) (v : SchedEntry) : (s.setEntry i v).power = s.power := by rfl
@[simp] theorem State.setEntry_tide (i : Nat) (v : SchedEntry) : (s.setEntry i v).tide = s.tide := by rfl
@[simp] theorem State.setEntry_heldActs (i : Nat) (v : SchedEntry) : (s.setEntry i v).heldActs = s.heldActs := by rfl
@[simp] theorem State.setEntry_answer (i : Nat) (v : SchedEntry) : (s.setEntry i v).answer = s.answer := by rfl
@[simp] theorem State.setEntry_draws (i : Nat) (v : SchedEntry) : (s.setEntry i v).draws = s.draws := by rfl

@[simp] theorem State.setBerth_pending (b : Nat) (v : Berth) : (s.setBerth b v).pending = s.pending := by rfl
@[simp] theorem State.setBerth_regs (b : Nat) (v : Berth) : (s.setBerth b v).regs = s.regs := by rfl
@[simp] theorem State.setBerth_shadow (b : Nat) (v : Berth) : (s.setBerth b v).shadow = s.shadow := by rfl
@[simp] theorem State.setBerth_commits (b : Nat) (v : Berth) : (s.setBerth b v).commits = s.commits := by rfl
@[simp] theorem State.setBerth_dirty (b : Nat) (v : Berth) : (s.setBerth b v).dirty = s.dirty := by rfl
@[simp] theorem State.setBerth_mem (b : Nat) (v : Berth) : (s.setBerth b v).mem = s.mem := by rfl
@[simp] theorem State.setBerth_poison (b : Nat) (v : Berth) : (s.setBerth b v).poison = s.poison := by rfl
@[simp] theorem State.setBerth_refill (b : Nat) (v : Berth) : (s.setBerth b v).refill = s.refill := by rfl
@[simp] theorem State.setBerth_undef (b : Nat) (v : Berth) : (s.setBerth b v).undef = s.undef := by rfl
@[simp] theorem State.setBerth_lagged (b : Nat) (v : Berth) : (s.setBerth b v).lagged = s.lagged := by rfl
@[simp] theorem State.setBerth_acc (b : Nat) (v : Berth) : (s.setBerth b v).acc = s.acc := by rfl
@[simp] theorem State.setBerth_accPoison (b : Nat) (v : Berth) : (s.setBerth b v).accPoison = s.accPoison := by rfl
@[simp] theorem State.setBerth_weights (b : Nat) (v : Berth) : (s.setBerth b v).weights = s.weights := by rfl
@[simp] theorem State.setBerth_queues (b : Nat) (v : Berth) : (s.setBerth b v).queues = s.queues := by rfl
@[simp] theorem State.setBerth_harts (b : Nat) (v : Berth) : (s.setBerth b v).harts = s.harts := by rfl
@[simp] theorem State.setBerth_lvseed (b : Nat) (v : Berth) : (s.setBerth b v).lvseed = s.lvseed := by rfl
@[simp] theorem State.setBerth_cycles (b : Nat) (v : Berth) : (s.setBerth b v).cycles = s.cycles := by rfl
@[simp] theorem State.setBerth_caches (b : Nat) (v : Berth) : (s.setBerth b v).caches = s.caches := by rfl
@[simp] theorem State.setBerth_solvers (b : Nat) (v : Berth) : (s.setBerth b v).solvers = s.solvers := by rfl
@[simp] theorem State.setBerth_work (b : Nat) (v : Berth) : (s.setBerth b v).work = s.work := by rfl
@[simp] theorem State.setBerth_dispatch (b : Nat) (v : Berth) : (s.setBerth b v).dispatch = s.dispatch := by rfl
@[simp] theorem State.setBerth_channels (b : Nat) (v : Berth) : (s.setBerth b v).channels = s.channels := by rfl
@[simp] theorem State.setBerth_atDecoder (b : Nat) (v : Berth) : (s.setBerth b v).atDecoder = s.atDecoder := by rfl
@[simp] theorem State.setBerth_ports (b : Nat) (v : Berth) : (s.setBerth b v).ports = s.ports := by rfl
@[simp] theorem State.setBerth_arrived (b : Nat) (v : Berth) : (s.setBerth b v).arrived = s.arrived := by rfl
@[simp] theorem State.setBerth_hostIn (b : Nat) (v : Berth) : (s.setBerth b v).hostIn = s.hostIn := by rfl
@[simp] theorem State.setBerth_quays (b : Nat) (v : Berth) : (s.setBerth b v).quays = s.quays := by rfl
@[simp] theorem State.setBerth_booked (b : Nat) (v : Berth) : (s.setBerth b v).booked = s.booked := by rfl
@[simp] theorem State.setBerth_tray (b : Nat) (v : Berth) : (s.setBerth b v).tray = s.tray := by rfl
@[simp] theorem State.setBerth_trayNext (b : Nat) (v : Berth) : (s.setBerth b v).trayNext = s.trayNext := by rfl
@[simp] theorem State.setBerth_ranks (b : Nat) (v : Berth) : (s.setBerth b v).ranks = s.ranks := by rfl
@[simp] theorem State.setBerth_groups (b : Nat) (v : Berth) : (s.setBerth b v).groups = s.groups := by rfl
@[simp] theorem State.setBerth_adds (b : Nat) (v : Berth) : (s.setBerth b v).adds = s.adds := by rfl
@[simp] theorem State.setBerth_compose (b : Nat) (v : Berth) : (s.setBerth b v).compose = s.compose := by rfl
@[simp] theorem State.setBerth_bells (b : Nat) (v : Berth) : (s.setBerth b v).bells = s.bells := by rfl
@[simp] theorem State.setBerth_discards (b : Nat) (v : Berth) : (s.setBerth b v).discards = s.discards := by rfl
@[simp] theorem State.setBerth_harbour (b : Nat) (v : Berth) : (s.setBerth b v).harbour = s.harbour := by rfl
@[simp] theorem State.setBerth_reports (b : Nat) (v : Berth) : (s.setBerth b v).reports = s.reports := by rfl
@[simp] theorem State.setBerth_domains (b : Nat) (v : Berth) : (s.setBerth b v).domains = s.domains := by rfl
@[simp] theorem State.setBerth_life (b : Nat) (v : Berth) : (s.setBerth b v).life = s.life := by rfl
@[simp] theorem State.setBerth_ckpt (b : Nat) (v : Berth) : (s.setBerth b v).ckpt = s.ckpt := by rfl
@[simp] theorem State.setBerth_images (b : Nat) (v : Berth) : (s.setBerth b v).images = s.images := by rfl
@[simp] theorem State.setBerth_revoked (b : Nat) (v : Berth) : (s.setBerth b v).revoked = s.revoked := by rfl
@[simp] theorem State.setBerth_svnMin (b : Nat) (v : Berth) : (s.setBerth b v).svnMin = s.svnMin := by rfl
@[simp] theorem State.setBerth_power (b : Nat) (v : Berth) : (s.setBerth b v).power = s.power := by rfl
@[simp] theorem State.setBerth_tide (b : Nat) (v : Berth) : (s.setBerth b v).tide = s.tide := by rfl
@[simp] theorem State.setBerth_sched (b : Nat) (v : Berth) : (s.setBerth b v).sched = s.sched := by rfl
@[simp] theorem State.setBerth_heldActs (b : Nat) (v : Berth) : (s.setBerth b v).heldActs = s.heldActs := by rfl
@[simp] theorem State.setBerth_answer (b : Nat) (v : Berth) : (s.setBerth b v).answer = s.answer := by rfl
@[simp] theorem State.setBerth_draws (b : Nat) (v : Berth) : (s.setBerth b v).draws = s.draws := by rfl

@[simp] theorem State.putByte_pending (a : Nat) (b : Byte) : (s.putByte a b).pending = s.pending := by rfl
@[simp] theorem State.putByte_regs (a : Nat) (b : Byte) : (s.putByte a b).regs = s.regs := by rfl
@[simp] theorem State.putByte_shadow (a : Nat) (b : Byte) : (s.putByte a b).shadow = s.shadow := by rfl
@[simp] theorem State.putByte_commits (a : Nat) (b : Byte) : (s.putByte a b).commits = s.commits := by rfl
@[simp] theorem State.putByte_dirty (a : Nat) (b : Byte) : (s.putByte a b).dirty = s.dirty := by rfl
@[simp] theorem State.putByte_poison (a : Nat) (b : Byte) : (s.putByte a b).poison = s.poison := by rfl
@[simp] theorem State.putByte_refill (a : Nat) (b : Byte) : (s.putByte a b).refill = s.refill := by rfl
@[simp] theorem State.putByte_undef (a : Nat) (b : Byte) : (s.putByte a b).undef = s.undef := by rfl
@[simp] theorem State.putByte_lagged (a : Nat) (b : Byte) : (s.putByte a b).lagged = s.lagged := by rfl
@[simp] theorem State.putByte_acc (a : Nat) (b : Byte) : (s.putByte a b).acc = s.acc := by rfl
@[simp] theorem State.putByte_accPoison (a : Nat) (b : Byte) : (s.putByte a b).accPoison = s.accPoison := by rfl
@[simp] theorem State.putByte_weights (a : Nat) (b : Byte) : (s.putByte a b).weights = s.weights := by rfl
@[simp] theorem State.putByte_queues (a : Nat) (b : Byte) : (s.putByte a b).queues = s.queues := by rfl
@[simp] theorem State.putByte_harts (a : Nat) (b : Byte) : (s.putByte a b).harts = s.harts := by rfl
@[simp] theorem State.putByte_lvseed (a : Nat) (b : Byte) : (s.putByte a b).lvseed = s.lvseed := by rfl
@[simp] theorem State.putByte_cycles (a : Nat) (b : Byte) : (s.putByte a b).cycles = s.cycles := by rfl
@[simp] theorem State.putByte_caches (a : Nat) (b : Byte) : (s.putByte a b).caches = s.caches := by rfl
@[simp] theorem State.putByte_solvers (a : Nat) (b : Byte) : (s.putByte a b).solvers = s.solvers := by rfl
@[simp] theorem State.putByte_work (a : Nat) (b : Byte) : (s.putByte a b).work = s.work := by rfl
@[simp] theorem State.putByte_dispatch (a : Nat) (b : Byte) : (s.putByte a b).dispatch = s.dispatch := by rfl
@[simp] theorem State.putByte_channels (a : Nat) (b : Byte) : (s.putByte a b).channels = s.channels := by rfl
@[simp] theorem State.putByte_atDecoder (a : Nat) (b : Byte) : (s.putByte a b).atDecoder = s.atDecoder := by rfl
@[simp] theorem State.putByte_ports (a : Nat) (b : Byte) : (s.putByte a b).ports = s.ports := by rfl
@[simp] theorem State.putByte_arrived (a : Nat) (b : Byte) : (s.putByte a b).arrived = s.arrived := by rfl
@[simp] theorem State.putByte_hostIn (a : Nat) (b : Byte) : (s.putByte a b).hostIn = s.hostIn := by rfl
@[simp] theorem State.putByte_quays (a : Nat) (b : Byte) : (s.putByte a b).quays = s.quays := by rfl
@[simp] theorem State.putByte_booked (a : Nat) (b : Byte) : (s.putByte a b).booked = s.booked := by rfl
@[simp] theorem State.putByte_tray (a : Nat) (b : Byte) : (s.putByte a b).tray = s.tray := by rfl
@[simp] theorem State.putByte_trayNext (a : Nat) (b : Byte) : (s.putByte a b).trayNext = s.trayNext := by rfl
@[simp] theorem State.putByte_ranks (a : Nat) (b : Byte) : (s.putByte a b).ranks = s.ranks := by rfl
@[simp] theorem State.putByte_groups (a : Nat) (b : Byte) : (s.putByte a b).groups = s.groups := by rfl
@[simp] theorem State.putByte_adds (a : Nat) (b : Byte) : (s.putByte a b).adds = s.adds := by rfl
@[simp] theorem State.putByte_berths (a : Nat) (b : Byte) : (s.putByte a b).berths = s.berths := by rfl
@[simp] theorem State.putByte_compose (a : Nat) (b : Byte) : (s.putByte a b).compose = s.compose := by rfl
@[simp] theorem State.putByte_bells (a : Nat) (b : Byte) : (s.putByte a b).bells = s.bells := by rfl
@[simp] theorem State.putByte_discards (a : Nat) (b : Byte) : (s.putByte a b).discards = s.discards := by rfl
@[simp] theorem State.putByte_harbour (a : Nat) (b : Byte) : (s.putByte a b).harbour = s.harbour := by rfl
@[simp] theorem State.putByte_reports (a : Nat) (b : Byte) : (s.putByte a b).reports = s.reports := by rfl
@[simp] theorem State.putByte_domains (a : Nat) (b : Byte) : (s.putByte a b).domains = s.domains := by rfl
@[simp] theorem State.putByte_life (a : Nat) (b : Byte) : (s.putByte a b).life = s.life := by rfl
@[simp] theorem State.putByte_ckpt (a : Nat) (b : Byte) : (s.putByte a b).ckpt = s.ckpt := by rfl
@[simp] theorem State.putByte_images (a : Nat) (b : Byte) : (s.putByte a b).images = s.images := by rfl
@[simp] theorem State.putByte_revoked (a : Nat) (b : Byte) : (s.putByte a b).revoked = s.revoked := by rfl
@[simp] theorem State.putByte_svnMin (a : Nat) (b : Byte) : (s.putByte a b).svnMin = s.svnMin := by rfl
@[simp] theorem State.putByte_power (a : Nat) (b : Byte) : (s.putByte a b).power = s.power := by rfl
@[simp] theorem State.putByte_tide (a : Nat) (b : Byte) : (s.putByte a b).tide = s.tide := by rfl
@[simp] theorem State.putByte_sched (a : Nat) (b : Byte) : (s.putByte a b).sched = s.sched := by rfl
@[simp] theorem State.putByte_heldActs (a : Nat) (b : Byte) : (s.putByte a b).heldActs = s.heldActs := by rfl
@[simp] theorem State.putByte_answer (a : Nat) (b : Byte) : (s.putByte a b).answer = s.answer := by rfl
@[simp] theorem State.putByte_draws (a : Nat) (b : Byte) : (s.putByte a b).draws = s.draws := by rfl

@[simp] theorem State.putPoison_pending (a : Nat) (p : Bool) : (s.putPoison a p).pending = s.pending := by rfl
@[simp] theorem State.putPoison_regs (a : Nat) (p : Bool) : (s.putPoison a p).regs = s.regs := by rfl
@[simp] theorem State.putPoison_shadow (a : Nat) (p : Bool) : (s.putPoison a p).shadow = s.shadow := by rfl
@[simp] theorem State.putPoison_commits (a : Nat) (p : Bool) : (s.putPoison a p).commits = s.commits := by rfl
@[simp] theorem State.putPoison_dirty (a : Nat) (p : Bool) : (s.putPoison a p).dirty = s.dirty := by rfl
@[simp] theorem State.putPoison_mem (a : Nat) (p : Bool) : (s.putPoison a p).mem = s.mem := by rfl
@[simp] theorem State.putPoison_refill (a : Nat) (p : Bool) : (s.putPoison a p).refill = s.refill := by rfl
@[simp] theorem State.putPoison_undef (a : Nat) (p : Bool) : (s.putPoison a p).undef = s.undef := by rfl
@[simp] theorem State.putPoison_lagged (a : Nat) (p : Bool) : (s.putPoison a p).lagged = s.lagged := by rfl
@[simp] theorem State.putPoison_acc (a : Nat) (p : Bool) : (s.putPoison a p).acc = s.acc := by rfl
@[simp] theorem State.putPoison_accPoison (a : Nat) (p : Bool) : (s.putPoison a p).accPoison = s.accPoison := by rfl
@[simp] theorem State.putPoison_weights (a : Nat) (p : Bool) : (s.putPoison a p).weights = s.weights := by rfl
@[simp] theorem State.putPoison_queues (a : Nat) (p : Bool) : (s.putPoison a p).queues = s.queues := by rfl
@[simp] theorem State.putPoison_harts (a : Nat) (p : Bool) : (s.putPoison a p).harts = s.harts := by rfl
@[simp] theorem State.putPoison_lvseed (a : Nat) (p : Bool) : (s.putPoison a p).lvseed = s.lvseed := by rfl
@[simp] theorem State.putPoison_cycles (a : Nat) (p : Bool) : (s.putPoison a p).cycles = s.cycles := by rfl
@[simp] theorem State.putPoison_caches (a : Nat) (p : Bool) : (s.putPoison a p).caches = s.caches := by rfl
@[simp] theorem State.putPoison_solvers (a : Nat) (p : Bool) : (s.putPoison a p).solvers = s.solvers := by rfl
@[simp] theorem State.putPoison_work (a : Nat) (p : Bool) : (s.putPoison a p).work = s.work := by rfl
@[simp] theorem State.putPoison_dispatch (a : Nat) (p : Bool) : (s.putPoison a p).dispatch = s.dispatch := by rfl
@[simp] theorem State.putPoison_channels (a : Nat) (p : Bool) : (s.putPoison a p).channels = s.channels := by rfl
@[simp] theorem State.putPoison_atDecoder (a : Nat) (p : Bool) : (s.putPoison a p).atDecoder = s.atDecoder := by rfl
@[simp] theorem State.putPoison_ports (a : Nat) (p : Bool) : (s.putPoison a p).ports = s.ports := by rfl
@[simp] theorem State.putPoison_arrived (a : Nat) (p : Bool) : (s.putPoison a p).arrived = s.arrived := by rfl
@[simp] theorem State.putPoison_hostIn (a : Nat) (p : Bool) : (s.putPoison a p).hostIn = s.hostIn := by rfl
@[simp] theorem State.putPoison_quays (a : Nat) (p : Bool) : (s.putPoison a p).quays = s.quays := by rfl
@[simp] theorem State.putPoison_booked (a : Nat) (p : Bool) : (s.putPoison a p).booked = s.booked := by rfl
@[simp] theorem State.putPoison_tray (a : Nat) (p : Bool) : (s.putPoison a p).tray = s.tray := by rfl
@[simp] theorem State.putPoison_trayNext (a : Nat) (p : Bool) : (s.putPoison a p).trayNext = s.trayNext := by rfl
@[simp] theorem State.putPoison_ranks (a : Nat) (p : Bool) : (s.putPoison a p).ranks = s.ranks := by rfl
@[simp] theorem State.putPoison_groups (a : Nat) (p : Bool) : (s.putPoison a p).groups = s.groups := by rfl
@[simp] theorem State.putPoison_adds (a : Nat) (p : Bool) : (s.putPoison a p).adds = s.adds := by rfl
@[simp] theorem State.putPoison_berths (a : Nat) (p : Bool) : (s.putPoison a p).berths = s.berths := by rfl
@[simp] theorem State.putPoison_compose (a : Nat) (p : Bool) : (s.putPoison a p).compose = s.compose := by rfl
@[simp] theorem State.putPoison_bells (a : Nat) (p : Bool) : (s.putPoison a p).bells = s.bells := by rfl
@[simp] theorem State.putPoison_discards (a : Nat) (p : Bool) : (s.putPoison a p).discards = s.discards := by rfl
@[simp] theorem State.putPoison_harbour (a : Nat) (p : Bool) : (s.putPoison a p).harbour = s.harbour := by rfl
@[simp] theorem State.putPoison_reports (a : Nat) (p : Bool) : (s.putPoison a p).reports = s.reports := by rfl
@[simp] theorem State.putPoison_domains (a : Nat) (p : Bool) : (s.putPoison a p).domains = s.domains := by rfl
@[simp] theorem State.putPoison_life (a : Nat) (p : Bool) : (s.putPoison a p).life = s.life := by rfl
@[simp] theorem State.putPoison_ckpt (a : Nat) (p : Bool) : (s.putPoison a p).ckpt = s.ckpt := by rfl
@[simp] theorem State.putPoison_images (a : Nat) (p : Bool) : (s.putPoison a p).images = s.images := by rfl
@[simp] theorem State.putPoison_revoked (a : Nat) (p : Bool) : (s.putPoison a p).revoked = s.revoked := by rfl
@[simp] theorem State.putPoison_svnMin (a : Nat) (p : Bool) : (s.putPoison a p).svnMin = s.svnMin := by rfl
@[simp] theorem State.putPoison_power (a : Nat) (p : Bool) : (s.putPoison a p).power = s.power := by rfl
@[simp] theorem State.putPoison_tide (a : Nat) (p : Bool) : (s.putPoison a p).tide = s.tide := by rfl
@[simp] theorem State.putPoison_sched (a : Nat) (p : Bool) : (s.putPoison a p).sched = s.sched := by rfl
@[simp] theorem State.putPoison_heldActs (a : Nat) (p : Bool) : (s.putPoison a p).heldActs = s.heldActs := by rfl
@[simp] theorem State.putPoison_answer (a : Nat) (p : Bool) : (s.putPoison a p).answer = s.answer := by rfl
@[simp] theorem State.putPoison_draws (a : Nat) (p : Bool) : (s.putPoison a p).draws = s.draws := by rfl

@[simp] theorem State.dropMem_pending (p : Nat → Bool) : (s.dropMem p).pending = s.pending := by rfl
@[simp] theorem State.dropMem_regs (p : Nat → Bool) : (s.dropMem p).regs = s.regs := by rfl
@[simp] theorem State.dropMem_shadow (p : Nat → Bool) : (s.dropMem p).shadow = s.shadow := by rfl
@[simp] theorem State.dropMem_commits (p : Nat → Bool) : (s.dropMem p).commits = s.commits := by rfl
@[simp] theorem State.dropMem_dirty (p : Nat → Bool) : (s.dropMem p).dirty = s.dirty := by rfl
@[simp] theorem State.dropMem_refill (p : Nat → Bool) : (s.dropMem p).refill = s.refill := by rfl
@[simp] theorem State.dropMem_undef (p : Nat → Bool) : (s.dropMem p).undef = s.undef := by rfl
@[simp] theorem State.dropMem_lagged (p : Nat → Bool) : (s.dropMem p).lagged = s.lagged := by rfl
@[simp] theorem State.dropMem_acc (p : Nat → Bool) : (s.dropMem p).acc = s.acc := by rfl
@[simp] theorem State.dropMem_accPoison (p : Nat → Bool) : (s.dropMem p).accPoison = s.accPoison := by rfl
@[simp] theorem State.dropMem_weights (p : Nat → Bool) : (s.dropMem p).weights = s.weights := by rfl
@[simp] theorem State.dropMem_queues (p : Nat → Bool) : (s.dropMem p).queues = s.queues := by rfl
@[simp] theorem State.dropMem_harts (p : Nat → Bool) : (s.dropMem p).harts = s.harts := by rfl
@[simp] theorem State.dropMem_lvseed (p : Nat → Bool) : (s.dropMem p).lvseed = s.lvseed := by rfl
@[simp] theorem State.dropMem_cycles (p : Nat → Bool) : (s.dropMem p).cycles = s.cycles := by rfl
@[simp] theorem State.dropMem_caches (p : Nat → Bool) : (s.dropMem p).caches = s.caches := by rfl
@[simp] theorem State.dropMem_solvers (p : Nat → Bool) : (s.dropMem p).solvers = s.solvers := by rfl
@[simp] theorem State.dropMem_work (p : Nat → Bool) : (s.dropMem p).work = s.work := by rfl
@[simp] theorem State.dropMem_dispatch (p : Nat → Bool) : (s.dropMem p).dispatch = s.dispatch := by rfl
@[simp] theorem State.dropMem_channels (p : Nat → Bool) : (s.dropMem p).channels = s.channels := by rfl
@[simp] theorem State.dropMem_atDecoder (p : Nat → Bool) : (s.dropMem p).atDecoder = s.atDecoder := by rfl
@[simp] theorem State.dropMem_ports (p : Nat → Bool) : (s.dropMem p).ports = s.ports := by rfl
@[simp] theorem State.dropMem_arrived (p : Nat → Bool) : (s.dropMem p).arrived = s.arrived := by rfl
@[simp] theorem State.dropMem_hostIn (p : Nat → Bool) : (s.dropMem p).hostIn = s.hostIn := by rfl
@[simp] theorem State.dropMem_quays (p : Nat → Bool) : (s.dropMem p).quays = s.quays := by rfl
@[simp] theorem State.dropMem_booked (p : Nat → Bool) : (s.dropMem p).booked = s.booked := by rfl
@[simp] theorem State.dropMem_tray (p : Nat → Bool) : (s.dropMem p).tray = s.tray := by rfl
@[simp] theorem State.dropMem_trayNext (p : Nat → Bool) : (s.dropMem p).trayNext = s.trayNext := by rfl
@[simp] theorem State.dropMem_ranks (p : Nat → Bool) : (s.dropMem p).ranks = s.ranks := by rfl
@[simp] theorem State.dropMem_groups (p : Nat → Bool) : (s.dropMem p).groups = s.groups := by rfl
@[simp] theorem State.dropMem_adds (p : Nat → Bool) : (s.dropMem p).adds = s.adds := by rfl
@[simp] theorem State.dropMem_berths (p : Nat → Bool) : (s.dropMem p).berths = s.berths := by rfl
@[simp] theorem State.dropMem_compose (p : Nat → Bool) : (s.dropMem p).compose = s.compose := by rfl
@[simp] theorem State.dropMem_bells (p : Nat → Bool) : (s.dropMem p).bells = s.bells := by rfl
@[simp] theorem State.dropMem_discards (p : Nat → Bool) : (s.dropMem p).discards = s.discards := by rfl
@[simp] theorem State.dropMem_harbour (p : Nat → Bool) : (s.dropMem p).harbour = s.harbour := by rfl
@[simp] theorem State.dropMem_reports (p : Nat → Bool) : (s.dropMem p).reports = s.reports := by rfl
@[simp] theorem State.dropMem_domains (p : Nat → Bool) : (s.dropMem p).domains = s.domains := by rfl
@[simp] theorem State.dropMem_life (p : Nat → Bool) : (s.dropMem p).life = s.life := by rfl
@[simp] theorem State.dropMem_ckpt (p : Nat → Bool) : (s.dropMem p).ckpt = s.ckpt := by rfl
@[simp] theorem State.dropMem_images (p : Nat → Bool) : (s.dropMem p).images = s.images := by rfl
@[simp] theorem State.dropMem_revoked (p : Nat → Bool) : (s.dropMem p).revoked = s.revoked := by rfl
@[simp] theorem State.dropMem_svnMin (p : Nat → Bool) : (s.dropMem p).svnMin = s.svnMin := by rfl
@[simp] theorem State.dropMem_power (p : Nat → Bool) : (s.dropMem p).power = s.power := by rfl
@[simp] theorem State.dropMem_tide (p : Nat → Bool) : (s.dropMem p).tide = s.tide := by rfl
@[simp] theorem State.dropMem_sched (p : Nat → Bool) : (s.dropMem p).sched = s.sched := by rfl
@[simp] theorem State.dropMem_heldActs (p : Nat → Bool) : (s.dropMem p).heldActs = s.heldActs := by rfl
@[simp] theorem State.dropMem_answer (p : Nat → Bool) : (s.dropMem p).answer = s.answer := by rfl
@[simp] theorem State.dropMem_draws (p : Nat → Bool) : (s.dropMem p).draws = s.draws := by rfl

@[simp] theorem State.lifeAdd_pending (o b n : Nat) : (s.lifeAdd o b n).pending = s.pending := by rfl
@[simp] theorem State.lifeAdd_regs (o b n : Nat) : (s.lifeAdd o b n).regs = s.regs := by rfl
@[simp] theorem State.lifeAdd_shadow (o b n : Nat) : (s.lifeAdd o b n).shadow = s.shadow := by rfl
@[simp] theorem State.lifeAdd_commits (o b n : Nat) : (s.lifeAdd o b n).commits = s.commits := by rfl
@[simp] theorem State.lifeAdd_dirty (o b n : Nat) : (s.lifeAdd o b n).dirty = s.dirty := by rfl
@[simp] theorem State.lifeAdd_mem (o b n : Nat) : (s.lifeAdd o b n).mem = s.mem := by rfl
@[simp] theorem State.lifeAdd_poison (o b n : Nat) : (s.lifeAdd o b n).poison = s.poison := by rfl
@[simp] theorem State.lifeAdd_refill (o b n : Nat) : (s.lifeAdd o b n).refill = s.refill := by rfl
@[simp] theorem State.lifeAdd_undef (o b n : Nat) : (s.lifeAdd o b n).undef = s.undef := by rfl
@[simp] theorem State.lifeAdd_lagged (o b n : Nat) : (s.lifeAdd o b n).lagged = s.lagged := by rfl
@[simp] theorem State.lifeAdd_acc (o b n : Nat) : (s.lifeAdd o b n).acc = s.acc := by rfl
@[simp] theorem State.lifeAdd_accPoison (o b n : Nat) : (s.lifeAdd o b n).accPoison = s.accPoison := by rfl
@[simp] theorem State.lifeAdd_weights (o b n : Nat) : (s.lifeAdd o b n).weights = s.weights := by rfl
@[simp] theorem State.lifeAdd_queues (o b n : Nat) : (s.lifeAdd o b n).queues = s.queues := by rfl
@[simp] theorem State.lifeAdd_harts (o b n : Nat) : (s.lifeAdd o b n).harts = s.harts := by rfl
@[simp] theorem State.lifeAdd_lvseed (o b n : Nat) : (s.lifeAdd o b n).lvseed = s.lvseed := by rfl
@[simp] theorem State.lifeAdd_cycles (o b n : Nat) : (s.lifeAdd o b n).cycles = s.cycles := by rfl
@[simp] theorem State.lifeAdd_caches (o b n : Nat) : (s.lifeAdd o b n).caches = s.caches := by rfl
@[simp] theorem State.lifeAdd_solvers (o b n : Nat) : (s.lifeAdd o b n).solvers = s.solvers := by rfl
@[simp] theorem State.lifeAdd_work (o b n : Nat) : (s.lifeAdd o b n).work = s.work := by rfl
@[simp] theorem State.lifeAdd_dispatch (o b n : Nat) : (s.lifeAdd o b n).dispatch = s.dispatch := by rfl
@[simp] theorem State.lifeAdd_channels (o b n : Nat) : (s.lifeAdd o b n).channels = s.channels := by rfl
@[simp] theorem State.lifeAdd_atDecoder (o b n : Nat) : (s.lifeAdd o b n).atDecoder = s.atDecoder := by rfl
@[simp] theorem State.lifeAdd_ports (o b n : Nat) : (s.lifeAdd o b n).ports = s.ports := by rfl
@[simp] theorem State.lifeAdd_arrived (o b n : Nat) : (s.lifeAdd o b n).arrived = s.arrived := by rfl
@[simp] theorem State.lifeAdd_hostIn (o b n : Nat) : (s.lifeAdd o b n).hostIn = s.hostIn := by rfl
@[simp] theorem State.lifeAdd_quays (o b n : Nat) : (s.lifeAdd o b n).quays = s.quays := by rfl
@[simp] theorem State.lifeAdd_booked (o b n : Nat) : (s.lifeAdd o b n).booked = s.booked := by rfl
@[simp] theorem State.lifeAdd_tray (o b n : Nat) : (s.lifeAdd o b n).tray = s.tray := by rfl
@[simp] theorem State.lifeAdd_trayNext (o b n : Nat) : (s.lifeAdd o b n).trayNext = s.trayNext := by rfl
@[simp] theorem State.lifeAdd_ranks (o b n : Nat) : (s.lifeAdd o b n).ranks = s.ranks := by rfl
@[simp] theorem State.lifeAdd_groups (o b n : Nat) : (s.lifeAdd o b n).groups = s.groups := by rfl
@[simp] theorem State.lifeAdd_adds (o b n : Nat) : (s.lifeAdd o b n).adds = s.adds := by rfl
@[simp] theorem State.lifeAdd_berths (o b n : Nat) : (s.lifeAdd o b n).berths = s.berths := by rfl
@[simp] theorem State.lifeAdd_compose (o b n : Nat) : (s.lifeAdd o b n).compose = s.compose := by rfl
@[simp] theorem State.lifeAdd_bells (o b n : Nat) : (s.lifeAdd o b n).bells = s.bells := by rfl
@[simp] theorem State.lifeAdd_discards (o b n : Nat) : (s.lifeAdd o b n).discards = s.discards := by rfl
@[simp] theorem State.lifeAdd_harbour (o b n : Nat) : (s.lifeAdd o b n).harbour = s.harbour := by rfl
@[simp] theorem State.lifeAdd_reports (o b n : Nat) : (s.lifeAdd o b n).reports = s.reports := by rfl
@[simp] theorem State.lifeAdd_domains (o b n : Nat) : (s.lifeAdd o b n).domains = s.domains := by rfl
@[simp] theorem State.lifeAdd_ckpt (o b n : Nat) : (s.lifeAdd o b n).ckpt = s.ckpt := by rfl
@[simp] theorem State.lifeAdd_images (o b n : Nat) : (s.lifeAdd o b n).images = s.images := by rfl
@[simp] theorem State.lifeAdd_revoked (o b n : Nat) : (s.lifeAdd o b n).revoked = s.revoked := by rfl
@[simp] theorem State.lifeAdd_svnMin (o b n : Nat) : (s.lifeAdd o b n).svnMin = s.svnMin := by rfl
@[simp] theorem State.lifeAdd_power (o b n : Nat) : (s.lifeAdd o b n).power = s.power := by rfl
@[simp] theorem State.lifeAdd_tide (o b n : Nat) : (s.lifeAdd o b n).tide = s.tide := by rfl
@[simp] theorem State.lifeAdd_sched (o b n : Nat) : (s.lifeAdd o b n).sched = s.sched := by rfl
@[simp] theorem State.lifeAdd_heldActs (o b n : Nat) : (s.lifeAdd o b n).heldActs = s.heldActs := by rfl
@[simp] theorem State.lifeAdd_answer (o b n : Nat) : (s.lifeAdd o b n).answer = s.answer := by rfl
@[simp] theorem State.lifeAdd_draws (o b n : Nat) : (s.lifeAdd o b n).draws = s.draws := by rfl

@[simp] theorem State.lifePut_pending (o : Nat) (d : List Byte) : (s.lifePut o d).pending = s.pending := by rfl
@[simp] theorem State.lifePut_regs (o : Nat) (d : List Byte) : (s.lifePut o d).regs = s.regs := by rfl
@[simp] theorem State.lifePut_shadow (o : Nat) (d : List Byte) : (s.lifePut o d).shadow = s.shadow := by rfl
@[simp] theorem State.lifePut_commits (o : Nat) (d : List Byte) : (s.lifePut o d).commits = s.commits := by rfl
@[simp] theorem State.lifePut_dirty (o : Nat) (d : List Byte) : (s.lifePut o d).dirty = s.dirty := by rfl
@[simp] theorem State.lifePut_mem (o : Nat) (d : List Byte) : (s.lifePut o d).mem = s.mem := by rfl
@[simp] theorem State.lifePut_poison (o : Nat) (d : List Byte) : (s.lifePut o d).poison = s.poison := by rfl
@[simp] theorem State.lifePut_refill (o : Nat) (d : List Byte) : (s.lifePut o d).refill = s.refill := by rfl
@[simp] theorem State.lifePut_undef (o : Nat) (d : List Byte) : (s.lifePut o d).undef = s.undef := by rfl
@[simp] theorem State.lifePut_lagged (o : Nat) (d : List Byte) : (s.lifePut o d).lagged = s.lagged := by rfl
@[simp] theorem State.lifePut_acc (o : Nat) (d : List Byte) : (s.lifePut o d).acc = s.acc := by rfl
@[simp] theorem State.lifePut_accPoison (o : Nat) (d : List Byte) : (s.lifePut o d).accPoison = s.accPoison := by rfl
@[simp] theorem State.lifePut_weights (o : Nat) (d : List Byte) : (s.lifePut o d).weights = s.weights := by rfl
@[simp] theorem State.lifePut_queues (o : Nat) (d : List Byte) : (s.lifePut o d).queues = s.queues := by rfl
@[simp] theorem State.lifePut_harts (o : Nat) (d : List Byte) : (s.lifePut o d).harts = s.harts := by rfl
@[simp] theorem State.lifePut_lvseed (o : Nat) (d : List Byte) : (s.lifePut o d).lvseed = s.lvseed := by rfl
@[simp] theorem State.lifePut_cycles (o : Nat) (d : List Byte) : (s.lifePut o d).cycles = s.cycles := by rfl
@[simp] theorem State.lifePut_caches (o : Nat) (d : List Byte) : (s.lifePut o d).caches = s.caches := by rfl
@[simp] theorem State.lifePut_solvers (o : Nat) (d : List Byte) : (s.lifePut o d).solvers = s.solvers := by rfl
@[simp] theorem State.lifePut_work (o : Nat) (d : List Byte) : (s.lifePut o d).work = s.work := by rfl
@[simp] theorem State.lifePut_dispatch (o : Nat) (d : List Byte) : (s.lifePut o d).dispatch = s.dispatch := by rfl
@[simp] theorem State.lifePut_channels (o : Nat) (d : List Byte) : (s.lifePut o d).channels = s.channels := by rfl
@[simp] theorem State.lifePut_atDecoder (o : Nat) (d : List Byte) : (s.lifePut o d).atDecoder = s.atDecoder := by rfl
@[simp] theorem State.lifePut_ports (o : Nat) (d : List Byte) : (s.lifePut o d).ports = s.ports := by rfl
@[simp] theorem State.lifePut_arrived (o : Nat) (d : List Byte) : (s.lifePut o d).arrived = s.arrived := by rfl
@[simp] theorem State.lifePut_hostIn (o : Nat) (d : List Byte) : (s.lifePut o d).hostIn = s.hostIn := by rfl
@[simp] theorem State.lifePut_quays (o : Nat) (d : List Byte) : (s.lifePut o d).quays = s.quays := by rfl
@[simp] theorem State.lifePut_booked (o : Nat) (d : List Byte) : (s.lifePut o d).booked = s.booked := by rfl
@[simp] theorem State.lifePut_tray (o : Nat) (d : List Byte) : (s.lifePut o d).tray = s.tray := by rfl
@[simp] theorem State.lifePut_trayNext (o : Nat) (d : List Byte) : (s.lifePut o d).trayNext = s.trayNext := by rfl
@[simp] theorem State.lifePut_ranks (o : Nat) (d : List Byte) : (s.lifePut o d).ranks = s.ranks := by rfl
@[simp] theorem State.lifePut_groups (o : Nat) (d : List Byte) : (s.lifePut o d).groups = s.groups := by rfl
@[simp] theorem State.lifePut_adds (o : Nat) (d : List Byte) : (s.lifePut o d).adds = s.adds := by rfl
@[simp] theorem State.lifePut_berths (o : Nat) (d : List Byte) : (s.lifePut o d).berths = s.berths := by rfl
@[simp] theorem State.lifePut_compose (o : Nat) (d : List Byte) : (s.lifePut o d).compose = s.compose := by rfl
@[simp] theorem State.lifePut_bells (o : Nat) (d : List Byte) : (s.lifePut o d).bells = s.bells := by rfl
@[simp] theorem State.lifePut_discards (o : Nat) (d : List Byte) : (s.lifePut o d).discards = s.discards := by rfl
@[simp] theorem State.lifePut_harbour (o : Nat) (d : List Byte) : (s.lifePut o d).harbour = s.harbour := by rfl
@[simp] theorem State.lifePut_reports (o : Nat) (d : List Byte) : (s.lifePut o d).reports = s.reports := by rfl
@[simp] theorem State.lifePut_domains (o : Nat) (d : List Byte) : (s.lifePut o d).domains = s.domains := by rfl
@[simp] theorem State.lifePut_ckpt (o : Nat) (d : List Byte) : (s.lifePut o d).ckpt = s.ckpt := by rfl
@[simp] theorem State.lifePut_images (o : Nat) (d : List Byte) : (s.lifePut o d).images = s.images := by rfl
@[simp] theorem State.lifePut_revoked (o : Nat) (d : List Byte) : (s.lifePut o d).revoked = s.revoked := by rfl
@[simp] theorem State.lifePut_svnMin (o : Nat) (d : List Byte) : (s.lifePut o d).svnMin = s.svnMin := by rfl
@[simp] theorem State.lifePut_power (o : Nat) (d : List Byte) : (s.lifePut o d).power = s.power := by rfl
@[simp] theorem State.lifePut_tide (o : Nat) (d : List Byte) : (s.lifePut o d).tide = s.tide := by rfl
@[simp] theorem State.lifePut_sched (o : Nat) (d : List Byte) : (s.lifePut o d).sched = s.sched := by rfl
@[simp] theorem State.lifePut_heldActs (o : Nat) (d : List Byte) : (s.lifePut o d).heldActs = s.heldActs := by rfl
@[simp] theorem State.lifePut_answer (o : Nat) (d : List Byte) : (s.lifePut o d).answer = s.answer := by rfl
@[simp] theorem State.lifePut_draws (o : Nat) (d : List Byte) : (s.lifePut o d).draws = s.draws := by rfl

end Sys2Proof.Machine
end

