-- ==== Sys2Proof/Laws/Tab.lean ====
section
/-! SUPPORT. Sparse tables: read after write, and the operations keep the canonical form. -/

namespace Sys2Proof.Machine

theorem Tab.get_insert_same {α : Type} (d : α) (t : Tab α) (i : Nat) (v : α) (h : ∀ e ∈ t, e.1 ≠ i) :
    Tab.get d (Tab.insert t i v) i = v := by
  induction t with
  | nil => simp [Tab.insert, Tab.get]
  | cons e t ih =>
    obtain ⟨k, w⟩ := e
    have hk : k ≠ i := h (k, w) (by simp)
    have ht : ∀ e ∈ t, e.1 ≠ i := fun e he => h e (by simp [he])
    unfold Tab.insert
    split
    · simp [Tab.get]
    · simp [Tab.get, hk, ih ht]

theorem Tab.get_insert_other {α : Type} (d : α) (t : Tab α) (i j : Nat) (v : α) (h : j ≠ i) :
    Tab.get d (Tab.insert t i v) j = Tab.get d t j := by
  induction t with
  | nil => simp [Tab.insert, Tab.get, Ne.symm h]
  | cons e t ih =>
    obtain ⟨k, w⟩ := e
    unfold Tab.insert
    split
    · simp [Tab.get, Ne.symm h]
    · simp only [Tab.get, ih]

theorem Tab.get_dropKeys {α : Type} (d : α) (t : Tab α) (p : Nat → Bool) (j : Nat) :
    Tab.get d (Tab.dropKeys t p) j = if p j then d else Tab.get d t j := by
  induction t with
  | nil => simp [Tab.dropKeys, Tab.get]
  | cons e t ih =>
    obtain ⟨k, w⟩ := e
    unfold Tab.dropKeys at ih ⊢
    by_cases hp : p k = true
    · by_cases hk : k = j
      · subst hk; simp [hp, ih]
      · simp [hp, ih, Tab.get, hk]
    · by_cases hk : k = j
      · subst hk; simp [hp, Tab.get]
      · simp [hp, ih, Tab.get, hk]

/-- A key reads as what was written to it. -/
@[simp] theorem Tab.get_set_same {α : Type} [DecidableEq α] (d : α) (t : Tab α) (i : Nat) (v : α) :
    Tab.get d (Tab.set d t i v) i = v := by
  unfold Tab.set
  split
  · next h => simp [Tab.get_dropKeys, h]
  · exact Tab.get_insert_same d _ i v (by simp [Tab.dropKeys])

/-- A write leaves every other key as it was. -/
theorem Tab.get_set_other {α : Type} [DecidableEq α] (d d' : α) (t : Tab α) (i j : Nat) (v : α) (h : j ≠ i) :
    Tab.get d (Tab.set d' t i v) j = Tab.get d t j := by
  unfold Tab.set
  split
  · simp [Tab.get_dropKeys, h]
  · rw [Tab.get_insert_other d _ i j v h, Tab.get_dropKeys]; simp [h]

theorem Tab.sortedFrom_mono {α : Type} {lo lo' : Nat} {t : Tab α} (h : lo' ≤ lo) (ht : Tab.sortedFrom lo t = true) :
    Tab.sortedFrom lo' t = true := by
  cases t with
  | nil => rfl
  | cons e t => simp [Tab.sortedFrom] at ht ⊢; exact ⟨by omega, ht.2⟩

theorem Tab.sortedFrom_filter {α : Type} (p : Nat × α → Bool) {lo : Nat} {t : Tab α} (ht : Tab.sortedFrom lo t = true) :
    Tab.sortedFrom lo (t.filter p) = true := by
  induction t generalizing lo with
  | nil => rfl
  | cons e t ih =>
    obtain ⟨k, w⟩ := e
    simp [Tab.sortedFrom] at ht
    by_cases hp : p (k, w) = true
    · simp [hp, Tab.sortedFrom, ht.1, ih ht.2]
    · simp [hp]; exact Tab.sortedFrom_mono (by omega) (ih ht.2)

theorem Tab.sortedFrom_insert {α : Type} {lo i : Nat} {v : α} {t : Tab α} (hi : lo ≤ i) (hne : ∀ e ∈ t, e.1 ≠ i)
    (ht : Tab.sortedFrom lo t = true) : Tab.sortedFrom lo (Tab.insert t i v) = true := by
  induction t generalizing lo with
  | nil => simp [Tab.insert, Tab.sortedFrom, hi]
  | cons e t ih =>
    obtain ⟨k, w⟩ := e
    have hk : k ≠ i := hne (k, w) (by simp)
    simp [Tab.sortedFrom] at ht
    unfold Tab.insert
    split
    · next h => simp [Tab.sortedFrom, hi, ht.2]; omega
    · next h => simp [Tab.sortedFrom, ht.1]; exact ih (by omega) (fun e he => hne e (by simp [he])) ht.2

theorem Tab.mem_insert {α : Type} {t : Tab α} {i : Nat} {v : α} {e : Nat × α} (h : e ∈ Tab.insert t i v) :
    e = (i, v) ∨ e ∈ t := by
  induction t with
  | nil => simp [Tab.insert] at h; exact .inl h
  | cons x t ih =>
    obtain ⟨k, w⟩ := x
    unfold Tab.insert at h
    split at h
    · simpa using h
    · simp only [List.mem_cons] at h ⊢
      rcases h with h | h
      · exact .inr (.inl h)
      · rcases ih h with h | h
        · exact .inl h
        · exact .inr (.inr h)

theorem Tab.wf_nil {α : Type} [DecidableEq α] (d : Nat → α) : Tab.wf d [] = true := rfl

theorem Tab.wf_dropKeys {α : Type} [DecidableEq α] {d : Nat → α} {t : Tab α} (p : Nat → Bool) (h : Tab.wf d t = true) :
    Tab.wf d (Tab.dropKeys t p) = true := by
  simp only [Tab.wf, Bool.and_eq_true, List.all_eq_true] at h ⊢
  exact ⟨Tab.sortedFrom_filter _ h.1, fun e he => h.2 e ((List.mem_filter.mp he).1)⟩

/-- A write keeps the canonical form. -/
theorem Tab.wf_set {α : Type} [DecidableEq α] {d : Nat → α} {t : Tab α} (i : Nat) (v : α) (h : Tab.wf d t = true) :
    Tab.wf d (Tab.set (d i) t i v) = true := by
  have hd := Tab.wf_dropKeys (· == i) h
  unfold Tab.set
  split
  · exact hd
  · next hv =>
    simp only [Tab.wf, Bool.and_eq_true, List.all_eq_true] at hd ⊢
    refine ⟨Tab.sortedFrom_insert (Nat.zero_le i) (by simp [Tab.dropKeys]) hd.1, fun e he => ?_⟩
    rcases Tab.mem_insert he with rfl | he
    · simpa using hv
    · exact hd.2 e he

end Sys2Proof.Machine
end

