-- ==== Sys2Proof/Laws/Mem.lean ====
section
/-! SUPPORT. Memory: what a write leaves, and that every memory operation keeps the canonical form. -/

namespace Sys2Proof.Machine

/-- The memory is in its canonical form: addresses strictly rising, and no entry equal to what an unlisted address reads as. -/
def Memory.wf (s : State) : Bool := Tab.wf s.memDefault s.mem

theorem Memory.wf_reset : Memory.wf State.reset = true := rfl

/-- The default of a byte depends on the regions left undefined alone. -/
theorem State.memDefault_of_undef {s t : State} (h : t.undef = s.undef) : t.memDefault = s.memDefault := by
  funext a; simp [State.memDefault, h]

/-- An operation that changes neither memory nor what an unlisted byte reads as keeps the form. -/
theorem Memory.wf_of_eq {s t : State} (hm : t.mem = s.mem) (hu : t.undef = s.undef) (h : Memory.wf s = true) : Memory.wf t = true := by
  simpa [Memory.wf, hm, State.memDefault_of_undef hu] using h

/-- A byte depends on memory and on the regions left undefined alone. -/
theorem State.byteAt_of_eq {s t : State} (hm : t.mem = s.mem) (hu : t.undef = s.undef) (a : Nat) : t.byteAt a = s.byteAt a := by
  simp [State.byteAt, hm, State.memDefault_of_undef hu]

/-- What a step of writing bytes may do to memory: it keeps the form, keeps what unlisted bytes read as, and leaves every byte
outside a range. -/
structure Memory.Wrote (lo hi : Nat) (s t : State) : Prop where
  undef : t.undef = s.undef
  wf    : Memory.wf s = true → Memory.wf t = true
  out   : ∀ a, a < lo ∨ hi ≤ a → t.byteAt a = s.byteAt a

theorem Memory.Wrote.refl (lo hi : Nat) (s : State) : Memory.Wrote lo hi s s := ⟨rfl, id, fun _ _ => rfl⟩

theorem Memory.Wrote.trans {lo hi : Nat} {s t u : State} (h : Memory.Wrote lo hi s t) (k : Memory.Wrote lo hi t u) :
    Memory.Wrote lo hi s u :=
  ⟨k.undef.trans h.undef, fun w => k.wf (h.wf w), fun a ha => (k.out a ha).trans (h.out a ha)⟩

theorem Memory.Wrote.mono {lo hi lo' hi' : Nat} {s t : State} (h : Memory.Wrote lo hi s t) (h1 : lo' ≤ lo) (h2 : hi ≤ hi') :
    Memory.Wrote lo' hi' s t := ⟨h.undef, h.wf, fun a ha => h.out a (by omega)⟩

theorem Memory.Wrote.of_eq {s t : State} (hm : t.mem = s.mem) (hu : t.undef = s.undef) (lo hi : Nat) : Memory.Wrote lo hi s t :=
  ⟨hu, Memory.wf_of_eq hm hu, fun a _ => State.byteAt_of_eq hm hu a⟩

@[simp] theorem State.byteAt_putByte_same (s : State) (a : Nat) (b : Byte) : (s.putByte a b).byteAt a = b := by
  have h : (s.putByte a b).memDefault = s.memDefault := State.memDefault_of_undef (by simp)
  unfold State.byteAt
  rw [h]
  exact Tab.get_set_same _ _ _ _

theorem Memory.wrote_putByte (s : State) (a : Nat) (b : Byte) : Memory.Wrote a (a + 1) s (s.putByte a b) := by
  have hd : (s.putByte a b).memDefault = s.memDefault := State.memDefault_of_undef (by simp)
  refine ⟨by simp, fun h => ?_, fun x hx => ?_⟩
  · unfold Memory.wf at h ⊢
    rw [hd]
    exact Tab.wf_set a b h
  · unfold State.byteAt
    rw [hd]
    exact Tab.get_set_other _ _ _ _ _ _ (by omega)

theorem Memory.wrote_putBytes (bs : List Byte) (s : State) (a : Nat) : Memory.Wrote a (a + bs.length) s (s.putBytes a bs) := by
  induction bs generalizing s a with
  | nil => exact Memory.Wrote.refl _ _ _
  | cons b bs ih =>
    refine ((Memory.wrote_putByte s a b).mono (Nat.le_refl a) ?_).trans ((ih (s.putByte a b) (a + 1)).mono ?_ ?_)
    all_goals first | omega | (simp only [List.length_cons]; omega)

theorem Memory.wrote_writePoison (s : State) (p : Bool) (u : Nat × Nat) (lo hi : Nat) : Memory.Wrote lo hi s (s.writePoison p u) := by
  apply Memory.Wrote.of_eq <;>
    (unfold State.writePoison; repeat' split) <;>
    simp [State.hbmUe, State.captureUe] <;> (repeat' split) <;> simp

theorem Memory.wrote_foldPoison (us : List (Nat × Nat)) (p : Bool) (s : State) (lo hi : Nat) :
    Memory.Wrote lo hi s (us.foldl (fun s u => s.writePoison p u) s) := by
  induction us generalizing s with
  | nil => exact Memory.Wrote.refl _ _ _
  | cons u us ih => exact (Memory.wrote_writePoison s p u lo hi).trans (ih _)

theorem Memory.wrote_writePiece (s : State) (p : Bool) (a : Nat) (bs : List Byte) :
    Memory.Wrote a (a + bs.length) s (s.writePiece p a bs) := by
  unfold State.writePiece
  split
  · exact Memory.Wrote.refl _ _ _
  · exact (Memory.wrote_putBytes bs s a).trans (Memory.wrote_foldPoison _ _ _ _ _)

/-- The pieces of a range lie in it, one after the other. -/
def Memory.within (lo hi : Nat) (ps : List (Nat × Nat)) : Prop := ∀ p ∈ ps, lo ≤ p.1 ∧ p.1 + p.2 ≤ hi

theorem Memory.granules_within (fuel a n : Nat) : Memory.within a (a + n) (granules fuel a n) := by
  induction fuel generalizing a n with
  | zero => intro p hp; simp [granules] at hp
  | succ fuel ih =>
    intro p hp
    unfold granules at hp
    split at hp
    · simp at hp
    · simp only [List.mem_cons] at hp
      have hk : min n (256 - a % 256) ≤ n := Nat.min_le_left _ _
      rcases hp with rfl | hp
      · exact ⟨Nat.le_refl a, by simp only; omega⟩
      · have := ih (a + min n (256 - a % 256)) (n - min n (256 - a % 256)) p hp
        omega

theorem Memory.wrote_writePieces (poison : Bool) (bs : List Byte) (lo hi : Nat) (ps : List (Nat × Nat)) (s : State) (done : Nat)
    (h : Memory.within lo hi ps) : Memory.Wrote lo hi s (State.writePieces poison bs s done ps) := by
  induction ps generalizing s done with
  | nil => exact Memory.Wrote.refl _ _ _
  | cons p ps ih =>
    have hp := h p (by simp)
    unfold State.writePieces
    refine ((Memory.wrote_writePiece s poison p.1 ((bs.drop done).take p.2)).mono hp.1 ?_).trans
      (ih _ _ (fun q hq => h q (by simp [hq])))
    have : ((bs.drop done).take p.2).length ≤ p.2 := by simp only [List.length_take]; omega
    omega

theorem Memory.wrote_countLoss (s : State) (ch : Nat) (cfg : Word) (m : Moved) (lo hi : Nat) :
    Memory.Wrote lo hi s (s.countLoss ch cfg m) := by
  unfold State.countLoss
  refine Memory.Wrote.of_eq ?_ ?_ lo hi <;> (dsimp only; repeat' split) <;> simp

theorem Memory.wrote_touchSector (s : State) (write : Bool) (ch loc lo hi : Nat) :
    Memory.Wrote lo hi s (s.touchSector write ch loc) := by
  unfold State.touchSector
  refine (Memory.Wrote.of_eq (t := s.setChannel ch ((s.channel ch).access (s.mcCfg ch) write loc).chan)
    (by simp) (by simp) lo hi).trans
    ((Memory.wrote_countLoss _ ch (s.mcCfg ch) ((s.channel ch).access (s.mcCfg ch) write loc) lo hi).trans (Memory.Wrote.of_eq ?_ ?_ lo hi)) <;> (dsimp only; repeat' split) <;> simp

theorem Memory.wrote_touchSectors (s : State) (write : Bool) (a n lo hi : Nat) :
    Memory.Wrote lo hi s (s.touchSectors write a n) := by
  unfold State.touchSectors
  generalize unitsOf a n = us
  induction us generalizing s with
  | nil => exact Memory.Wrote.refl _ _ _
  | cons u us ih =>
    refine Memory.Wrote.trans ?_ (ih _)
    dsimp only
    split
    · exact Memory.wrote_touchSector _ _ _ _ _ _
    · exact Memory.Wrote.refl _ _ _

theorem Memory.wrote_reportLost (s : State) (a n lo hi : Nat) : Memory.Wrote lo hi s (s.reportLost a n) := by
  unfold State.reportLost
  split
  · exact Memory.Wrote.refl _ _ _
  · exact Memory.Wrote.of_eq (by simp) (by simp) _ _

/-- A write changes no byte outside its range, and keeps the canonical form. -/
theorem Memory.wrote_memWrite (s : State) (a : Nat) (bs : List Byte) (poison : Bool) :
    Memory.Wrote a (a + bs.length) s (s.memWrite a bs poison) := by
  unfold State.memWrite
  split
  · exact ((Memory.wrote_writePieces poison bs _ _ _ s 0 (Memory.granules_within _ _ _)).trans
      (Memory.wrote_touchSectors _ _ _ _ _ _)).trans (Memory.wrote_reportLost _ _ _ _ _)
  · exact Memory.Wrote.refl _ _ _

/-- A read changes no memory. -/
theorem Memory.wrote_afterRead (s : State) (a n lo hi : Nat) : Memory.Wrote lo hi s (s.afterRead a n) :=
  (Memory.wrote_touchSectors _ _ _ _ _ _).trans (Memory.wrote_reportLost _ _ _ _ _)

/-- Dropping entries keeps the form. -/
theorem Memory.wf_dropMem (s : State) (p : Nat → Bool) (h : Memory.wf s = true) : Memory.wf (s.dropMem p) = true := by
  have hd : (s.dropMem p).memDefault = s.memDefault := State.memDefault_of_undef (by simp)
  unfold Memory.wf at h ⊢
  rw [hd]
  exact Tab.wf_dropKeys p h

end Sys2Proof.Machine
end

