-- ==== Sys2Proof/Safety.lean ====
section
/-! DEFINITION. A safe step: the step has an answer. -/

namespace Sys2Proof.Machine

/-- The step answers a next state. -/
def State.steps (s : State) : Bool :=
  match step s with
  | .next _ => true
  | .fault _ => false
  | .refused _ => false

end Sys2Proof.Machine
end

