-- ==== Sys2Proof/Certificates/Slice0/Obligations.lean ====
section
/-! DEFINITION. The statements about the node for the provers. -/

namespace Sys2Proof.Claims

open Sys2Proof.Machine

/-- The command answers a next state that has the property. -/
def Runs (c : Instr) (s : State) (P : State → Prop) : Prop := ∃ t, exec c s = .next t ∧ P t

/-- The address of a register of a block. -/
def at_ (b : Block) (off : Nat) : Nat := blockBase b + off

/-- Every register but those at the addresses listed holds what it held. -/
def RegsBut (s t : State) (keys : List Nat) : Prop := ∀ a, a ∉ keys → t.getReg a = s.getReg a

/-- Every byte of memory reads as before. -/
def SameBytes (s t : State) : Prop := ∀ a, t.byteAt a = s.byteAt a

/-- The frame of a command that stores nothing: `t` is `s` but for the fields that `u`, written with the fields of `t`, names,
every register but those listed is unchanged, and every byte of memory is. -/
def Only (s t u : State) (keys : List Nat) : Prop := t = u ∧ RegsBut s t keys ∧ SameBytes s t

/-- The registers that count the transfers of the channels (10 Table 10-10). -/
def transferKeys : List Nat :=
  (List.range 192).flatMap fun ch => [0x120, 0x128, 0x130, 0x138].map fun off => at_ (groupOf ch) (chOff ch off)

/-- The frame of a unit's read of memory: beside what `u` names, the channels it used and their counters of transfers may change. -/
def OnlyRead (s t u : State) (keys : List Nat) : Prop :=
  t = { u with regs := t.regs, channels := t.channels } ∧ RegsBut s t (keys ++ transferKeys) ∧ SameBytes s t

/-- The range lies in HBM, in channels that are not lost. -/
def Live (s : State) (a n : Nat) : Prop := a + n ≤ hbmEnd ∧ ∀ x, a ≤ x → x < a + n → s.lostAt x = false

end Sys2Proof.Claims

open Sys2Proof Sys2Proof.Machine Sys2Proof.Claims

/-! ## The queue of commands -/

/-- A step with a command at the front of the queue is that command's effect with the queue's rest. -/
def Obligations.StepRunsFrontCommand : Prop :=
  ∀ (c : Instr) (rest : List Instr) (s : State), s.pending = c :: rest → step s = exec c { s with pending := rest }

/-- With no command waiting a step goes on and the queue stays empty; without VAON nothing changes; with VAON and POR_N low, and nothing left to
slew, the tide advances by one nanosecond (02 R39, R40) and no other register changes. The form of the tick, and what the parts that run on
POR_N count in it, are the model's choice (log entry 1). Where the spec leaves a point open it follows the model's choices of log entries 1 and 15. -/
def Obligations.EmptyQueueTick : Prop :=
  ∀ s : State, s.pending = [] →
    ∃ t, step s = .next t ∧ t.pending = [] ∧ (s.power.vaon = false → t = s)
      ∧ (s.power.vaon = true → s.power.porN = false → s.tide.slew = none →
          t.now = (s.now + 1) % 2 ^ 64 ∧ Only s t { s with regs := t.regs, life := t.life } [at_ .tide 0x000])

/-- Every step takes exactly the command at the front of the queue: no command changes the queue. -/
def Obligations.StepKeepsRestOfQueue : Prop :=
  ∀ s t : State, step s = .next t → t.pending = s.pending.tail

/-- A step always has an answer: no command stops the node. Where the spec leaves a point open it follows the model's choices of log entry 3. -/
def Obligations.StepAlwaysAnswers : Prop := ∀ s : State, s.steps = true

/-- The canonical form of the memory is kept by every step. -/
def Obligations.StepKeepsMemoryForm : Prop :=
  ∀ s t : State, Memory.wf s = true → step s = .next t → Memory.wf t = true

/-- The memory right after reset has the canonical form and every byte reads 0 (17 R447). Where the spec leaves a point open it follows the model's choices of log entry 6. -/
def Obligations.ResetMemoryFormAndZero : Prop :=
  Memory.wf State.reset = true ∧ ∀ a, State.reset.byteAt a = 0

/-! ## Register blocks (00) -/

/-- The register that a write reaches (00 R12): in the control windows, of a width and alignment that the node accepts, and of no
command of its own. -/
def Sys2Proof.Claims.Plain (a : Nat) (wide : Bool) (r : RegAt) : Prop :=
  inControl a = true ∧ regAligned a (if wide then 8 else 4) = true ∧ regAt (a / 8 * 8) = some r ∧ r.row.own = false
    ∧ commitOff r.block ≠ some r.off

/-- The 64-bit value that a write of either width makes of an old one (00 R12). -/
def Sys2Proof.Claims.merged (old : Word) (a : Nat) (wide : Bool) (v : Word) : Word := mergeHalf old wide (!wide && a % 8 == 4) v

/-- The value that a write leaves in a register of writable bits `wm`. -/
def Sys2Proof.Claims.written (r : RegAt) (old : Word) (a : Nat) (wide : Bool) (v : Word) : Word :=
  keepFat r.block r.off ((old &&& ~~~(BitVec.ofNat 64 r.row.wm)) ||| (merged old a wide v &&& BitVec.ofNat 64 r.row.wm))

/-- REGISTER_WRITE of an RW register (00 R13): its writable bits take the value at once, its other bits and every other register stay,
but that a core's WAKE_CAUSE may take the counter wait that its new value meets (04 R105); a port's token bucket is settled before its rate
changes (11 R309). -/
def Sys2Proof.Claims.RegisterWriteRw : Prop :=
  ∀ (s : State) (w : Sender) (a : Nat) (wide : Bool) (v : Word) (r : RegAt), Plain a wide r →
    r.row.rws = false → r.row.w1c = 0 →
    let old := s.getReg r.key
    let new := written r old a wide v
    encodingOk r.block r.off new = true → (old ^^^ new) &&& s.busyMask r.block r.off = 0 →
    Runs (.registerWrite w a wide v) s fun t =>
      t.getReg r.key = new ∧ t.answer = { status := 0 }
        ∧ Only s t { s with regs := t.regs, tide := t.tide, lagged := t.lagged, ports := t.ports, answer := t.answer }
            (r.key :: (match r.block with | .core c => [at_ (.core c) 0x030] | _ => []))

/-- REGISTER_WRITE of an RWS register (00 R13, R14): the shadow takes the value, which a read returns; nothing in force changes. -/
def Sys2Proof.Claims.RegisterWriteRws : Prop :=
  ∀ (s : State) (w : Sender) (a : Nat) (wide : Bool) (v : Word) (r : RegAt), Plain a wide r →
    r.row.rws = true → r.row.w1c = 0 →
    let old := s.getShadow r.key
    let new := written r old a wide v
    encodingOk r.block r.off new = true → (old ^^^ new) &&& s.busyMask r.block r.off = 0 →
    Runs (.registerWrite w a wide v) s fun t =>
      t.getShadow r.key = new ∧ t.readValue r = new ∧ (∀ k, k ≠ r.key → t.getShadow k = s.getShadow k)
        ∧ Only s t { s with shadow := t.shadow, dirty := t.dirty, answer := t.answer } []

/-- REGISTER_WRITE of W1C bits (00 Table 0-3): each 1 written clears its bit; a 1 to VALID or ERR, bit 63, releases the whole capture (the
latter is the model's choice, log entry 7). -/
def Sys2Proof.Claims.RegisterWriteW1c : Prop :=
  ∀ (s : State) (w : Sender) (a : Nat) (wide : Bool) (v : Word) (r : RegAt), Plain a wide r → r.row.w1c ≠ 0 →
    Runs (.registerWrite w a wide v) s fun t =>
      t.getReg r.key =
          (let ones := merged 0 a wide v &&& BitVec.ofNat 64 r.row.w1c
           if r.row.w1c = 2 ^ 63 then (if ones = 0 then s.getReg r.key else 0) else s.getReg r.key &&& ~~~ones)
        ∧ Only s t { s with regs := t.regs, answer := t.answer } [r.key]

/-- A write of a reserved encoding or of a field that may not change now sets the block's CFG_REJECT and changes nothing else
(00 R15, R17); a write to an unlisted offset changes nothing (00 R12). -/
def Sys2Proof.Claims.RegisterWriteDiscarded : Prop :=
  (∀ (s : State) (w : Sender) (a : Nat) (wide : Bool) (v : Word) (r : RegAt), Plain a wide r → r.row.w1c = 0 →
    let old := if r.row.rws then s.getShadow r.key else s.getReg r.key
    let new := written r old a wide v
    (encodingOk r.block r.off new = false ∨ (old ^^^ new) &&& s.busyMask r.block r.off ≠ 0) →
    Runs (.registerWrite w a wide v) s fun t =>
      bit (t.getReg (rejectAddr r.block)) 0 = true
        ∧ Only s t { s with regs := t.regs, answer := t.answer } [rejectAddr r.block])
  ∧ (∀ (s : State) (w : Sender) (a : Nat) (wide : Bool) (v : Word), inControl a = true →
    regAligned a (if wide then 8 else 4) = true → regAt (a / 8 * 8) = none →
    Runs (.registerWrite w a wide v) s fun t => t = s.answers 0)

/-- BUS_ERROR_ACCESS (00 R12, 10 R246) of an access that the node does not accept: the requester gets the error, and no register and no memory is
written; a hart of the node takes its access fault, with the address in its trap value. -/
def Sys2Proof.Claims.BusErrorAccessWritesNothing : Prop :=
  ∀ (s : State) (w : Sender) (write : Bool) (a bytes : Nat), refusesAccess a bytes = true →
    Runs (.busErrorAccess w write a bytes) s fun t =>
      t.answer = { status := 1 } ∧ (320 ≤ w.endpoint.val → t.harts = s.harts)
        ∧ (w.endpoint.val < 320 → (t.hart w.endpoint.val).mtval = BitVec.ofNat 64 a ∨ (t.hart w.endpoint.val).stval = BitVec.ofNat 64 a)
        ∧ Only s t { s with harts := t.harts, answer := t.answer } []

/-- CFG_COMMIT (00 R14): the shadow of every RWS register of the block is captured, and nothing in force changes; the commit waits for
its boundary. While an earlier one waits, or where a rule of the block refuses it, CFG_REJECT is set and nothing is captured. -/
def Sys2Proof.Claims.CfgCommitCaptures : Prop :=
  ∀ (s : State) (w : Sender) (a off : Nat) (b : Block), blockAt a = some (b, off) → commitOff b ≠ none →
    (s.commitPending b = false → s.commitOk b = true →
      Runs (.cfgCommit w a) s fun t =>
        t.commitPending b = true
          ∧ (Tab.get (0, []) t.commits (commitAddr b)).2 = (s.commitKeys b).map (fun k => (k, s.getShadow k))
          ∧ Only s t { s with commits := t.commits, dirty := t.dirty, answer := t.answer } [])
    ∧ (s.commitPending b = true ∨ s.commitOk b = false →
      Runs (.cfgCommit w a) s fun t =>
        bit (t.getReg (rejectAddr b)) 0 = true ∧ Only s t { s with regs := t.regs, answer := t.answer } [rejectAddr b])

/-- COMMIT_BOUNDARY (00 R14): at its boundary a block puts every captured value in force and waits for no commit; before it, nothing
changes. The region table, whose commit moves memory, and the tide block have statements of their own (`RegionTableCommit`, `TideCommit`); a
stack's channels settle at its boundary, which this statement leaves out. -/
def Sys2Proof.Claims.CommitBoundaryApplies : Prop :=
  ∀ (s : State) (a off : Nat) (b : Block), blockAt a = some (b, off) →
    (s.commitPending b = true → s.atBoundary b = true → b ≠ .regionTable → b ≠ .tide → (∀ k, b ≠ .stack k) →
      let vs := (Tab.get (0, []) s.commits (commitAddr b)).2
      (vs.map (·.1)).Nodup →
      Runs (.commitBoundary a) s fun t =>
        t.commitPending b = false ∧ (∀ e ∈ vs, t.getReg e.1 = e.2)
          ∧ Only s t { s with regs := t.regs, commits := t.commits } (vs.map (·.1)))
    ∧ (s.commitPending b = false ∨ s.atBoundary b = false → Runs (.commitBoundary a) s fun t => t = s)

/-- COMMIT_BOUNDARY of the tide block at a multiple of 1 000 ns after the commit (02 R512): the captured values are in force, and the role
and the parent are the committed ones from then on (17 R466). -/
def Sys2Proof.Claims.TideCommit : Prop :=
  ∀ (s : State) (a off : Nat), blockAt a = some (.tide, off) → s.commitPending .tide = true →
    nextMultiple (s.commitTide .tide) 1000 ≤ s.now →
    let vs := (Tab.get (0, []) s.commits (commitAddr .tide)).2
    (vs.map (·.1)).Nodup → at_ .tide 0x008 ∉ vs.map (·.1) →
    Runs (.commitBoundary a) s fun t =>
      t.commitPending .tide = false ∧ (∀ e ∈ vs, t.getReg e.1 = e.2) ∧ t.tide.committed = true
        ∧ t.tide.parent = t.fldAt .tide 0x010 4 4 ∧ t.fldAt .tide 0x008 4 4 = t.fldAt .tide 0x010 4 4
        ∧ Only s t { s with regs := t.regs, commits := t.commits, tide := t.tide } (at_ .tide 0x008 :: vs.map (·.1))

/-- What a register write does to RW, RWS and W1C bits. Where the spec leaves a point open it follows the model's choices of log entries 7 and 21. -/
def Obligations.RegisterWritesTake : Prop :=
  Claims.RegisterWriteRw ∧ Claims.RegisterWriteRws ∧ Claims.RegisterWriteW1c

/-- Writes that are refused, ignored or end in a bus error. Where the spec leaves a point open it follows the model's choices of log entry 59. -/
def Obligations.RegisterWritesRefused : Prop :=
  Claims.RegisterWriteDiscarded ∧ Claims.BusErrorAccessWritesNothing

/-- CFG_COMMIT captures the shadows and COMMIT_BOUNDARY puts them in force. Where the spec leaves a point open it follows the model's choices of log entry 78. -/
def Obligations.CommitsTakeEffect : Prop :=
  Claims.CfgCommitCaptures ∧ Claims.CommitBoundaryApplies ∧ Claims.TideCommit

/-! ## The tide (02) -/

/-- TIDE_ORDERED_SET_SEND (02 R44, 11 R281): when the period is over, a port that takes part sends the ordered set with the tide, its lock
state and hop count, and the next sequence number stands in the next one. -/
def Sys2Proof.Claims.TideOrderedSetSent : Prop :=
  ∀ (s : State) (p : Fin 16), s.tidePort p = true → s.power.depth ≠ 3 → (s.port p).nextSlot ≤ s.clock →
    Runs (.tideOrderedSetSend p) s fun t =>
      (t.port p).control.length = 32
        ∧ byteFld (t.port p).control 0 1 = (if s.portState p = 4 then 4 else 3)
        ∧ byteFld (t.port p).control 2 2 = (s.port p).txSeq % 65536
        ∧ byteFld (t.port p).control 4 8 = s.now
        ∧ (s.portState p ≠ 4 → byteFld (t.port p).control 1 1 = s.lockState + 8 * s.hops)
        ∧ (t.port p).txSeq = ((s.port p).txSeq + 1) % 65536 ∧ (t.port p).nextSlot = s.clock + 1000
        ∧ (∀ q, q ≠ p.val → t.port q = s.port q) ∧ Only s t { s with ports := t.ports } []

/-- TIDE_ORDERED_SET_RECEIVE at a follower from its committed parent (02 R42, R45, R46, R54, R55): HOPS is one more than the set's, the
grandmaster is the set's, and the offset that the set shows is measured into EST_ERR, in whole nanoseconds rounded up. A LOCKED node whose
offset is at most 2 ns stays LOCKED and its tide does not move with the set; a node in ACQUIRE steps its tide by the offset, to the nearest
nanosecond. -/
def Sys2Proof.Claims.TideOrderedSetFollowed : Prop :=
  ∀ (s : State) (p : Fin 16) (set : TideSet), s.tidePort p = true → s.tide.committed = true → s.role = 0 → s.fldAt .tide 0x010 4 4 = p.val →
    (set.quality = 2 ∨ set.quality = 3) → s.now < 2 ^ 62 →
    let offset := (s.measureDelay p (s.clock * 65536 + set.rxSub.toNat) set).offsetOf p set
    let follows := fun (t : State) =>
      t.hops = (set.hops.toNat + 1) % 16 ∧ t.gmNgi = set.gmNgi.toNat ∧ t.lockState = s.lockState ∧ t.tide.parent = p.val
        ∧ (t.port p).rxSeq = set.seq.toNat ∧ (t.port p).validAt = s.clock ∧ t.estErr = min (offsetUp offset) 0xFFFF
    (s.lockState = 2 → offsetAbs offset ≤ 2 * 65536 →
      Runs (.tideOrderedSetReceive p set) s fun t =>
        follows t ∧ t.now = s.now ∧ t.tide.slew = some offset
          ∧ Only s t { s with regs := t.regs, ports := t.ports, tide := t.tide } [at_ .tide 0x008, at_ .tide 0x018, at_ (.port p) 0x040])
    ∧ (s.lockState = 1 → 0 ≤ (s.now : Int) + offsetNear offset → (s.now : Int) + offsetNear offset < 2 ^ 63 →
      Runs (.tideOrderedSetReceive p set) s fun t =>
        follows t ∧ (t.now : Int) = s.now + offsetNear offset ∧ t.clock = s.clock
          ∧ Only s t { s with regs := t.regs, ports := t.ports, tide := t.tide, sched := t.sched }
              [at_ .tide 0x000, at_ .tide 0x008, at_ .tide 0x018, at_ (.port p) 0x040])

/-- PTP_MESSAGE (02 R43; the exchange is that of IEEE 1588, log entry 55) at a node with a grandmaster role, over UDP/IPv4 or IEEE 802.3 in domain 0: a
two-step Sync is stamped with its arrival; its Follow_Up gives the offset on the way down and sends a Delay_Req; the Delay_Resp that answers it
sets the second by half the sum of the two ways. PPS_EDGE (02 R42, 18 R492) at a LOCKED grandmaster: the second advances, the node names
itself as grandmaster at hop count 0, and the offset of the edge is left to slew, the tide staying as it is. -/
def Sys2Proof.Claims.GrandmasterTime : Prop :=
  (∀ (s : State) (m : PtpMsg), s.role ≠ 0 → s.harbour.inReset = false → m.transport ≠ .other → m.domain = 0 →
    (m.kind = .sync → m.twoStep = true →
      Runs (.ptpMessage m) s fun t =>
        t = { s with tide := { s.tide with ptp := { s.tide.ptp with sync := some (m.seq.toNat, s.clock), down := none, asked := none } } })
    ∧ (∀ t2, m.kind = .followUp → s.tide.ptp.sync = some (m.seq.toNat, t2) →
      Runs (.ptpMessage m) s fun t =>
        t.tide.ptp.down = some ((t2 : Int) - (m.time + m.correction / 65536)) ∧ t.tide.ptp.asked = some (s.tide.ptp.nextSeq, s.clock)
          ∧ t = { s with tide := { s.tide with ptp := t.tide.ptp } })
    ∧ (∀ (t3 : Nat) (down : Int), m.kind = .delayResp → s.tide.ptp.asked = some (m.seq.toNat, t3) → s.tide.ptp.down = some down →
      Runs (.ptpMessage m) s fun t =>
        (t.tide.second : Int)
            = max 0 (((s.clock : Int) - (down - ((m.time : Int) - m.correction / 65536 - t3)) / 2) / 1_000_000_000)
          ∧ t.tide.ptp.asked = none ∧ t = { s with tide := { s.tide with ptp := t.tide.ptp, second := t.tide.second } }))
  ∧ (∀ s : State, s.role ≠ 0 → s.tide.second ≠ 0 → s.lockState = 2 → Tab.get (0, []) s.commits (commitAddr .power) = (0, []) → s.now < 2 ^ 62 →
    Runs .ppsEdge s fun t =>
      t.tide.second = s.tide.second + 1 ∧ t.hops = 0 ∧ t.gmNgi = s.selfNgi ∧ t.lockState = 2 ∧ t.now = s.now
        ∧ t.tide.lastPps = s.clock ∧ t.tide.slew = some s.edgeOffset ∧ t.estErr = min (offsetUp s.edgeOffset) 0xFFFF
        ∧ Only s t { s with regs := t.regs, commits := t.commits, tide := t.tide } [at_ .tide 0x008])

/-- The slew (02 R42; its form is the model's choice, log entry 13): on an empty queue, while no group, held action, checkpoint or image hold is
in progress, a LOCKED node's tide never decreases and never advances by more than
two nanoseconds; it advances by other than one only where an offset of half a nanosecond or more is left and 10 000 ns of the local
oscillator have passed since it last did. -/
def Sys2Proof.Claims.TideSlewRate : Prop :=
  ∀ s : State, s.pending = [] → s.power.vaon = true → s.lockState = 2 → s.now < 2 ^ 62 → s.groups = [] → s.heldActs = [] → s.ckpt = none →
    s.harbour.hold = false →
    ∃ t, step s = .next t ∧ s.now ≤ t.now ∧ t.now ≤ s.now + 2
      ∧ (t.now ≠ s.now + 1 → s.tide.lastSet + 10_000 ≤ s.clock + 1 ∧ (∃ o, s.tide.slew = some o ∧ 32768 ≤ offsetAbs o))

/-- The lock states (02 R49, R52–R54): HOLDOVER_ENTRY of a LOCKED node that has lost its source; ADRIFT_ENTRY of a node in HOLDOVER whose EST_ERR has grown
beyond HOLDOVER_LIMIT; PARENT_RETURN of a valid parent at a follower that is not LOCKED, which steps the tide in ACQUIRE where no deadlined work is
admitted, slews where it is and the offset is at most 10 µs, and else raises TIDE_FAR, voids every promise, enters ACQUIRE and steps; and
LOCK_ACHIEVED once the offset left is at most 2 ns. Where the spec leaves a point open it follows the model's choices of log entries 13, 15, 17 and 54. -/
def Obligations.TideLockStates : Prop :=
  (∀ s : State, s.sourceLost = true → s.lockState = 2 →
    Runs .holdoverEntry s fun t =>
      t.lockState = 3 ∧ t.bitAt .tide 0x018 1 = true ∧ t.tide.growFrom = some s.clock ∧ t.tide.estBase = s.estErr ∧ t.tide.slew = none
        ∧ Only s t { s with regs := t.regs, tide := t.tide } [at_ .tide 0x008, at_ .tide 0x018])
  ∧ (∀ s : State, s.lockState = 3 → s.fldAt .tide 0x048 0 16 < min s.grownEst 0xFFFF →
    Runs .adriftEntry s fun t =>
      t.lockState = 4 ∧ t.estErr = min s.grownEst 0xFFFF ∧ t.bitAt .tide 0x018 2 = true
        ∧ t.reports = s.reports ++ [{ source := 0x21, domain := none, detail := 0, tide := s.now }]
        ∧ Only s t { s with regs := t.regs, reports := t.reports } [at_ .tide 0x008, at_ .tide 0x018])
  ∧ (∀ (s : State) (p : Fin 16) (offset : Int), s.role = 0 → s.parents.contains p.val = true → s.freshPort p = true → s.lockState ≠ 2 →
    0 ≤ (s.now : Int) + offset → (s.now : Int) + offset < 2 ^ 63 →
    (s.deadlined = false →
      Runs (.parentReturn p offset) s fun t =>
        t.lockState = 1 ∧ t.fldAt .tide 0x008 4 4 = p.val ∧ (t.now : Int) = s.now + offset ∧ t.clock = s.clock
          ∧ t.estErr = min (offsetAbs offset) 0xFFFF
          ∧ Only s t { s with regs := t.regs, tide := t.tide, sched := t.sched } [at_ .tide 0x000, at_ .tide 0x008])
    ∧ (s.deadlined = true → offsetAbs offset ≤ 10_000 → (s.lockState = 3 → offsetAbs offset ≤ s.fldAt .tide 0x048 0 16) →
      Runs (.parentReturn p offset) s fun t =>
        t.tide.slew = some (65536 * offset) ∧ t.estErr = offsetAbs offset ∧ t.now = s.now ∧ t.lockState = s.lockState
          ∧ Only s t { s with regs := t.regs, tide := t.tide } [at_ .tide 0x008])
    ∧ (s.deadlined = true → 10_000 < offsetAbs offset →
      Runs (.parentReturn p offset) s fun t =>
        t.lockState = 1 ∧ t.bitAt .tide 0x018 3 = true ∧ (∀ w ∈ t.work, w.allVoid = true) ∧ (t.now : Int) = s.now + offset))
  ∧ (∀ s : State, s.lockReady = true →
    Runs .lockAchieved s fun t =>
      t.lockState = 2 ∧ t.estErr = s.estErr ∧ t.tide.growFrom = none
        ∧ Only s t { s with regs := t.regs, tide := t.tide } [at_ .tide 0x008, at_ .boot 0x008])

/-- The sleep depth that SLEEP_ENTRY enters for the one accepted change, whose mark has come. -/
def Sys2Proof.Claims.SleepDue (s : State) (m : Marked) : Prop := s.hmRuns = true ∧ s.harbour.sleeps = [m] ∧ m.mark ≤ s.now ∧ s.sleepRefused m.value = false

/-- STEP_WRITE (02 R56, R58): while STEP_PERIOD is 0, STEP takes the value, STEP_BASE the tide, and STEP_VALID is set; otherwise only CFG_REJECT
changes. STEP_VALID is 0 after reset, and after a wake from DEEP: the entry into DEEP clears it and the wake leaves it. -/
def Obligations.StepWriteRule : Prop :=
  State.reset.stepValid = false
  ∧ (∀ (s : State) (m : Marked), SleepDue s m → m.value = 3 → Runs .sleepEntry s fun t => t.stepValid = false)
  ∧ (∀ s : State, s.power.depth = 3 → s.stepValid = false → Runs .deepWake s fun t => t.stepValid = false)
  ∧ ∀ (s : State) (wide high : Bool) (v : Word),
    (s.stepPeriod = 0 →
      Runs (.stepWrite wide high v) s fun t =>
        t.stepNo = fld (mergeHalf (s.reg .tide 0x020) wide high v) 0 32 ∧ t.stepBase = s.now ∧ t.stepValid = true
          ∧ Only s t { s with regs := t.regs } [at_ .tide 0x020, at_ .tide 0x028, at_ .tide 0x008])
    ∧ (s.stepPeriod ≠ 0 →
      Runs (.stepWrite wide high v) s fun t =>
        t.bitAt .tide 0x0F0 0 = true ∧ Only s t { s with regs := t.regs } [at_ .tide 0x0F0])

/-- STEP_MARK (02 R57): where the tide has reached STEP_NEXT_MARK, by `k` whole periods beyond it, STEP is STEP_NEXT + k and STEP_BASE its
mark; the next mark is one period later, or none where the period is 0. -/
def Obligations.StepMarkRule : Prop :=
  ∀ s : State, s.stepMark ≠ 0 → s.stepMark ≤ s.now →
    let k := if s.stepPeriod = 0 then 0 else (s.now - s.stepMark) / s.stepPeriod
    Runs .stepMark s fun t =>
      t.stepNo = (s.stepNext + k) % 2 ^ 32 ∧ t.stepBase = s.stepMark + k * s.stepPeriod ∧ t.stepValid = true
        ∧ (s.stepPeriod ≠ 0 → t.stepNext = (s.stepNext + k + 1) % 2 ^ 32
            ∧ t.stepMark = (s.stepMark + (k + 1) * s.stepPeriod) % 2 ^ 64)
        ∧ (s.stepPeriod = 0 → t.stepMark = 0 ∧ t.stepNext = s.stepNext)
        ∧ (s.stepMark < s.now → t.bitAt .tide 0x018 5 = true)
        ∧ Only s t { s with regs := t.regs, shadow := t.shadow, sched := t.sched }
            [at_ .tide 0x020, at_ .tide 0x028, at_ .tide 0x008, at_ .tide 0x030, at_ .tide 0x038, at_ .tide 0x018]

/-! ## The tide schedule (02) -/

/-- SCHEDULE_ENTRY_WRITE of word 0, with byte 1, of an entry that is not ARMED (02 R61): the entry that the write makes becomes EMPTY without VALID,
MALFORMED with CAUSE 1 where it holds a reserved encoding, REFUSED with CAUSE 3 where it is a power-mode change that is not FORCED and R35 refuses, and
otherwise ARMED; its other words and the other entries stay. A write of its bytes 4–7 alone stores them and checks nothing. -/
def Sys2Proof.Claims.ScheduleEntryWriteChecked : Prop :=
  ∀ (s : State) (i : Fin 4096) (wide : Bool) (v : Word),
    let e := s.entry i
    let new := e.setWord 0 (setFld (mergeHalf e.w0 wide false v) 16 8 e.state)
    let becomes := fun (t : State) (state : Nat) =>
      (t.entry i).state = state ∧ (t.entry i).w1 = e.w1 ∧ (t.entry i).w2 = e.w2 ∧ (t.entry i).w3 = e.w3
        ∧ (∀ j, j ≠ i.val → t.entry j = s.entry j)
    let caused := fun (t : State) (cause : Nat) =>
      s.bitAt .tide 0x058 63 = false → t.fldAt .tide 0x058 0 12 = i.val ∧ t.fldAt .tide 0x058 16 4 = cause
    let refused := new.action = 4 ∧ new.forced = false
      ∧ (s.setEntry i new).modeRefused (new.arg 0 1) ((s.setEntry i new).judged { new with fired := s.firedAtArming new }) (some i.val) = true
    e.state ≠ 1 →
    (new.valid = false →
      Runs (.scheduleEntryWrite i 0 wide false v) s fun t => becomes t 0 ∧ Only s t { s with sched := t.sched } [])
    ∧ (new.valid = true → new.ok = false →
      Runs (.scheduleEntryWrite i 0 wide false v) s fun t =>
        becomes t 5 ∧ caused t 1 ∧ Only s t { s with regs := t.regs, sched := t.sched } [at_ .tide 0x058])
    ∧ (new.valid = true → new.ok = true → refused →
      Runs (.scheduleEntryWrite i 0 wide false v) s fun t =>
        becomes t 6 ∧ caused t 3 ∧ Only s t { s with regs := t.regs, sched := t.sched } [at_ .tide 0x058])
    ∧ (new.valid = true → new.ok = true → ¬ refused →
      Runs (.scheduleEntryWrite i 0 wide false v) s fun t => becomes t 1 ∧ Only s t { s with sched := t.sched } [])
    ∧ Runs (.scheduleEntryWrite i 0 false true v) s fun t =>
        (t.entry i).w0 = setFld (mergeHalf e.w0 false true v) 16 8 e.state ∧ (t.entry i).w1 = e.w1 ∧ (t.entry i).w2 = e.w2 ∧ (t.entry i).w3 = e.w3
          ∧ (∀ j, j ≠ i.val → t.entry j = s.entry j) ∧ Only s t { s with sched := t.sched } []

/-- Words 1–3 of an entry that is not ARMED take the value without a check. Of an ARMED entry a write with byte 1 and VALID = 0 makes an entry that is
not due EMPTY; any write that changes another word, or word 0 with VALID = 1, or bytes 4–7 alone, is refused with TIDE_ERR.SCHED_REJECT and
CAUSE 2 and changes no entry (02 R61). -/
def Sys2Proof.Claims.ScheduleEntryWriteOther : Prop :=
  ∀ (s : State) (i : Fin 4096) (k : Fin 4) (wide high : Bool) (v : Word),
    let e := s.entry i
    let new := mergeHalf (e.word k) wide high v
    let kept := if k = 0 then setFld new 16 8 e.state else new
    let checks := k = 0 ∧ (wide = true ∨ high = false)
    (k ≠ 0 → e.state ≠ 1 →
      Runs (.scheduleEntryWrite i k wide high v) s fun t =>
        t.entry i = e.setWord k new ∧ (∀ j, j ≠ i.val → t.entry j = s.entry j) ∧ Only s t { s with sched := t.sched } [])
    ∧ (e.state = 1 → kept ≠ e.word k → ¬ (checks ∧ bit new 8 = false) →
      Runs (.scheduleEntryWrite i k wide high v) s fun t =>
        t.bitAt .tide 0x018 4 = true
          ∧ (s.bitAt .tide 0x058 63 = false → t.fldAt .tide 0x058 0 12 = i.val ∧ t.fldAt .tide 0x058 16 4 = 2)
          ∧ Only s t { s with regs := t.regs } [at_ .tide 0x018, at_ .tide 0x058])
    ∧ (e.state = 1 → checks → bit new 8 = false → s.isDue e = false →
      Runs (.scheduleEntryWrite i k wide high v) s fun t =>
        (t.entry i).state = 0 ∧ (t.entry i).w1 = e.w1 ∧ (t.entry i).w2 = e.w2 ∧ (t.entry i).w3 = e.w3
          ∧ (∀ j, j ≠ i.val → t.entry j = s.entry j) ∧ Only s t { s with sched := t.sched } [])

/-- The entry is the one that a command of its action dispatches now (02 R62, R63), awake, and not one to be dropped as late. -/
def Sys2Proof.Claims.Fires (s : State) (i action : Nat) : Prop :=
  (s.entry i).action = action ∧ s.firstDue = some i ∧ s.power.depth = 0 ∧ (s.isLate (s.entry i) && (s.entry i).dropLate) = false

/-- What the dispatch of an entry leaves (02 R62–R64): FIRED counts it, LATE too where it is late, a one-time entry is FIRED or FIRED_LATE, and the
registers of other parts are untouched. -/
def Sys2Proof.Claims.Fired (s t : State) (i : Nat) : Prop :=
  t.fldAt .tide 0x050 32 32 = (s.fldAt .tide 0x050 32 32 + 1) % 2 ^ 32
    ∧ t.fldAt .tide 0x050 16 16 = (s.fldAt .tide 0x050 16 16 + if s.isLate (s.entry i) then 1 else 0) % 2 ^ 16
    ∧ ((s.entry i).repeats = false → (t.entry i).state = if s.isLate (s.entry i) then 3 else 2)

/-- START_CHAIN (02 R64, 04 R99): the chain's address enters the FIFO of the queue of an ONLINE core; of a core that is not ONLINE the entry
becomes TARGET_OFFLINE with CAUSE 4 and no chain is entered. -/
def Sys2Proof.Claims.StartChainDispatched : Prop :=
  ∀ (s : State) (i : Fin 4096), Fires s i 1 →
    let e := s.entry i
    let c := e.arg 0 2
    let q := e.arg 2 1
    c < 256 → q < 6 →
    (s.coreState c = 0 → (s.queue c q).chains.length < 4 →
      Runs (.startChain i) s fun t =>
        (t.queue c q).chains = (s.queue c q).chains ++ [{ addr := e.arg 8 8 % 2 ^ 48 }] ∧ Fired s t i
          ∧ Only s t { s with regs := t.regs, sched := t.sched, queues := t.queues } [at_ .tide 0x050])
    ∧ (s.coreState c ≠ 0 →
      Runs (.startChain i) s fun t =>
        (t.entry i).state = 7 ∧ (s.bitAt .tide 0x058 63 = false → t.fldAt .tide 0x058 16 4 = 4)
          ∧ Only s t { s with regs := t.regs, sched := t.sched } [at_ .tide 0x050, at_ .tide 0x058])

/-- ADD_TRIGGER (13 R344), RING_BELL of a core, PD-hart or harbourmaster bell (14 R386), ROUTE_BANK (11 R299), CHECKPOINT (16 R425) and POWER_MODE
(01 R32): each dispatched entry does its action. -/
def Sys2Proof.Claims.ScheduleActions : Prop :=
  (∀ (s : State) (i : Fin 4096), Fires s i 2 →
    Runs (.addTrigger i) s fun t =>
      t.adds = s.adds ++ [{ counter := (s.entry i).arg 0 4, inc := (s.entry i).arg 4 4, source := 0 }] ∧ Fired s t i
        ∧ Only s t { s with regs := t.regs, sched := t.sched, adds := t.adds } [at_ .tide 0x050])
  ∧ (∀ (s : State) (i : Fin 4096) (b : Fin 321), Fires s i 3 → (s.entry i).arg 8 8 = 0x0E90_0020_8000 + 8 * b.val →
    Runs (.ringBell i) s fun t =>
      t.bell b = s.bell b ||| (s.entry i).w2 ∧ (∀ k, k ≠ b.val → t.bell k = s.bell k) ∧ Fired s t i)
  ∧ (∀ (s : State) (i : Fin 4096), Fires s i 4 → (s.entry i).forced = false → s.safe = false →
      s.modeHurts ((s.entry i).arg 0 1) = false → s.brakeBlocks ((s.entry i).arg 0 1) = false → (s.entry i).arg 0 1 ≤ 2 →
    Runs (.powerMode i) s fun t =>
      t.modeTarget = (s.entry i).arg 0 1 ∧ Fired s t i
        ∧ (s.modeTarget ≠ (s.entry i).arg 0 1 →
            t.inTransition = true ∧ t.power.clock = min s.power.clock (modeClock ((s.entry i).arg 0 1)))
        ∧ Only s t { s with regs := t.regs, sched := t.sched, power := t.power } [at_ .tide 0x050, at_ .power 0x000])
  ∧ (∀ (s : State) (i : Fin 4096), Fires s i 5 → s.ckpt = none → s.harbour.requests = [] →
    Runs (.checkpointAction i) s fun t =>
      t.harbour.requests = [((s.entry i).arg 0 8, s.now, s.stepNo)] ∧ Fired s t i
        ∧ Only s t { s with regs := t.regs, sched := t.sched, harbour := t.harbour } [at_ .tide 0x050])
  ∧ (∀ (s : State) (i : Fin 4096), Fires s i 6 →
    Runs (.routeBank i) s fun t =>
      t.fldAt .router 0x000 0 1 = (s.entry i).arg 0 1 % 2 ∧ Fired s t i
        ∧ Only s t { s with regs := t.regs, sched := t.sched } [at_ .tide 0x050, at_ .router 0x000])

/-- TIDE_MARK_COMPARATOR_HIT (02 R65): the tide has reached the mark of an enabled comparator that has not been met: its HIT bit is set, and the
harbourmaster is signalled where it is awake; in DEEP a comparator with its wake bit wakes the node.
VTC_CROSSING (02 R66): the source of an enabled comparator lies beyond its threshold: its HIT bit is set and VTC is raised. -/
def Sys2Proof.Claims.ComparatorsHit : Prop :=
  (∀ (s : State) (i : Fin 16), s.bitAt .tide 0x280 i = true → s.regN .tide (0x200 + 8 * i) ≤ s.now → s.tide.reached.toNat.testBit i = false →
    s.bitAt .tide 0x280 (16 + i) = false →
    Runs (.tideMarkComparatorHit i) s fun t =>
      t.bitAt .tide 0x288 i = true ∧ t.tide.reached.toNat.testBit i = true
        ∧ (s.power.depth ≠ 3 → s.harbour.inReset = false → t.harbour.signals.toNat.testBit i = true)
        ∧ Only s t { s with regs := t.regs, tide := t.tide, harbour := t.harbour } [at_ .tide 0x288])
  ∧ (∀ (s : State) (i : Fin 16), s.bitAt .tide 0x280 i = true → s.regN .tide (0x200 + 8 * i) ≤ s.now → s.tide.reached.toNat.testBit i = false →
    s.bitAt .tide 0x280 (16 + i) = true → s.power.depth = 3 →
    Runs (.tideMarkComparatorHit i) s fun t =>
      t.bitAt .tide 0x288 i = true ∧ t.power.wakeHeld = true
        ∧ Only s t { s with regs := t.regs, tide := t.tide, power := t.power } [at_ .tide 0x288])
  ∧ (∀ (s : State) (j : Fin 4) (reading : BitVec 16), s.bitAt .tide (0x300 + 8 * j) 5 = true → s.vtcMet j reading.toNat = true →
    s.bitAt .tide (0x300 + 8 * j) 6 = false →
    Runs (.vtcCrossing j reading) s fun t =>
      t.bitAt .tide 0x320 j = true
        ∧ t.reports = s.reports ++ [{ source := 0x30, domain := none, detail := sensorDetail j reading.toNat, tide := s.now }]
        ∧ Only s t { s with regs := t.regs, reports := t.reports } [at_ .tide 0x320])

/-- How the tide is sent on, followed and set by a grandmaster's sources. Where the spec leaves a point open it follows the model's choices of log entries 13, 14, 15, 16, 54 and 55. -/
def Obligations.TideSources : Prop :=
  Claims.TideOrderedSetSent ∧ Claims.TideOrderedSetFollowed ∧ Claims.GrandmasterTime ∧ Claims.TideSlewRate

/-- Writes to the entries of the tide schedule. Where the spec leaves a point open it follows the model's choices of log entries 18 and 57. -/
def Obligations.ScheduleEntryWrites : Prop :=
  Claims.ScheduleEntryWriteChecked ∧ Claims.ScheduleEntryWriteOther

/-- Dispatch of schedule entries, and the comparators. Where the spec leaves a point open it follows the model's choices of log entries 19, 41, 56 and 58. -/
def Obligations.ScheduleDispatch : Prop :=
  Claims.StartChainDispatched ∧ Claims.ScheduleActions ∧ Claims.ComparatorsHit

/-! ## Core queues and cores (04) -/

/-- No descriptor in progress of a queue has ended with an error. -/
def Sys2Proof.Claims.NoneFailed (s : State) (c q : Nat) : Prop :=
  ∀ r ∈ (s.queue c q).running, r.done = none ∨ r.done = some 0

/-- Q_TAIL_WRITE (04 R98, R117): at an ONLINE core a tail that does not overfill the ring is taken; otherwise only TAIL_REJECT is set. -/
def Sys2Proof.Claims.QTailWriteRule : Prop :=
  ∀ (s : State) (c : Fin 256) (q : Fin 6) (v : Word),
    (s.coreState c = 0 → (v.toNat % 65536 + 65536 - s.qHead c q) % 65536 ≤ s.ringSize c q →
      Runs (.qTailWrite c q v) s fun t =>
        t.qTail c q = v.toNat % 65536 ∧ Only s t { s with regs := t.regs, answer := t.answer } [at_ (.core c) (qOff q 0x110)])
    ∧ (s.coreState c ≠ 0 ∨ s.ringSize c q < (v.toNat % 65536 + 65536 - s.qHead c q) % 65536 →
      Runs (.qTailWrite c q v) s fun t =>
        t.bitAt (.core c) (qOff q 0x120) 6 = true
          ∧ Only s t { s with regs := t.regs, answer := t.answer } [at_ (.core c) (qOff q 0x120)])

/-- Q_CHAIN_WRITE (04 R99, R117): at an ONLINE core the chain's address enters the four-entry FIFO; a fifth is dropped with CHAIN_OVF; at another
core nothing changes. RESERVED_SLOT_ENTER (04 R99): the waiting entry enters as soon as the FIFO has room. -/
def Sys2Proof.Claims.ChainFifoOfFour : Prop :=
  (∀ (s : State) (c : Fin 256) (q : Fin 6) (v : Word),
    (s.coreState c = 0 → (s.queue c q).chains.length < 4 →
      Runs (.qChainWrite c q v) s fun t =>
        t.queue c q = { s.queue c q with chains := (s.queue c q).chains ++ [{ addr := fld v 0 48 }] }
          ∧ Only s t { s with queues := t.queues, answer := t.answer } [])
    ∧ (s.coreState c = 0 → 4 ≤ (s.queue c q).chains.length →
      Runs (.qChainWrite c q v) s fun t =>
        t.bitAt (.core c) (qOff q 0x120) 7 = true
          ∧ Only s t { s with regs := t.regs, answer := t.answer } [at_ (.core c) (qOff q 0x120)])
    ∧ (s.coreState c ≠ 0 → Runs (.qChainWrite c q v) s fun t => t = s.answers 0))
  ∧ (∀ (s : State) (c : Fin 256) (q : Fin 6) (a : Nat), (s.queue c q).reserved = some a → (s.queue c q).chains.length < 4 →
    Runs (.reservedSlotEnter c q) s fun t =>
      t.queue c q = { s.queue c q with chains := (s.queue c q).chains ++ [{ addr := a }], reserved := none }
        ∧ Only s t { s with queues := t.queues } [])

/-- A descriptor can be fetched for a queue: no access to its bytes waits at a channel, and they read unpoisoned (04 R99, 10 R263). -/
def Sys2Proof.Claims.Fetched (s : State) (c q a : Nat) (d : List Byte) : Prop :=
  s.hbmWaits a (descSize q) = false ∧ s.fetchDesc c q a = .ok d

/-- A fetched descriptor goes to its engine: its header is in order and its counter wait met, or its engine itself refuses it, the FLE
or the SV (04 R100, 06 R167, 08 R233). -/
def Sys2Proof.Claims.Enters (s : State) (c q : Nat) (d : List Byte) : Prop :=
  if headerOk q d = true then s.waitOk c d = true else q = 2 ∨ q = 3

/-- The queue has halted at `h` with a status: Q_STATUS holds the status and the address, and WAKE_CAUSE.QUEUE_ERROR is set (04 R104, R105). -/
def Sys2Proof.Claims.HaltedAt (s t : State) (c q code : Nat) (h : Halted) : Prop :=
  (t.queue c q).halted = some h ∧ t.queueState c q = 3
    ∧ t.fldAt (.core c) (qOff q 0x120) 8 56 = code + h.addr % 2 ^ 48 * 2 ^ 8 ∧ t.bitAt (.core c) 0x030 1 = true
    ∧ (∀ k, k ≠ 6 * c + q → Tab.get {} t.queues k = Tab.get {} s.queues k)

/-- DESCRIPTOR_START (04 R99, R100): the descriptor at the head of the queue's source, fetched, with a header in order and its FENCE and
counter wait met, or one that its engine refuses itself, is in progress behind the earlier ones, and the rest of its chain is next. -/
def Sys2Proof.Claims.DescriptorStarts : Prop :=
  ∀ (s : State) (c : Fin 256) (q : Fin 6) (e : ChainEntry) (ring : Bool) (d : List Byte),
    s.coreRuns c = true → (s.queue c q).halted = none → (s.queue c q).again = none → s.headOf c q = some (e, ring) →
    Claims.Fetched s c q e.addr d → Claims.Enters s c q d →
    (headerOk q d = true → hdrFence d = true → (s.queue c q).running = []) → NoneFailed s c q →
    Runs (.descriptorStart c q) s fun t =>
      (t.queue c q).running = (s.queue c q).running ++ [{ addr := e.addr, desc := d, ring := ring, alone := e.dispatcher }]
        ∧ (t.queue c q).next = chainRest q e ring d ∧ (t.queue c q).halted = none
        ∧ (∀ k, k ≠ 6 * c.val + q.val → Tab.get {} t.queues k = Tab.get {} s.queues k)
        ∧ OnlyRead s t { s with queues := t.queues } []

/-- DESCRIPTOR_START waits (04 R100): while a FENCE or the counter wait is not met nothing changes. A descriptor that cannot be fetched halts
the queue with the status of its fetch, and one with a reserved header, where no engine refuses it itself, with MALFORMED (04 R104, R105). -/
def Sys2Proof.Claims.DescriptorStartHalts : Prop :=
  ∀ (s : State) (c : Fin 256) (q : Fin 6) (e : ChainEntry) (ring : Bool), s.coreRuns c = true → (s.queue c q).halted = none →
    (s.queue c q).again = none → s.headOf c q = some (e, ring) → s.hbmWaits e.addr (descSize q) = false →
    (∀ d, s.fetchDesc c q e.addr = .ok d → headerOk q d = true →
      ((hdrFence d = true ∧ (s.queue c q).running ≠ []) ∨ s.waitOk c d = false) →
      Runs (.descriptorStart c q) s fun t => t = s)
    ∧ ((s.queue c q).running = [] →
      (∀ code, s.fetchDesc c q e.addr = .error code →
        Runs (.descriptorStart c q) s fun t =>
          Claims.HaltedAt s t c q code { addr := e.addr, fetched := false, ring := ring, last := false, alone := e.dispatcher }
            ∧ t = { s with regs := t.regs, channels := t.channels, queues := t.queues, reports := t.reports }
            ∧ RegsBut s t ([at_ (.core c) (qOff q 0x120), at_ (.core c) 0x030] ++ transferKeys) ∧ SameBytes s t)
      ∧ (∀ d, s.fetchDesc c q e.addr = .ok d → headerOk q d = false → q.val ≠ 2 → q.val ≠ 3 →
        Runs (.descriptorStart c q) s fun t =>
          Claims.HaltedAt s t c q 1 { addr := e.addr, fetched := true, ring := ring, last := hdrLast d, alone := e.dispatcher }
            ∧ OnlyRead s t { s with queues := t.queues } [at_ (.core c) (qOff q 0x120), at_ (.core c) 0x030]))

/-- RESUME (04 R104): the halted descriptor is fetched again and is in progress, ahead of the others, once its counter wait is met; where the
fetch fails the queue halts again. SKIP (04 R104): the descriptor is retired without an increment of Q_DONE or a counter; a ring slot is
freed, and a chain whose descriptor was never fetched ends. -/
def Sys2Proof.Claims.HaltedQueueGoesOn : Prop :=
  (∀ (s : State) (c : Fin 256) (q : Fin 6) (h : Halted), (s.queue c q).halted = some h → s.coreRuns c = true →
    s.hbmWaits h.addr (descSize q) = false →
    let r := s.queue c q
    (∀ d, s.fetchDesc c q h.addr = .ok d → Claims.Enters s c q d →
      Runs (.resume c q) s fun t =>
        t.queue c q = { r with
          halted := none, again := none
          running := { addr := h.addr, desc := d, ring := h.ring, alone := h.alone } :: r.running
          next := if r.running = [] ∧ h.ring = false then chainRest q { addr := h.addr, dispatcher := h.alone } false d else r.next }
          ∧ (∀ k, k ≠ 6 * c.val + q.val → Tab.get {} t.queues k = Tab.get {} s.queues k)
          ∧ OnlyRead s t { s with queues := t.queues } [])
    ∧ (∀ d, s.fetchDesc c q h.addr = .ok d → headerOk q d = true → s.waitOk c d = false →
      Runs (.resume c q) s fun t =>
        t.queue c q = { r with halted := none, again := some h } ∧ Only s t { s with queues := t.queues } [])
    ∧ (∀ code, s.fetchDesc c q h.addr = .error code →
      Runs (.resume c q) s fun t => Claims.HaltedAt s t c q code { h with fetched := false } ∧ (t.queue c q).running = r.running))
  ∧ (∀ (s : State) (c : Fin 256) (q : Fin 6) (h : Halted), (s.queue c q).halted = some h → NoneFailed s c q →
    Runs (.skip c q) s fun t =>
      t.queue c q = { s.queue c q with halted := none, next := if h.fetched || h.ring then (s.queue c q).next else none }
        ∧ t.qHead c q = (s.qHead c q + if h.ring then 1 else 0) % 65536
        ∧ Only s t { s with regs := t.regs, queues := t.queues } [at_ (.core c) (qOff q 0x118)])

/-- FLUSH (04 R104): no slot or chain is pending, nothing is in progress and Q_HEAD equals Q_TAIL; a descriptor that ran leaves the status
ABORTED, and of an MXE queue, whose regions end as NaN (05 R131), a pump, or an idle FLE nothing else changes. -/
def Sys2Proof.Claims.FlushEmptiesQueue : Prop :=
  ∀ (s : State) (c : Fin 256) (q : Fin 6),
    Runs (.flush c q) s fun t =>
      t.queue c q = {} ∧ t.qHead c q = t.qTail c q ∧ t.queueState c q = 0
        ∧ (q.val ≠ 3 → ∀ r rs, (s.queue c q).running = r :: rs → t.fldAt (.core c) (qOff q 0x120) 8 8 = 4)
        ∧ (q.val ≠ 3 → (q.val = 2 → (s.queue c q).running = []) →
            (∀ k, k ≠ 6 * c.val + q.val → Tab.get {} t.queues k = Tab.get {} s.queues k)
            ∧ (1 < q.val → t.acc = s.acc)
            ∧ Only s t { s with regs := t.regs, queues := t.queues, tray := t.tray, acc := t.acc }
                [at_ (.core c) (qOff q 0x118), at_ (.core c) (qOff q 0x120)])

/-- WFI (04 R105): a running pilot core waits, unless an enabled source is set already, and then goes on. PILOT_WAKE (04 R105): a waiting pilot
core goes on once an enabled source is set, and WAKE_CAUSE stays. Going on, the instruction retires: the pc moves past it, and it counts. -/
def Sys2Proof.Claims.PilotWaitsAndWakes : Prop :=
  (∀ (s : State) (c : Fin 256), s.hartRuns c = true → s.mayWake c = false →
    Runs (.wfi c) s fun t =>
      t.reg (.core c) 0x008 = setBit (s.reg (.core c) 0x008) 3 true ∧ Only s t { s with regs := t.regs } [at_ (.core c) 0x008])
  ∧ (∀ (s : State) (c : Fin 256), s.hartRuns c = true → s.mayWake c = true →
    Runs (.wfi c) s fun t =>
      t = s.setHart c { s.hart c with pc := (s.hart c).pc + 4, instret := (s.hart c).instret + 1 })
  ∧ (∀ (s : State) (c : Fin 256), s.coreRuns c = true → s.bitAt (.core c) 0x008 3 = true → s.mayWake c = true →
    Runs (.pilotWake c) s fun t =>
      t.reg (.core c) 0x008 = setBit (s.reg (.core c) 0x008) 3 false
        ∧ t.hart c = { s.hart c with pc := (s.hart c).pc + 4, instret := (s.hart c).instret + 1 }
        ∧ (∀ h, h ≠ c.val → t.hart h = s.hart h)
        ∧ Only s t { s with regs := t.regs, harts := t.harts } [at_ (.core c) 0x008])

/-- The requests of CORE_CTRL (04 R116, R117, Table 4-9). OFFLINE_DRAIN takes an ONLINE core to DRAINING, its queues but the SV's as they are;
OFFLINE_ABORT an ONLINE or DRAINING one to OFFLINE with its queues empty; ONLINE an OFFLINE one to ONLINE with empty queues, event counters
and accumulators 0 and a fresh hart at PILOT_PC. In any other state a request only sets CFG_REJECT. A DRAINING core whose queues are empty
and whose writes are acknowledged becomes OFFLINE (CORE_DRAIN_DONE); any other core stays as it is. -/
def Sys2Proof.Claims.CoreStateRequests : Prop :=
  ∀ (s : State) (c : Fin 256),
    let refused := fun (i : Instr) =>
      Runs i s fun t => t.bitAt (.core c) 0x2F0 0 = true
        ∧ Only s t { s with regs := t.regs } [at_ (.core c) 0x000, at_ (.core c) 0x2F0]
    (s.coreState c = 0 → Runs (.offlineDrain c) s fun t => t.coreState c = 1 ∧ ∀ q : Fin 6, q ≠ 3 → t.queue c q = s.queue c q)
    ∧ (s.coreState c ≠ 0 → refused (.offlineDrain c))
    ∧ (s.coreState c ≤ 1 → Runs (.offlineAbort c) s fun t => t.coreState c = 2 ∧ ∀ q : Fin 6, t.queue c q = {})
    ∧ (1 < s.coreState c → refused (.offlineAbort c))
    ∧ (s.coreState c = 2 → Runs (.online c) s fun t =>
      t.coreState c = 0
        ∧ (∀ q : Fin 6, t.queue c q = {} ∧ t.qHead c q = 0 ∧ t.qTail c q = 0)
        ∧ (∀ i : Fin 16, t.reg (.core c) (0x040 + 8 * i.val) = 0)
        ∧ t.hart c = { pc := BitVec.ofNat 64 (wellBase c + s.fldAt (.core c) 0x018 0 22) }
        ∧ (∀ k, 2 * c.val * 65536 ≤ k → k < (2 * c.val + 2) * 65536 → Tab.get 0 t.acc k = 0)
        ∧ t = { s with regs := t.regs, queues := t.queues, acc := t.acc, accPoison := t.accPoison, harts := t.harts
                       lvseed := t.lvseed, draws := s.draws + 1 })
    ∧ (s.coreState c ≠ 2 → refused (.online c))
    ∧ (s.coreState c = 1 → s.coreEmpty c = true → s.writesOut c = false →
      Runs (.coreDrainDone c) s fun t =>
        t.coreState c = 2 ∧ t.bitAt (.core c) 0x008 3 = false
          ∧ Only s t { s with regs := t.regs, berths := t.berths } [at_ (.core c) 0x008])
    ∧ (s.coreState c ≠ 1 ∨ s.coreEmpty c = false ∨ s.writesOut c = true → Runs (.coreDrainDone c) s fun t => t = s)

/-- PUMP_COMPLETE (04 R100, R101): the oldest descriptor, ended with status 0, leaves the queue; Q_DONE and, with EVT, its event counter advance by
one, with NOTIFY its source is set, and a ring slot is freed; a descriptor with no POST_ADDR writes nothing. -/
def Sys2Proof.Claims.PumpCompleteRetires : Prop :=
  ∀ (s : State) (c : Fin 256) (p : Fin 2) (r : Running) (rs : List Running), s.coreRuns c = true → (s.queue c (4 + p)).halted = none →
    (s.queue c (4 + p)).again = none →
    (s.queue c (4 + p)).running = r :: rs → r.done = some 0 → (∀ x ∈ rs, x.done = none ∨ x.done = some 0) → pmPost r.desc = 0 →
    Runs (.pumpComplete c p) s fun t =>
      t.queue c (4 + p) = { s.queue c (4 + p) with running := rs }
        ∧ t.regN (.core c) (qOff (4 + p) 0x128) = (s.regN (.core c) (qOff (4 + p) 0x128) + 1) % 2 ^ 64
        ∧ t.qHead c (4 + p) = (s.qHead c (4 + p) + if r.ring then 1 else 0) % 65536
        ∧ (let n := bits (hdr r.desc) 24 4
           t.fldAt (.core c) (0x040 + 8 * n) 0 32 =
             (s.fldAt (.core c) (0x040 + 8 * n) 0 32 + if (hdr r.desc).testBit 28 then 1 else 0) % 2 ^ 32)
        ∧ (hdrNotify r.desc = true → t.bitAt (.core c) 0x030 (8 + (4 + p)) = true)
        ∧ Only s t { s with regs := t.regs, queues := t.queues }
            [at_ (.core c) (qOff (4 + p) 0x128), at_ (.core c) (qOff (4 + p) 0x118), at_ (.core c) (0x040 + 8 * bits (hdr r.desc) 24 4),
             at_ (.core c) 0x030]

/-- PUMP_DESCRIPTOR (04 R112, R113): a strided copy of one unconverted element between two places in HBM moves its bytes, where no access
waits at a channel and no channel is lost, and ends with status 0; a descriptor that breaks R112 ends MALFORMED and moves nothing. -/
def Sys2Proof.Claims.PumpCopiesElement : Prop :=
  (∀ (s : State) (c : Fin 256) (p : Fin 2) (r : Running), s.coreRuns c = true → (s.queue c (4 + p)).halted = none →
    (s.queue c (4 + p)).running = [r] → r.done = none → r.moved = false → r.remote = [] → s.pumpMalformed r.desc = false →
    pmShape r.desc = 0 → pmConvert r.desc = false → pmScale r.desc = false → pmInner r.desc = 1 → pmRows r.desc = 1 →
    let n := (pmSrcFmt r.desc).size
    pmSrc r.desc + n ≤ hbmEnd → pmDst r.desc + n ≤ hbmEnd →
    s.hbmWaits (pmSrc r.desc) n = false → s.hbmWaits (pmDst r.desc) n = false →
    s.lostAt (pmSrc r.desc) = false → s.lostAt (pmDst r.desc) = false → s.linePoison (pmSrc r.desc) n = false →
    Runs (.pumpDescriptor c p) s fun t =>
      t.bytesAt (pmDst r.desc) n = s.bytesAt (pmSrc r.desc) n
        ∧ ((t.queue c (4 + p)).running.map (·.done)) = [some 0]
        ∧ (∀ a, a < pmDst r.desc ∨ pmDst r.desc + n ≤ a → t.byteAt a = s.byteAt a))
  ∧ (∀ (s : State) (c : Fin 256) (p : Fin 2) (r : Running), s.coreRuns c = true → (s.queue c (4 + p)).halted = none →
    (s.queue c (4 + p)).again = none → (s.queue c (4 + p)).running = [r] → r.done = none → s.pumpMalformed r.desc = true →
    Runs (.pumpDescriptor c p) s fun t =>
      t.queueState c (4 + p) = 3 ∧ t.fldAt (.core c) (qOff (4 + p) 0x120) 8 8 = 1
        ∧ Only s t { s with regs := t.regs, queues := t.queues } [at_ (.core c) (qOff (4 + p) 0x120), at_ (.core c) 0x030])

/-- A read of an RC register answers with its value and clears its RC field: PUMP_CONV (04 R114), MX_CONV (05 R137), FL_CONV (06 R165), CH_CE
and CH_UE (10 R261), DROP_COUNT (11 R304), TRIG_DROPS (13 R346), CL_STRAY (13 R350); a read of BASIN_OCC (11, 19 R502) starts HIGH again at OCC. -/
def Obligations.ReadClearsCounts : Prop :=
  ∀ s : State,
    let reads := fun (i : Instr) (b : Block) (off : Nat) (left : Word) =>
      Runs i s fun t =>
        t.answer = { status := 0, data := leBytes 8 (s.reg b off).toNat } ∧ t.reg b off = left
          ∧ Only s t { s with regs := t.regs, answer := t.answer } [at_ b off]
    (∀ (c : Fin 256) (p : Fin 2), reads (.pumpConvRead c p) (.core c) (0x280 + 8 * p) 0)
    ∧ (∀ (c : Fin 256) (e : Fin 2), reads (.mxConvRead c e) (.mxe c e) 0x18 0)
    ∧ (∀ c : Fin 256, reads (.flConvRead c) (.fle c) 0x18 0)
    ∧ (∀ ch : Fin 192,
        reads (.chCeRead ch) (groupOf ch) (chOff ch 0x108) (setFld (s.reg (groupOf ch) (chOff ch 0x108)) 0 32 0)
          ∧ reads (.chUeRead ch) (groupOf ch) (chOff ch 0x110) (setFld (s.reg (groupOf ch) (chOff ch 0x110)) 0 32 0))
    ∧ (∀ k : Fin 5, reads (.dropCountRead k) .router (0x040 + 8 * k) (setFld (s.reg .router (0x040 + 8 * k)) 0 32 0))
    ∧ (∀ q : Fin 2, reads (.trigDropsRead q) (.collective q) 0x050 (setFld (s.reg (.collective q) 0x050) 0 32 0)
          ∧ reads (.clStrayRead q) (.collective q) 0x060 (setFld (s.reg (.collective q) 0x060) 0 32 0))
    ∧ (∀ (p : Fin 16) (v : Fin 8), reads (.basinOccRead p v) (.port p) (0x1C0 + 8 * v)
          (setFld (s.reg (.port p) (0x1C0 + 8 * v)) 32 32 (fld (s.reg (.port p) (0x1C0 + 8 * v)) 0 32)))

/-- Entries of a core queue: ring tails, chains and the reserved slot. Where the spec leaves a point open it follows the model's choices of log entry 69. -/
def Obligations.QueueEntries : Prop :=
  Claims.QTailWriteRule ∧ Claims.ChainFifoOfFour

/-- The start of a descriptor, its waits and its refusal. Where the spec leaves a point open it follows the model's choices of log entries 30 and 31. -/
def Obligations.DescriptorStarting : Prop :=
  Claims.DescriptorStarts ∧ Claims.DescriptorStartHalts

/-- RESUME, SKIP and FLUSH of a core queue. Where the spec leaves a point open it follows the model's choices of log entry 70. -/
def Obligations.HaltedAndFlushed : Prop :=
  Claims.HaltedQueueGoesOn ∧ Claims.FlushEmptiesQueue

/-- Pilot waits and the requests for a core's state. Where the spec leaves a point open it follows the model's choices of log entries 71 and 73. -/
def Obligations.CoresAndPilots : Prop :=
  Claims.PilotWaitsAndWakes ∧ Claims.CoreStateRequests

/-- Pump descriptors: a copy, a malformed one, and the end. Where the spec leaves a point open it follows the model's choices of log entry 38. -/
def Obligations.PumpWork : Prop :=
  Claims.PumpCompleteRetires ∧ Claims.PumpCopiesElement

/-! ## The engines (05, 06) -/

/-- MXE_DESCRIPTOR (05 R134, R135): every descriptor that no check refuses runs to its end, with status 0, or POISON where it read poisoned data;
a refused one halts the queue with its status and leaves bank and memory as they were. -/
def Sys2Proof.Claims.MxeDescriptorEnds : Prop :=
  ∀ (s : State) (c : Fin 256) (e : Fin 2) (x : Running), s.coreRuns c = true → (s.queue c e).halted = none →
    (s.queue c e).again = none → (s.queue c e).running = [x] → x.done = none →
    (s.mxRefusal c x.desc = 0 →
      Runs (.mxeDescriptor c e) s fun t =>
        (t.queue c e).running.map (·.done) = [some 0] ∨ (t.queueState c e = 3 ∧ t.fldAt (.core c) (qOff e 0x120) 8 8 = 3))
    ∧ (s.mxRefusal c x.desc ≠ 0 →
      Runs (.mxeDescriptor c e) s fun t =>
        t.queueState c e = 3 ∧ t.fldAt (.core c) (qOff e 0x120) 8 8 = s.mxRefusal c x.desc
          ∧ Only s t { s with regs := t.regs, queues := t.queues } [at_ (.core c) (qOff e 0x120), at_ (.core c) 0x030])

/-- MXE_DESCRIPTOR with M = N = K = 1, no output and no accumulation (05 R122, R126): the bank element holds the product of A and B rounded
once to FP32, every other element stays, its row is not marked poisoned, and the tile of B is left in the weight register (05 R120). -/
def Sys2Proof.Claims.MxeSingleProduct : Prop :=
  ∀ (s : State) (c : Fin 256) (e : Fin 2) (x : Running), s.coreRuns c = true → (s.queue c e).halted = none →
    (s.queue c e).running = [x] → x.done = none → s.mxRefusal c x.desc = 0 →
    let d := x.desc
    mxM d = 1 → mxN d = 1 → mxK d = 1 → mxCtrl d 2 = false → mxCtrl d 3 = false → mxCtrl d 4 = false → mxCtrl d 5 = false →
    let a := s.mxElemA c d 0 0
    let b := s.mxElemB c d 0 0
    a.poison = false → b.poison = false →
    Runs (.mxeDescriptor c e) s fun t =>
      t.accAt c e (mxRow d) 0 = passResult none [(decodeNum (mxFmtA d) a.code).mul (decodeNum (mxFmtB d) b.code)] % 2 ^ 32
        ∧ t.rowMarked c e (mxRow d) = false
        ∧ (∀ k, k ≠ accKey c e (mxRow d) 0 → Tab.get 0 t.acc k = Tab.get 0 s.acc k)
        ∧ (t.queue c e).running.map (·.done) = [some 0]
        ∧ (Tab.get {} t.weights (2 * c + e)).weight = [[(b.code, false)]]
        ∧ t = { s with regs := t.regs, queues := t.queues, acc := t.acc, accPoison := t.accPoison, weights := t.weights, draws := t.draws }
        ∧ SameBytes s t

/-- FLE_CHAIN (06 R143, R166, R167): every chain that no check refuses runs to its end, with status 0, or POISON where a LOAD read poisoned data;
memory outside the spans of its STORE and SUMMARY stages reads as before. A refused one halts the queue with its status and names the failing stage. -/
def Sys2Proof.Claims.FleChainEnds : Prop :=
  ∀ (s : State) (c : Fin 256) (x : Running), s.coreRuns c = true → (s.queue c 2).halted = none →
    (s.queue c 2).again = none → (s.queue c 2).running = [x] → x.done = none →
    ((s.flRefusal c x.desc).1 = 0 →
      Runs (.fleChain c) s fun t =>
        ((t.queue c 2).running.map (·.done) = [some 0] ∨ (t.queueState c 2 = 3 ∧ t.fldAt (.core c) (qOff 2 0x120) 8 8 = 3))
          ∧ (∀ a : Nat,
              (∀ p ∈ flSpans x.desc (flStages x.desc), p.store = true → (a : Int) < wellBase c + p.lo ∨ (wellBase c : Int) + p.hi ≤ a) →
              t.byteAt a = s.byteAt a))
    ∧ ((s.flRefusal c x.desc).1 ≠ 0 →
      Runs (.fleChain c) s fun t =>
        t.queueState c 2 = 3 ∧ t.fldAt (.core c) (qOff 2 0x120) 8 8 = (s.flRefusal c x.desc).1
          ∧ t.fldAt (.fle c) 0x08 16 4 = (s.flRefusal c x.desc).2 % 16
          ∧ Only s t { s with regs := t.regs, queues := t.queues } [at_ (.fle c) 0x08, at_ (.core c) (qOff 2 0x120), at_ (.core c) 0x030])

/-- MXE_COMPLETE and FLE_COMPLETE (04 R100–R102, 05 R138, 06 R168): the oldest descriptor, ended with status 0, leaves the queue once its writes
stand, those of a chain's summaries with SEQ the new Q_DONE (06 R162); Q_DONE advances by one, and a descriptor with a trigger sends its add. -/
def Sys2Proof.Claims.EngineCompletes : Prop :=
  ∀ (s : State) (c : Fin 256) (r : Running) (rs : List Running), s.coreRuns c = true → r.done = some 0 →
    (∀ x ∈ rs, x.done = none ∨ x.done = some 0) →
    let retires := fun (u t : State) (q : Nat) (trig inc : Nat) =>
      (t.queue c q).running = rs ∧ t.regN (.core c) (qOff q 0x128) = (u.regN (.core c) (qOff q 0x128) + 1) % 2 ^ 64
        ∧ t.adds = s.adds ++ (if trig.testBit 31 then [{ counter := trig % 2 ^ 17, inc := inc, source := 1 }] else [])
        ∧ Only u t { u with regs := t.regs, queues := t.queues, adds := t.adds }
            [at_ (.core c) (qOff q 0x128), at_ (.core c) (qOff q 0x118), at_ (.core c) (0x040 + 8 * bits (hdr r.desc) 24 4), at_ (.core c) 0x030]
    (∀ e : Fin 2, (s.queue c e).halted = none → (s.queue c e).again = none → (s.queue c e).running = r :: rs →
      Runs (.mxeComplete c e) s fun t => retires (s.lateWrites r.writes) t e (mxTrig r.desc) (mxTrigInc r.desc))
    ∧ ((s.queue c 2).halted = none → (s.queue c 2).again = none → (s.queue c 2).running = r :: rs →
      Runs (.fleComplete c) s fun t => retires (s.lateWrites (withSeq (s.qDone c 2 + 1) r.writes)) t 2 (flTrig r.desc) (flTrigInc r.desc))

/-- Matrix-engine descriptors: their end, and a single product. Where the spec leaves a point open it follows the model's choices of log entries 33, 34 and 72. -/
def Obligations.MatrixWork : Prop :=
  Claims.MxeDescriptorEnds ∧ Claims.MxeSingleProduct

/-- Flow-engine chains and the end of an engine's descriptor. Where the spec leaves a point open it follows the model's choices of log entries 30, 35, 73 and 74. -/
def Obligations.FlowWork : Prop :=
  Claims.FleChainEnds ∧ Claims.EngineCompletes

/-! ## Harts (07) -/

/-- The element-wise Xkmlv instructions, KGATH and KSCAT, by their codes (07 Table 7-6). -/
def Sys2Proof.Claims.elementOps : List (Nat × (Fin 320 → Fin 32 → Fin 32 → Fin 32 → Fin 32 → Instr)) :=
  [(0, .kadd), (1, .ksub), (2, .kmul), (3, .kfma), (4, .kmax), (5, .kmin), (6, .kdiv), (7, .kcvt), (8, .kgath), (9, .kscat)]

/-- The reductions, by their codes. -/
def Sys2Proof.Claims.reduceOps : List (Nat × (Fin 320 → Fin 32 → Fin 32 → Fin 32 → Fin 32 → Instr)) :=
  [(10, .kdot), (11, .ksum), (12, .kamax)]

/-- The registers that an instruction names. -/
def Sys2Proof.Claims.lvInstr (op : Nat) (rd rs1 rs2 rs3 : Fin 32) : LvInstr := { op := op, rd := rd, rs1 := rs1, rs2 := rs2, rs3 := rs3 }

/-- The operands of an instruction on a hart. -/
def Sys2Proof.Claims.lvCtx (s : State) (h op : Nat) (rd rs1 rs2 rs3 : Fin 32) : LvCtx := (s.hart h).lvCtx (lvInstr op rd rs1 rs2 rs3)

/-- The state in which an instruction meets its first element: XS Dirty (07 R185), lvev and a reduction's accumulator cleared (07 R191, R192). -/
def Sys2Proof.Claims.lvStart (s : State) (h : Nat) (c : LvCtx) : State :=
  s.setHart h (Hart.lvBegin { s.hart h with mstatus := dirtyXs (s.hart h).mstatus } c)

/-- An Xkmlv instruction may run: the hart runs, XS is not Off, and no check of Table 7-9 refuses it. -/
def Sys2Proof.Claims.LvReady (s : State) (h op : Nat) (rd rs1 rs2 rs3 : Fin 32) : Prop :=
  s.hartRuns h = true ∧ fld (s.hart h).mstatus 15 2 ≠ 0 ∧ (lvCtx s h op rd rs1 rs2 rs3).refusal (lvInstr op rd rs1 rs2 rs3) = 0

/-- What every Xkmlv instruction leaves in its hart when it retires: the pc is past it, lvstart is 0, and XS is Dirty (07 R185, R197). -/
def Sys2Proof.Claims.LvRetired (s t : State) (h : Nat) : Prop :=
  (t.hart h).pc = (s.hart h).pc + 4 ∧ (t.hart h).lvstart = 0 ∧ fld (t.hart h).mstatus 15 2 = 3

/-- An element-wise instruction, KGATH or KSCAT of one element whose reads and write meet no exception (07 R187, R192): the store of its result is what
memory keeps, and rd holds its events, the NaN ones below the saturations; a vector of length 0 writes 0 to rd and nothing to memory. -/
def Sys2Proof.Claims.LongVectorElement : Prop :=
  ∀ op mk, (op, mk) ∈ elementOps → ∀ (s : State) (h : Fin 320) (rd rs1 rs2 rs3 : Fin 32), LvReady s h op rd rs1 rs2 rs3 → (s.hart h).lvstart = 0 →
    let c := lvCtx s h op rd rs1 rs2 rs3
    let s1 := lvStart s h c
    (fld (s.hart h).lvl 0 25 = 0 →
      Runs (mk h rd rs1 rs2 rs3) s fun t => LvRetired s t h ∧ (t.hart h).reg rd = 0 ∧ Only s t { s with harts := t.harts } [])
    ∧ (∀ (a b d : Elem) (s2 s3 : State), fld (s.hart h).lvl 0 25 = 1 → s1.lvReads h c 0 = .ok ((a, b, d), s2) →
      let v := c.result (s2.draw16 0) a.code b.code d.code
      s2.lvWrite h (c.addrD 0 b.code) c.fmtD v.code (a.poison || b.poison || d.poison) = .ok s3 → (s3.hart h).lvev = 0 →
      (s3.hart h).lvstart = 0 → (s3.hart h).pc = (s.hart h).pc → (s3.hart h).mstatus = (s1.hart h).mstatus →
      Runs (mk h rd rs1 rs2 rs3) s fun t =>
        LvRetired s t h ∧ (rd ≠ 0 → (t.hart h).reg rd = BitVec.ofNat 64 (sat32 v.nans + sat32 v.sats * 2 ^ 32))
          ∧ t = { s3 with harts := t.harts, draws := t.draws } ∧ SameBytes s3 t)

/-- A reduction of one element whose reads meet no exception (07 R190–R192): rd holds the value of the accumulated element in D's format. -/
def Sys2Proof.Claims.LongVectorReduction : Prop :=
  ∀ op mk, (op, mk) ∈ reduceOps → ∀ (s : State) (h : Fin 320) (rd rs1 rs2 rs3 : Fin 32), LvReady s h op rd rs1 rs2 rs3 → (s.hart h).lvstart = 0 →
    fld (s.hart h).lvl 0 25 = 1 →
    let c := lvCtx s h op rd rs1 rs2 rs3
    let s1 := lvStart s h c
    ∀ (m : LvTerms) (s2 : State), State.lvTerms h c 1 0 s1 {} = .ok (m, s2) → s2.hart h = s1.hart h →
    let r := if op = 12 then (s1.hart h).addMax c m else if c.fmtA.isFp then (s1.hart h).addFp c m else (s1.hart h).addExact c m
    Runs (mk h rd rs1 rs2 rs3) s fun t =>
      LvRetired s t h ∧ (rd ≠ 0 → (t.hart h).reg rd = rdValue c.fmtD (r.lvValue c (s2.draw16 0)).code)
        ∧ t = { s2 with harts := t.harts, draws := t.draws } ∧ SameBytes s2 t

/-- KSUM of one INT32 element that a pilot core reads in HBM, with a result of format INT32 (07 R191, R192): rd holds the element, sign-extended. -/
def Sys2Proof.Claims.LongVectorSumOfOne : Prop :=
  ∀ (s : State) (h : Fin 256) (rd rs2 : Fin 32), LvReady s h 11 rd 0 rs2 0 → (s.hart h).lvstart = 0 → fld (s.hart h).lvl 0 25 = 1 →
    let c := lvCtx s h 11 rd 0 rs2 0
    c.wordA = 8 → c.wordD = 8 → rd ≠ 0 →
    (s.hart h).priv = 3 → bit (s.hart h).mstatus 17 = false → (∀ i, i < 18 → Tab.get 0 (s.hart h).pmp i = 0) →
    c.a + 4 ≤ hbmEnd → s.hbmWaits c.a 4 = false → s.lostAt c.a = false → s.linePoison c.a 4 = false →
    Runs (.ksum ⟨h.val, by omega⟩ rd 0 rs2 0) s fun t =>
      (t.hart h).reg rd = BitVec.ofNat 64 (ofSigned 64 (toSigned 32 (leNat (s.bytesAt c.a 4)))) ∧ LvRetired s t h ∧ SameBytes s t

/-- An Xkmlv instruction takes illegal instruction while XS is Off (07 R185), and exception 24 with the reason in mtval where a check refuses it (07
R194); no element is touched. -/
def Sys2Proof.Claims.LongVectorRefused : Prop :=
  ∀ op mk, (op, mk) ∈ elementOps ++ reduceOps → ∀ (s : State) (h : Fin 320) (rd rs1 rs2 rs3 : Fin 32), s.hartRuns h = true → (s.hart h).priv = 3 →
    (fld (s.hart h).mstatus 15 2 = 0 →
      Runs (mk h rd rs1 rs2 rs3) s fun t =>
        (t.hart h).mcause = 2 ∧ (t.hart h).mepc = (s.hart h).pc ∧ (t.hart h).pc = setFld (s.hart h).mtvec 0 2 0
          ∧ Only s t { s with harts := t.harts, draws := t.draws } [])
    ∧ (fld (s.hart h).mstatus 15 2 ≠ 0 → (lvCtx s h op rd rs1 rs2 rs3).refusal (lvInstr op rd rs1 rs2 rs3) ≠ 0 →
      Runs (mk h rd rs1 rs2 rs3) s fun t =>
        (t.hart h).mcause = 24 ∧ (t.hart h).mepc = (s.hart h).pc ∧ (t.hart h).pc = setFld (s.hart h).mtvec 0 2 0
          ∧ (t.hart h).mtval = BitVec.ofNat 64 ((lvCtx s h op rd rs1 rs2 rs3).refusal (lvInstr op rd rs1 rs2 rs3))
          ∧ Only s t { s with harts := t.harts } [])

/-- XKMLV_INTERRUPT_STOP at or before the element that lvstart names (07 R196, R197): the hart takes the interrupt with lvstart as it was, and no element
is touched. An operation code of 13 to 31 is an illegal instruction (07 R186). -/
def Sys2Proof.Claims.LongVectorInterrupted : Prop :=
  ∀ (s : State) (h : Fin 320) (op : Fin 32) (rd rs1 rs2 rs3 : Fin 32) (stop cause : Nat), (s.hart h).priv = 3 →
    (op.val < 13 → LvReady s h op rd rs1 rs2 rs3 → stop ≤ fld (s.hart h).lvstart 0 25 →
      Runs (.xkmlvInterruptStop h op rd rs1 rs2 rs3 stop cause) s fun t =>
        (t.hart h).mcause = BitVec.ofNat 64 (cause + 2 ^ 63) ∧ (t.hart h).mepc = (s.hart h).pc ∧ (t.hart h).lvstart = (s.hart h).lvstart
          ∧ Only s t { s with harts := t.harts } [])
    ∧ (13 ≤ op.val → s.hartRuns h = true →
      Runs (.xkmlvInterruptStop h op rd rs1 rs2 rs3 stop cause) s fun t =>
        (t.hart h).mcause = 2 ∧ (t.hart h).mepc = (s.hart h).pc ∧ (t.hart h).pc = setFld (s.hart h).mtvec 0 2 0
          ∧ Only s t { s with harts := t.harts, draws := t.draws } [])

/-- A hart whose instruction has retired, the pc past it. -/
def Sys2Proof.Claims.retired (o n : Hart) : Hart := { n with pc := o.pc + 4, instret := o.instret + 1 }

/-- Only hart h has changed. -/
def Sys2Proof.Claims.OnlyHart (s t : State) (h : Nat) : Prop :=
  (∀ k, k ≠ h → t.hart k = s.hart k) ∧ Only s t { s with harts := t.harts } []

/-- The hart has taken an exception into M mode. -/
def Sys2Proof.Claims.Trapped (s t : State) (h cause : Nat) : Prop :=
  (t.hart h).mcause = BitVec.ofNat 64 cause ∧ (t.hart h).mepc = (s.hart h).pc ∧ (t.hart h).pc = setFld (s.hart h).mtvec 0 2 0

/-- The value of the Xkmlv CSR of number 0x800 + k. -/
def Sys2Proof.Claims.longCsr (s : State) (h k : Nat) : Word :=
  let o := s.hart h
  [o.lvl, o.lvstart, o.lvfmt, o.lvstr0, o.lvstr1, o.lvacc0, o.lvacc1, o.lvev, o.lvstat, Tab.get (Config.entropy h) s.lvseed h].getD k 0

/-- XKMLV_CSR_WRITE of one of the ten CSRs of the extension (07 R185, R201): with XS on the CSR takes the value written, under its own rule,
rd the old one, XS becomes Dirty, the pc moves on, and the other CSRs of the extension stay; a read, also one of lvinfo, only writes rd.
With XS Off the hart takes illegal instruction. -/
def Sys2Proof.Claims.LongVectorCsrWrite : Prop :=
  ∀ (s : State) (h : Fin 320) (k : Fin 10) (rd : Fin 32) (v : Word), s.hartRuns h = true →
    let o := s.hart h
    let old := longCsr s h k
    (fld o.mstatus 15 2 ≠ 0 →
      (∀ rs1 : Option (Fin 32),
        let w := match rs1 with | some r => o.reg r.val | none => v
        Runs (.xkmlvCsrWrite h (.csr .write (BitVec.ofNat 12 (0x800 + k.val)) rd rs1) v) s fun t =>
          let n := t.hart h
          n.lvl = (if k = 0 then (if 16_777_216 < w.toNat then 16_777_216 else w) else o.lvl)
            ∧ n.lvstart = (if k = 1 then w &&& 0x1FF_FFFF else o.lvstart)
            ∧ n.lvfmt = (if k = 2 then w &&& 0xFFFF_FFFF_FFFF else o.lvfmt)
            ∧ n.lvstr0 = (if k = 3 then w else o.lvstr0) ∧ n.lvstr1 = (if k = 4 then w &&& 0xFFFF_FFFF else o.lvstr1)
            ∧ n.lvacc0 = (if k = 5 then w else o.lvacc0) ∧ n.lvacc1 = (if k = 6 then w else o.lvacc1)
            ∧ n.lvev = (if k = 7 then w else o.lvev) ∧ n.lvstat = (if k = 8 then setBit o.lvstat 0 (bit w 0) else o.lvstat)
            ∧ (k = 9 → Tab.get (Config.entropy h) t.lvseed h = w) ∧ (k ≠ 9 → t.lvseed = s.lvseed)
            ∧ fld n.mstatus 15 2 = 3 ∧ n.pc = o.pc + 4 ∧ n.x = (o.setReg rd old).x
            ∧ Only s t { s with harts := t.harts, lvseed := t.lvseed } [])
      ∧ Runs (.xkmlvCsrWrite h (.csr .set (BitVec.ofNat 12 (0x800 + k.val)) rd (some 0)) v) s (fun t =>
          t.hart h = retired o (o.setReg rd old) ∧ OnlyHart s t h)
      ∧ Runs (.xkmlvCsrWrite h (.csr .set 0xCC0 rd (some 0)) v) s (fun t =>
          t.hart h = retired o (o.setReg rd (if 256 ≤ h.val then 0x140_0100_0000 else 0x110_0100_0000)) ∧ OnlyHart s t h))
    ∧ (fld o.mstatus 15 2 = 0 → o.priv = 3 → ∀ op rs1 num, num = BitVec.ofNat 12 (0x800 + k.val) ∨ num = 0xCC0 →
      Runs (.xkmlvCsrWrite h (.csr op num rd rs1) v) s fun t =>
        Trapped s t h 2 ∧ Only s t { s with harts := t.harts, draws := t.draws } [])

/-- An Xkmlv instruction word of the layout of 07 Table 7-5 runs as the row of its code, and one of a code from 13 on is illegal (07 R186). Integer
instructions, also in compressed form, and branches (07 R174, 07 Table 7-1), reads of time and cycle (07 R176), and an instruction of an extension that is
not listed, which is illegal (07 R174); ECALL in M mode. -/
def Sys2Proof.Claims.HartBasics : Prop :=
  ∀ (s : State) (h : Fin 320) (rd rs1 rs2 rs3 : Fin 32) (v : Word), s.hartRuns h = true →
    let o := s.hart h
    (∀ op mk, (op, mk) ∈ elementOps ++ reduceOps → ∀ w, decodeLong w = some (op, rd.val, rs1.val, rs2.val, rs3.val) →
      ∃ t, exec (.xkmlvCsrWrite h (.long w) v) s = .next t ∧ exec (mk h rd rs1 rs2 rs3) s = .next t)
    ∧ (∀ w op, 13 ≤ op → decodeLong w = some (op, rd.val, rs1.val, rs2.val, rs3.val) → o.priv = 3 →
      Runs (.xkmlvCsrWrite h (.long w) v) s fun t => Trapped s t h 2)
    ∧ (∀ op half, Runs (.xkmlvCsrWrite h (.int op half rd rs1 (some rs2)) v) s fun t =>
        t.hart h = retired o (o.setReg rd (intResult op half (o.reg rs1) (o.reg rs2))) ∧ OnlyHart s t h)
    ∧ (∀ op half, Runs (.xkmlvCsrWrite h (.int op half rd rs1 none) v) s fun t =>
        t.hart h = retired o (o.setReg rd (intResult op half (o.reg rs1) v)) ∧ OnlyHart s t h)
    ∧ (∀ op half, hasShortForm (.int op half rd rs1 none) = true → Runs (.xkmlvCsrWrite h (.compressed (.int op half rd rs1 none)) v) s fun t =>
        t.hart h = { retired o (o.setReg rd (intResult op half (o.reg rs1) v)) with pc := o.pc + 2 } ∧ OnlyHart s t h)
    ∧ (∀ op, Runs (.xkmlvCsrWrite h (.branch op rs1 rs2) v) s fun t =>
        t.hart h = { o with pc := if branchTaken op (o.reg rs1) (o.reg rs2) then o.pc + v else o.pc + 4, instret := o.instret + 1 }
          ∧ OnlyHart s t h)
    ∧ (o.priv = 3 →
      (Runs (.xkmlvCsrWrite h (.csr .set 0xC01 rd (some 0)) v) s fun t =>
        t.hart h = retired o (o.setReg rd (BitVec.ofNat 64 s.now)) ∧ OnlyHart s t h)
      ∧ (Runs (.xkmlvCsrWrite h (.csr .set 0xC00 rd (some 0)) v) s fun t =>
        t.hart h = retired o (o.setReg rd (s.hartCycles h)) ∧ OnlyHart s t h)
      ∧ (Runs (.xkmlvCsrWrite h .ecall v) s fun t => Trapped s t h 11 ∧ OnlyHart s t h)
      ∧ Runs (.xkmlvCsrWrite h .unlisted v) s fun t =>
        Trapped s t h 2 ∧ Only s t { s with harts := t.harts, draws := t.draws } [])

/-- A pilot core in M mode with no PMP entry (07 R175, R178). An aligned AMO of eight bytes in live HBM adds and returns the old value, LR
there is an access fault, and a misaligned load of memory an address-misaligned exception. -/
def Sys2Proof.Claims.HartAtomics : Prop :=
  ∀ (s : State) (h : Fin 256) (rd rs1 rs2 : Fin 32) (v : Word),
    let g : Fin 320 := ⟨h.val, by omega⟩
    let o := s.hart h
    let a := (o.reg rs1).toNat
    s.hartRuns h = true → o.priv = 3 → bit o.mstatus 17 = false → (∀ i, i < 18 → Tab.get 0 o.pmp i = 0) →
    (a + 8 ≤ hbmEnd → a % 8 = 0 → s.hbmWaits a 8 = false → s.lostAt a = false → s.linePoison a 8 = false →
      Runs (.xkmlvCsrWrite g (.atomic (.amo 0) true rd rs1 rs2) v) s fun t =>
        t.bytesAt a 8 = leBytes 8 ((leNat (s.bytesAt a 8) + (o.reg rs2).toNat) % 2 ^ 64)
          ∧ (t.hart h).reg rd = (if rd = 0 then 0 else BitVec.ofNat 64 (leNat (s.bytesAt a 8)))
          ∧ (t.hart h).pc = o.pc + 4 ∧ ∀ x, x < a ∨ a + 8 ≤ x → t.byteAt x = s.byteAt x)
    ∧ (a < hbmEnd → Runs (.xkmlvCsrWrite g (.atomic .lr true rd rs1 0) v) s fun t => Trapped s t h 5 ∧ OnlyHart s t h)
    ∧ (isMem (a + v.toNat) = true → a + v.toNat < 2 ^ 47 → (a + v.toNat) % 8 ≠ 0 →
      Runs (.xkmlvCsrWrite g (.load 3 true false rd rs1) v) s fun t => Trapped s t h 4 ∧ OnlyHart s t h)

/-- Scalar floating point with FS on and a legal rounding mode (07 R174, R181). An operation in single precision, and in double on a PD hart, writes its
boxed result and accrues its flags in fcsr; in double on a pilot core in M mode it is illegal. -/
def Sys2Proof.Claims.HartFloats : Prop :=
  ∀ (s : State) (h : Fin 320) (op : FpOp) (double : Bool) (rm : Fin 8) (rd rs1 rs2 rs3 : Fin 32) (v : Word), s.hartRuns h = true →
    (s.hart h).fsOn = true → rm.val < 5 →
    let o := s.hart h
    let f := if double then binary64 else binary32
    let r := fpOpResult op f rm.val (unboxed f (Tab.get 0 o.f rs1.val)) (unboxed f (Tab.get 0 o.f rs2.val)) (unboxed f (Tab.get 0 o.f rs3.val))
    (op ≠ .eq → op ≠ .lt → op ≠ .le → (double = true → 256 ≤ h.val) →
      Runs (.xkmlvCsrWrite h (.fp op double rm rd rs1 rs2 rs3) v) s fun t =>
        t.hart h = retired o { o.accrue r.flags with f := Tab.set 0 o.f rd.val (boxed f.size r.code) } ∧ OnlyHart s t h)
    ∧ (double = true → h.val < 256 → o.priv = 3 →
      Runs (.xkmlvCsrWrite h (.fp op double rm rd rs1 rs2 rs3) v) s fun t =>
        Trapped s t h 2 ∧ Only s t { s with harts := t.harts, draws := t.draws } [])

/-- The short vectors (07 R179, R180, R182). A vsetvl of a supported vtype sets vl to at most VLMAX, and one that is not supported sets vill and vl
to 0. A saturating add of one element of the full range clips and notes vxsat. A load whose first element traps leaves its index in vstart. -/
def Sys2Proof.Claims.HartVectors : Prop :=
  ∀ (s : State) (h : Fin 320) (rd rs1 rs2 : Fin 32) (v vtype : Word), s.hartRuns h = true → (s.hart h).vsOn = true →
    let o := s.hart h
    let w := sewOf o.vtype
    (rs1 ≠ 0 → Runs (.xkmlvCsrWrite h (.vset rd (some rs1) vtype) v) s fun t =>
      let vl := if vtypeOk vtype then BitVec.ofNat 64 (min (o.reg rs1).toNat (vlMax (vlenOf h) vtype)) else 0
      t.hart h = retired o
          ({ o with vl := vl, vtype := if vtypeOk vtype then vtype else BitVec.ofNat 64 (2 ^ 63), vstart := 0
                    mstatus := dirtyVs o.mstatus }.setReg rd vl) ∧ OnlyHart s t h)
    ∧ (o.vecIllegal .sadd false rd (.vec rs1) rs2 = false → o.vl = 1 → o.vstart = 0 → w ≤ 64 →
      Runs (.xkmlvCsrWrite h (.vec .sadd false rd (.vec rs1) rs2) v) s fun t =>
        let sum := toSigned w (o.velem (vlenOf h) rs2 w 0) + toSigned w (o.velem (vlenOf h) rs1 w 0)
        let lim : Int := (2 ^ (w - 1) : Nat)
        toSigned w ((t.hart h).velem (vlenOf h) rd w 0) = max (-lim) (min (lim - 1) sum)
          ∧ bit (t.hart h).vcsr 0 = (bit o.vcsr 0 || decide (sum < -lim) || decide (lim ≤ sum))
          ∧ (t.hart h).pc = o.pc + 4 ∧ OnlyHart s t h)
    ∧ (∀ c, o.priv = 3 → bit o.vtype 63 = false → 64 * lmul8 o.vtype / w ≠ 0 → groupOk (64 * lmul8 o.vtype / w) rd = true →
      o.vstart = 0 → o.vl ≠ 0 → s.scalarLoad h (o.reg rs1).toNat 8 = .error c → c ≠ mustWait →
      Runs (.xkmlvCsrWrite h (.vmem false 3 false rd rs1 none) v) s fun t =>
        Trapped s t h c ∧ (t.hart h).vstart = 0 ∧ (t.hart h).mtval = o.reg rs1 ∧ OnlyHart s t h)

/-- The cache-block operations of a PD hart that may use them, at a block of live HBM that no access
waits for (07 R183). A dirty block's bytes are what HBM holds after CBO_CLEAN and CBO_FLUSH; CBO_CLEAN keeps the block, CBO_FLUSH and CBO_INVAL drop it, CBO_INVAL with HBM unchanged; CBO_ZERO leaves a block of zeros. Where the spec leaves a point open it follows the model's choices of log entries 10 and 60. -/
def Obligations.CacheBlockOperations : Prop :=
  ∀ (s : State) (i : Fin 64) (va : Word) (a : Nat),
    let h := 256 + i.val
    let k := a / 64
    s.hartRuns h = true → a < hbmEnd → s.hbmWaits a 64 = false → Live s (64 * k) 64 →
    let held := (s.block k).valid = true ∧ (s.block k).dirty = true ∧ (s.block k).data.length = 64
    let written := fun (t : State) =>
      t.bytesAt (64 * k) 64 = (s.block k).data ∧ (∀ x, x < 64 * k ∨ 64 * k + 64 ≤ x → t.byteAt x = s.byteAt x)
    (held → (s.hart h).cboEnabled (fun w => bit w 6) = true → s.cboTarget h va.toNat false = .ok a →
      (Runs (.cboClean i va) s fun t =>
        written t ∧ t.block k = { s.block k with dirty := false } ∧ (t.hart h).pc = (s.hart h).pc + 4)
      ∧ (Runs (.cboFlush i va) s fun t => written t ∧ t.block k = {} ∧ (t.hart h).pc = (s.hart h).pc + 4))
    ∧ ((s.hart h).cboEnabled (fun w => fld w 4 2 != 0) = true → s.cboTarget h va.toNat false = .ok a →
      (Runs (.cboInval i va) s fun t =>
        t.block k = {} ∧ (t.hart h).pc = (s.hart h).pc + 4
          ∧ ((s.hart h).cboFlushes = false → Only s t { s with caches := t.caches, harts := t.harts } [])
          ∧ ((s.hart h).cboFlushes = true → held → written t)))
    ∧ ((s.hart h).cboEnabled (fun w => bit w 7) = true → s.cboTarget h va.toNat true = .ok a →
      Runs (.cboZero i va) s fun t =>
        t.block k = { dirty := true, valid := true } ∧ (t.hart h).pc = (s.hart h).pc + 4
          ∧ Only s t { s with caches := t.caches, harts := t.harts } [])

/-- Xkmlv instructions on one element. Where the spec leaves a point open it follows the model's choices of log entry 62. -/
def Obligations.LongVectorArithmetic : Prop :=
  Claims.LongVectorElement ∧ Claims.LongVectorReduction ∧ Claims.LongVectorSumOfOne

/-- Xkmlv exceptions, interruption and CSR writes. Where the spec leaves a point open it follows the model's choices of log entries 10, 40 and 64. -/
def Obligations.LongVectorExceptions : Prop :=
  Claims.LongVectorRefused ∧ Claims.LongVectorInterrupted ∧ Claims.LongVectorCsrWrite

/-- Standard instructions of the harts: words, integers, CSRs, traps, atomics, floats and short vectors. Where the spec leaves a point open it follows the model's choices of log entries 10 and 64. -/
def Obligations.HartInstructions : Prop :=
  Claims.HartBasics ∧ Claims.HartAtomics ∧ Claims.HartFloats ∧ Claims.HartVectors

/-! ## The solver engine (08) -/

/-- The core works on a solver batch whose status word and control line stand in live HBM, and no access to them or to its result records waits
at a channel (10 R263). -/
def Sys2Proof.Claims.Works (s : State) (c : Nat) (x : Running) : Prop :=
  s.coreRuns c = true ∧ s.svDesc c = some x ∧ Live s (svStatus x.desc) 128 ∧ s.batchWaits x.desc 0 0 = false

/-- SV_BATCH_START (08 R206, R213): a core fixes the lanes of a batch that it does not refuse; where another core has swapped ADMIT_GATE it waits
until ADMITTED is set. A batch that it refuses halts the queue with the status of R209, where no other descriptor is ahead. -/
def Sys2Proof.Claims.SvBatchStarts : Prop :=
  ∀ (s : State) (c : Fin 256) (x : Running), Works s c x → (s.svRun c).lanes = 0 → (s.queue c 3).halted = none →
    (s.queue c 3).again = none →
    (s.svRefusal c x = 0 → s.ctl x.desc 28 4 ≠ 0 →
      let l := svLanes (svMethod x.desc) (svN x.desc) (svNnz x.desc) (s.svBytes c) (svOverlap x.desc) (svLanesMax x.desc)
      Runs (.svBatchStart c) s fun t =>
        t.svRun c = { lanes := l.1, overlap := l.2, waiting := !s.stFlag x.desc 0 } ∧ t.ctl x.desc 28 4 = 1
          ∧ t.queues = s.queues ∧ t.work = s.work)
    ∧ (s.svRefusal c x = 0 → s.ctl x.desc 28 4 = 0 → svDeadline x.desc = 0 →
      Runs (.svBatchStart c) s fun t =>
        (t.svRun c).lanes = (svLanes (svMethod x.desc) (svN x.desc) (svNnz x.desc) (s.svBytes c) (svOverlap x.desc) (svLanesMax x.desc)).1
          ∧ t.stFlag x.desc 0 = true ∧ t.admitLimit x.desc = svCount x.desc ∧ t.ctl x.desc 28 4 = 1 ∧ t.work = s.work)
    ∧ (s.svRefusal c x ≠ 0 → (s.queue c 3).running.head? = some x →
      Runs (.svBatchStart c) s fun t =>
        t.queueState c 3 = 3 ∧ t.fldAt (.core c) (qOff 3 0x120) 8 8 = s.svRefusal c x ∧ t.svRun c = s.svRun c)

/-- SEGMENT_CLAIM (08 R206, R213): with no move asked, a core that holds no segment, or with OVERLAP only one, takes the next L problems below
ADMIT_LIMIT, once no access to their records waits, and CLAIM_NEXT passes them; the one it holds stays. -/
def Sys2Proof.Claims.SegmentClaimed : Prop :=
  ∀ (s : State) (c : Fin 256) (x : Running), Works s c x → s.coreState c = 0 → (s.svRun c).lanes ≠ 0 →
    (s.svRun c).waiting = false → (s.svRun c).noMore = false → s.ctl x.desc 16 8 = 0 →
    let old := s.ctl x.desc 0 8
    let n := min (s.svRun c).lanes (s.admitLimit x.desc - old)
    old < s.admitLimit x.desc → s.batchWaits x.desc old (old + n) = false →
    let claimed := fun (t : State) =>
      (t.svRun c).holding = true ∧ (t.svRun c).lanes = (s.svRun c).lanes
        ∧ t.ctl x.desc 0 8 = (old + (s.svRun c).lanes) % 2 ^ 64 ∧ t.queues = s.queues ∧ t.work = s.work
    ((s.svRun c).holding = false →
      Runs (.segmentClaim c) s fun t => claimed t ∧ (t.svRun c).first = old ∧ (t.svRun c).segment.length = n)
    ∧ ((s.svRun c).holding = true → (s.svRun c).overlap = true → (s.svRun c).ahead = none →
      Runs (.segmentClaim c) s fun t => claimed t ∧ (t.svRun c).first = (s.svRun c).first ∧ (t.svRun c).segment = (s.svRun c).segment
        ∧ ∃ a, (t.svRun c).ahead = some a ∧ a.first = old ∧ a.segment.length = n)

/-- SEGMENT_COMPLETE (08 R206, R222–R224): where no access to its records waits, the segment held is over, the one claimed ahead of it, if any, is held
in its place, and the queue still runs the batch. STOP_MARK (08 R229): once the tide
has reached the stop mark the problems whose promise stands are left as they are, and the segment is not cut again. -/
def Sys2Proof.Claims.SegmentEnds : Prop :=
  (∀ (s : State) (c : Fin 256) (x : Running), Works s c x → (s.svRun c).holding = true →
    s.batchWaits x.desc (s.svRun c).first ((s.svRun c).first + (s.svRun c).segment.length) = false →
    Runs (.segmentComplete c) s fun t =>
      (match (s.svRun c).ahead with
        | none => (t.svRun c).holding = false ∧ (t.svRun c).segment = []
        | some a => (t.svRun c).holding = true ∧ (t.svRun c).first = a.first ∧ (t.svRun c).segment.length = a.segment.length)
        ∧ (t.svRun c).ahead = none ∧ (t.svRun c).lanes = (s.svRun c).lanes
        ∧ ((s.svRun c).segment.any (·.poison) = true → (t.svRun c).poison = true) ∧ t.queues = s.queues ∧ t.harts = s.harts)
  ∧ (∀ (s : State) (c : Fin 256) (x : Running) (m : Nat), Works s c x → (s.svRun c).holding = true → (s.svRun c).stopped = false →
    s.stopMarkAt x.desc (s.svRun c).lanes = some m → m ≤ s.now →
    Runs (.stopMark c) s fun t =>
      (t.svRun c).stopped = true ∧ (t.svRun c).segment.length = (s.svRun c).segment.length
        ∧ (∀ k, s.promised x.desc ((s.svRun c).first + k) = true → (t.svRun c).segment[k]? = (s.svRun c).segment[k]?)
        ∧ Only s t { s with solvers := t.solvers, draws := t.draws } [])

/-- MOVE_REQ_POLL (08 R230): a MOVE_REQ earlier than DEADLINE_EFF becomes DEADLINE_EFF, for the admitted work too; a later one changes nothing. -/
def Sys2Proof.Claims.MoveRequestPolled : Prop :=
  ∀ (s : State) (c : Fin 256) (x : Running), Works s c x → (s.svRun c).lanes ≠ 0 →
    let req := s.ctl x.desc 16 8
    (req ≠ 0 → req < s.ctl x.desc 8 8 →
      Runs (.moveReqPoll c) s fun t =>
        t.ctl x.desc 8 8 = req ∧ (∀ w ∈ t.work, w.status = svStatus x.desc → w.deadline = req)
          ∧ t.queues = s.queues ∧ t.solvers = s.solvers)
    ∧ (req = 0 ∨ s.ctl x.desc 8 8 ≤ req → Runs (.moveReqPoll c) s fun t => t = s)

/-- SV_QUERY_WRITE (08 R206) gives its answer at once; one that carries a reserved METHOD is discarded with CFG_REJECT (00 R17). RING_TAIL_WRITE (08 R212): a tail that does not overfill the ring is taken, otherwise only
TAIL_REJECT is set. -/
def Sys2Proof.Claims.SolverRegisterWrites : Prop :=
  (∀ (s : State) (c : Fin 256) (wide high : Bool) (v : Word),
    let q := (mergeHalf (s.reg (.sv c) 0x10) wide high v).toNat &&& 0x3FFF_07FF_001F
    let reserved := (wide = true ∨ high = false) ∧ (bits q 0 4 = 0 ∨ 8 ≤ bits q 0 4)
    (¬ reserved → Runs (.svQueryWrite c wide high v) s fun t =>
      t.regN (.sv c) 0x10 = q ∧ t.regN (.sv c) 0x18 = s.queryAnswer c q % 2 ^ 64
        ∧ Only s t { s with regs := t.regs, answer := t.answer } [at_ (.sv c) 0x10, at_ (.sv c) 0x18])
    ∧ (reserved → Runs (.svQueryWrite c wide high v) s fun t =>
      bit (t.getReg (rejectAddr (.sv c))) 0 = true ∧ Only s t { s with regs := t.regs, answer := t.answer } [rejectAddr (.sv c)]))
  ∧ (∀ (s : State) (die : Fin 4) (ring : Fin 8) (v : Word),
    ((v.toNat % 65536 + 65536 - s.ringIdx die ring 0x120) % 65536 ≤ s.svRingSize die ring →
      Runs (.ringTailWrite die ring v) s fun t =>
        t.ringIdx die ring 0x110 = v.toNat % 65536
          ∧ Only s t { s with regs := t.regs, answer := t.answer } [at_ (.svd die) (ringOff ring 0x110)])
    ∧ (s.svRingSize die ring < (v.toNat % 65536 + 65536 - s.ringIdx die ring 0x120) % 65536 →
      Runs (.ringTailWrite die ring v) s fun t =>
        t.bitAt (.svd die) (ringOff ring 0x128) 2 = true
          ∧ Only s t { s with regs := t.regs, answer := t.answer } [at_ (.svd die) (ringOff ring 0x128)]))

/-- DISPATCHER_ENTER (08 R212): the head slot of a ring, where no access to it waits, is taken: CREW_K is the number of ONLINE crew cores, and the descriptor stands in the queue of
each that has room, the others being waited for. -/
def Sys2Proof.Claims.DispatcherEntersCrew : Prop :=
  ∀ (s : State) (die : Fin 4) (ring : Fin 8), s.safe = false → s.power.depth < 2 → Tab.get [] (s.dispatcher die).slots ring = [] →
    s.svRingSize die ring ≠ 0 → s.ringIdx die ring 0x118 ≠ s.ringIdx die ring 0x110 →
    s.slotWaits die ring = false →
    let a := s.ringHeadAddr die ring
    let d := (s.memRead a 128).data
    let crew := s.onlineCrew die d
    Live s (svStatus d) 128 →
    Runs (.dispatcherEnter die ring) s fun t =>
      t.ctl d 24 4 = crew.length
        ∧ (∃ x, Tab.get [] (t.dispatcher die).slots ring = [x] ∧ x.desc = d ∧ x.addr = a ∧ x.complete = false
            ∧ (∀ c, c ∈ crew ↔ c ∈ x.entered ∨ c ∈ x.waiting)
            ∧ (∀ c ∈ x.entered, (t.queue c 3).chains = (s.queue c 3).chains ++ [{ addr := a, dispatcher := true }])
            ∧ (x.waiting = [] → t.ringIdx die ring 0x118 = (s.ringIdx die ring 0x118 + 1) % 65536))

/-- DISPATCHER_CLOSE (08 R233): of an admitted batch whose problems are all claimed, where no access to it waits, the dispatcher drops
its hand-over; of one with problems left, it
ends them ABORTED and sets COMPLETE. BATCH_REFUSED (08 R233): a slot that every crew core refused retires without COMPLETE, and REFUSED is set. -/
def Sys2Proof.Claims.DispatcherEndsBatches : Prop :=
  (∀ (s : State) (die : Fin 4) (d : List Byte) (rest : List (List Byte)), (s.dispatcher die).closes = d :: rest → s.safe = false →
    s.batchWaits d 0 0 = false → Live s (svStatus d) 128 → s.stFlag d 0 = true →
    (s.admitLimit d ≤ s.ctl d 0 8 →
      Runs (.dispatcherClose die) s fun t => (t.dispatcher die).closes = rest ∧ t.work = s.work ∧ t.adds = s.adds)
    ∧ (s.ctl d 0 8 < s.admitLimit d →
      Runs (.dispatcherClose die) s fun t =>
        (t.dispatcher die).closes = rest ∧ t.work = s.work.filter (fun w => w.status != svStatus d)
          ∧ t.adds = s.adds ++ (if (svTrig d).testBit 31 then [{ counter := svTrig d % 2 ^ 17, inc := svTrigInc d, source := 1 }] else [])))
  ∧ (∀ (s : State) (die : Fin 4) (ring : Fin 8) (x : SolverSlot) (xs : List SolverSlot),
    Tab.get [] (s.dispatcher die).slots ring = x :: xs → svMalformed x.desc = true → x.waiting = [] →
    (∀ c ∈ x.entered, c ∈ x.refused) → x.complete = false →
    Runs (.batchRefused die ring) s fun t =>
      t.bitAt (.svd die) (ringOff ring 0x128) 3 = true
        ∧ (∃ n, 1 ≤ n ∧ Tab.get [] (t.dispatcher die).slots ring = (x :: xs).drop n
            ∧ t.ringIdx die ring 0x120 = (s.ringIdx die ring 0x120 + n) % 65536)
        ∧ Only s t { s with regs := t.regs, dispatch := t.dispatch }
            [at_ (.svd die) (ringOff ring 0x120), at_ (.svd die) (ringOff ring 0x128)])

/-- Solver batches, segments and the deadline moves. Where the spec leaves a point open it follows the model's choices of log entries 31, 39 and 75. -/
def Obligations.SolverBatches : Prop :=
  Claims.SvBatchStarts ∧ Claims.SegmentClaimed ∧ Claims.SegmentEnds ∧ Claims.MoveRequestPolled

/-- Solver rings and the dispatchers. Where the spec leaves a point open it follows the model's choices of log entry 39. -/
def Obligations.SolverDispatch : Prop :=
  Claims.SolverRegisterWrites ∧ Claims.DispatcherEntersCrew ∧ Claims.DispatcherEndsBatches

/-! ## HBM (10) -/

/-- The table in force gives every region a place of its own (10 R249, R250): the whole SPREAD part is filled evenly, and no two regions share a
place. -/
def Sys2Proof.Claims.TableValid (s : State) : Prop :=
  s.spreadCount % 12 = 0
    ∧ (∀ r, r < 288 → bit (s.reg .regionTable (0x1000 + 8 * r)) 0 = true → fld (s.reg .regionTable (0x1000 + 8 * r)) 8 9 < s.spreadCount)
    ∧ ∀ r q, r < 288 → q < 288 →
        let e := s.reg .regionTable (0x1000 + 8 * r)
        let f := s.reg .regionTable (0x1000 + 8 * q)
        bit e 0 = bit f 0 → (bit e 0 = true ∨ fld e 2 2 = fld f 2 2) → fld e 8 9 = fld f 8 9 → r = q

/-- The channel function is one to one (10 R252): under a valid table the channel and channel-local address of an HBM address lead back to that
address alone. -/
def Obligations.ChannelFunctionInverse : Prop :=
  ∀ (s : State) (a : Nat), TableValid s → a < hbmEnd → s.hbmAddress (s.decodeHbm a).1 (s.decodeHbm a).2 = some a

/-- The region table right after reset is valid (10 R250): no region is SPREAD. -/
def Obligations.ResetTableValid : Prop := TableValid State.reset ∧ State.reset.spreadCount = 0

/-- An HBM access that a controller serves at once: within HBM, no region table waiting, no channel of it HELD or at the boundary of a commit
(10 R251, R259, R263). -/
def Sys2Proof.Claims.Served (s : State) (a n : Nat) : Prop :=
  n ≠ 0 ∧ a + n ≤ hbmEnd ∧ s.hbmWaits a n = false

/-- The way of an access that meets no wrong symbol, in one of the two classes (10 R255). -/
def Sys2Proof.Claims.clean (high : Bool) : HbmWay := { high := high }

/-- HBM_READ with clean sectors of channels that serve it (10 R261): the bytes, poisoned where a sector is. At FENCED or ISOLATED channels alone: all
ones, poisoned, and HBM_LOST is raised (10 R263). -/
def Sys2Proof.Claims.HbmReadDelivers : Prop :=
  ∀ (s : State) (a n : Nat) (hi : Bool), Served s a n →
    ((∀ x, a ≤ x → x < a + n → s.lostAt x = false) →
      Runs (.hbmRead a n (Claims.clean hi)) s fun t =>
        t.answer = { status := 0, data := s.bytesAt a n, poison := s.poisonIn a n } ∧ OnlyRead s t { s with answer := t.answer } [])
    ∧ ((∀ x, a ≤ x → x < a + n → s.lostAt x = true) →
      Runs (.hbmRead a n (Claims.clean hi)) s fun t =>
        t.answer = { status := 0, data := List.replicate n 0xFF, poison := true }
          ∧ t.reports = s.reports ++
              [{ source := 0x03, domain := none, detail := hbmDetail (s.decodeHbm a).1 (s.decodeHbm a).2, tide := s.now }]
          ∧ Only s t { s with reports := t.reports, answer := t.answer } [])

/-- HBM_READ of one sector (10 R260, R261): one wrong symbol is corrected, counts in CH_CE and raises HBM_CE, with the data delivered; two are
detected, count in CH_UE, raise HBM_UE and deliver poison. Memory does not change. -/
def Sys2Proof.Claims.HbmReadErrors : Prop :=
  ∀ (s : State) (a n : Nat) (hi : Bool) (i j : Fin 36) (e f : BitVec 8), Served s a n → e ≠ 0 → f ≠ 0 → i ≠ j → a % 32 + n ≤ 32 → s.lostAt a = false → s.poisonAt a = false →
    let ch := (s.decodeHbm (a / 32 * 32)).1
    let g := groupOf ch
    (Runs (.hbmRead a n { high := hi, errors := [[(i, e)]] }) s fun t =>
      t.answer = { status := 0, data := s.bytesAt a n, poison := false }
        ∧ t.fldAt g (chOff ch 0x108) 0 32 = min (s.fldAt g (chOff ch 0x108) 0 32 + 1) 0xFFFF_FFFF
        ∧ t.reports.map (·.source) = s.reports.map (·.source) ++ [0x01]
        ∧ OnlyRead s t { s with reports := t.reports, life := t.life, answer := t.answer } [at_ g (chOff ch 0x108)])
    ∧ (Runs (.hbmRead a n { high := hi, errors := [[(i, e), (j, f)]] }) s fun t =>
      t.answer.poison = true ∧ t.answer.data.length = n
        ∧ t.fldAt g (chOff ch 0x110) 0 32 = min (s.fldAt g (chOff ch 0x110) 0 32 + 1) 0xFFFF_FFFF
        ∧ t.bitAt g (chOff ch 0x118) 63 = true
        ∧ t.reports.map (·.source) = s.reports.map (·.source) ++ [0x02]
        ∧ OnlyRead s t { s with reports := t.reports, life := t.life, draws := t.draws, answer := t.answer }
            [at_ g (chOff ch 0x110), at_ g (chOff ch 0x118)])

/-- HBM_WRITE at channels that serve it (10 R261): the bytes are stored, whole sectors of unpoisoned data lose their poison, poisoned data marks every
sector it touches, and no other byte changes. At lost channels nothing is stored (10 R263). -/
def Sys2Proof.Claims.HbmWriteStores : Prop :=
  ∀ (s : State) (a : Nat) (data : List Byte) (poison hi : Bool), Served s a data.length →
    ((∀ x, a ≤ x → x < a + data.length → s.lostAt x = false) →
      Runs (.hbmWrite a data poison (Claims.clean hi)) s fun t =>
        t.bytesAt a data.length = data ∧ (∀ x, x < a ∨ a + data.length ≤ x → t.byteAt x = s.byteAt x)
          ∧ (∀ x, a ≤ x → x < a + data.length → poison = true → t.poisonAt x = true)
          ∧ (∀ x, a ≤ x / 32 * 32 → x / 32 * 32 + 32 ≤ a + data.length → poison = false → t.poisonAt x = false)
          ∧ t.answer = { status := 0 }
          ∧ t = { s with mem := t.mem, poison := t.poison, regs := t.regs, channels := t.channels, reports := t.reports, answer := t.answer })
    ∧ ((∀ x, a ≤ x → x < a + data.length → s.lostAt x = true) →
      Runs (.hbmWrite a data poison (Claims.clean hi)) s fun t =>
        t.poison = s.poison ∧ Only s t { s with reports := t.reports, answer := t.answer } [])

/-- HBM_READ and HBM_WRITE wait (10 R251, R263): at the decoders while a region table waits for its boundary, and at a channel that takes
none now while fewer than 64 accesses wait for its pseudo-channel; a further one is not taken. Nothing is read or stored yet. -/
def Sys2Proof.Claims.HbmAccessWaits : Prop :=
  ∀ (s : State) (a n : Nat) (data : List Byte) (poison : Bool) (way : HbmWay), n ≠ 0 → a + n ≤ hbmEnd → data.length = n →
    let r : HeldAccess := { write := false, addr := a, bytes := n, high := way.high, errors := way.errors }
    let w : HeldAccess := { write := true, addr := a, bytes := n, data := data, poison := poison, high := way.high, errors := way.errors }
    (s.commitPending .regionTable = true →
      (Runs (.hbmRead a n way) s fun t => t.atDecoder = s.atDecoder ++ [r]
          ∧ Only s t { s with atDecoder := t.atDecoder, answer := t.answer } [])
      ∧ (Runs (.hbmWrite a data poison way) s fun t => t.atDecoder = s.atDecoder ++ [w]
          ∧ Only s t { s with atDecoder := t.atDecoder, answer := t.answer } []))
    ∧ (∀ ch, s.commitPending .regionTable = false → s.heldOn r = some ch → s.heldFull ch r = true →
      (Runs (.hbmRead a n way) s fun t => t = s.answers 5) ∧ (Runs (.hbmWrite a data poison way) s fun t => t = s.answers 5))
    ∧ (∀ ch, s.commitPending .regionTable = false → s.heldOn r = some ch → s.heldFull ch r = false →
      (Runs (.hbmRead a n way) s fun t => (t.channel ch).held = (s.channel ch).held ++ [r]
          ∧ Only s t { s with channels := t.channels, answer := t.answer } [])
      ∧ (Runs (.hbmWrite a data poison way) s fun t => (t.channel ch).held = (s.channel ch).held ++ [w]
          ∧ Only s t { s with channels := t.channels, answer := t.answer } []))

/-- REFRESH (10 R258) counts one refresh of the channel. PATROL_SCRUB (10 R262): the scrubber passes one sector; one with two wrong symbols that is not yet
poisoned is marked poisoned. -/
def Sys2Proof.Claims.RefreshAndScrub : Prop :=
  (∀ (s : State) (ch : Fin 192), s.power.depth < 2 →
    Runs (.refresh ch) s fun t =>
      (t.channel ch).refreshes = (s.channel ch).refreshes + 1 ∧ (∀ k, k ≠ ch.val → t.channel k = s.channel k)
        ∧ Only s t { s with channels := t.channels } [])
  ∧ (∀ (s : State) (ch : Fin 192) (e : SectorErrors), s.chState ch = 0 → fld (s.mcCfg ch) 8 8 ≠ 0 → s.power.depth < 2 →
    Runs (.patrolScrub ch e) s fun t =>
      (t.channel ch).scrub = ((s.channel ch).scrub + 32) % 0x6000_0000 ∧ (symbolErrors e ≤ 2 → SameBytes s t)
        ∧ (∀ a, s.hbmAddress ch (s.channel ch).scrub = some a → symbolErrors e = 2 → s.lostAt a = false → s.poisonAt a = false →
            t.poisonAt a = true))

/-- The retraining of a channel (10 R266): CHANNEL_RETRAIN_START at the start mark holds it; CHANNEL_RETRAIN_END returns it to ACTIVE, or fences it with
HBM_PHY where the check failed. -/
def Sys2Proof.Claims.ChannelRetraining : Prop :=
  (∀ (s : State) (ch : Fin 192), s.chState ch = 0 → (s.retrainDue ch).isSome = true →
    Runs (.channelRetrainStart ch) s fun t => t.chState ch = 1 ∧ (t.channel ch).heldFrom = s.now
      ∧ t = { s with regs := t.regs, channels := t.channels })
  ∧ (∀ (s : State) (ch : Fin 192), s.chState ch = 1 → (s.channel ch).held = [] → s.retrainDue ch = none →
    (Runs (.channelRetrainEnd ch true) s fun t => t.chState ch = 0 ∧ SameBytes s t)
    ∧ (Runs (.channelRetrainEnd ch false) s fun t =>
        t.chState ch = 3
          ∧ t.reports = s.reports ++ [{ source := 0x06, domain := some (256 + ch), detail := hbmDetail ch 0, tide := s.now }]
          ∧ SameBytes s t))

/-- CHANNEL_REFILL_DONE (10 R267, 15 R415): the channel of a domain in SELFTEST that has not recovered too often is ACTIVE, its REFILL is over, its domain is
NORMAL, and every sector of it that no later mark names reads as poisoned. -/
def Sys2Proof.Claims.ChannelRefilled : Prop :=
  ∀ (s : State) (ch : Fin 192), s.bitAt (groupOf ch) (chOff ch 0x100) 2 = true → s.domainState (256 + ch) = 2 → s.domainState 467 = 0 →
    s.fldAt .hub (fdOff (256 + ch) 0) 32 8 + 1 ≤ s.recLimit (256 + ch) → 1 ≤ s.recLimit (256 + ch) → s.harbour.longOps = [] →
    Runs (.channelRefillDone ch) s fun t =>
      t.chState ch = 0 ∧ t.bitAt (groupOf ch) (chOff ch 0x100) 2 = false ∧ t.domainState (256 + ch) = 0
        ∧ (∀ a, a < hbmEnd → (t.decodeHbm (poisonUnit a)).1 = ch.val → t.poisonAt a = true) ∧ SameBytes s t

/-- The traffic generator of a channel (10 R268–R270). GO of a legal run starts it in an ISOLATED channel; in any other state of the channel, with
a reserved PATTERN, or with START above END, it sets CFG_REJECT. ABORT stops a running one; TG_DONE ends one, with all its passes done where
STOP_ON_ERR is 0, and with no error and no byte changed in a READ_ECC run that meets no wrong symbol. No byte of another channel changes. -/
def Sys2Proof.Claims.TrafficGenerator : Prop :=
  ∀ (s : State) (ch : Fin 192),
    let g := groupOf ch
    let reg := fun off => s.reg g (tgOff ch off)
    let others := fun (t : State) =>
      (∀ a, (a < hbmEnd → (s.decodeHbm a).1 ≠ ch.val) → t.byteAt a = s.byteAt a)
        ∧ t = { s with regs := t.regs, mem := t.mem, poison := t.poison, channels := t.channels, draws := t.draws, reports := t.reports
                       answer := t.answer }
    (∀ v : Word, s.tgState ch ≠ 1 →
      (fld v 1 3 ≤ 4 → s.chState ch = 2 → fld (reg 0x1008) 0 31 ≤ fld (reg 0x1010) 0 31 →
        Runs (.go ch v) s fun t =>
          t.tgState ch = 1 ∧ t.bitAt g (tgOff ch 0x1000) 0 = true ∧ t.reg g (tgOff ch 0x1030) = 0
            ∧ Only s t { s with regs := t.regs, answer := t.answer }
                [at_ g (tgOff ch 0x1000), at_ g (tgOff ch 0x1028), at_ g (tgOff ch 0x1030), at_ g (tgOff ch 0x1038)])
      ∧ (4 < fld v 1 3 ∨ s.chState ch ≠ 2 ∨ fld (reg 0x1010) 0 31 < fld (reg 0x1008) 0 31 →
        Runs (.go ch v) s fun t =>
          bit (t.getReg (rejectAddr g)) 0 = true ∧ Only s t { s with regs := t.regs, answer := t.answer } [rejectAddr g]))
    ∧ (s.tgState ch = 1 → fld (reg 0x1008) 0 8 = 0 →
      (Runs (.abort ch) s fun t => t.tgState ch = 3 ∧ t.bitAt g (tgOff ch 0x1000) 0 = false ∧ others t)
      ∧ (∀ faults order, Runs (.tgDone ch faults order) s fun t =>
          t.tgState ch = 2 ∧ t.bitAt g (tgOff ch 0x1000) 0 = false ∧ others t
            ∧ (bit (reg 0x1000) 5 = false →
                t.fldAt g (tgOff ch 0x1028) 8 8 = if fld (reg 0x1000) 8 8 = 0 then 1 else fld (reg 0x1000) 8 8)
            ∧ (fld (reg 0x1000) 1 3 = 4 → faults = [] → t.fldAt g (tgOff ch 0x1028) 32 32 = 0 ∧ SameBytes s t)))

/-- COMMIT_BOUNDARY of the region table (10 R251): the captured entries and SPREAD_COUNT are in force; where the number of SPREAD regions stays, the
contents of every region whose entry stays are as before. Where the spec leaves a point open it follows the model's choices of log entry 31. -/
def Obligations.RegionTableCommit : Prop :=
  ∀ (s : State) (a off : Nat), blockAt a = some (.regionTable, off) → s.commitPending .regionTable = true → s.atBoundary .regionTable = true →
    s.atDecoder = [] →
    let vs := (Tab.get (0, []) s.commits (commitAddr .regionTable)).2
    (vs.map (·.1)).Nodup → (∀ e ∈ vs, ∃ r, r < 288 ∧ e.1 = at_ .regionTable (0x1000 + 8 * r)) →
    Runs (.commitBoundary a) s fun t =>
      t.commitPending .regionTable = false ∧ (∀ e ∈ vs, t.getReg e.1 = e.2)
        ∧ t.spreadCount = ((List.range 288).filter fun r => t.bitAt .regionTable (0x1000 + 8 * r) 0).length
        ∧ (t.spreadCount = s.spreadCount → ∀ x,
            (hbmEnd ≤ x ∨ t.reg .regionTable (0x1000 + 8 * (x / 2 ^ 30)) = s.reg .regionTable (0x1000 + 8 * (x / 2 ^ 30))) →
            t.byteAt x = s.byteAt x)

/-- Poison of a well or cistern line (04 R511): a write of poisoned data marks the whole line, a write of the whole line with unpoisoned data clears it, and a write of less
leaves it as it was; the bytes are written in every case, no other byte or line changes, and a read of any byte of a poisoned line reads as poisoned. -/
def Obligations.PoisonedLines : Prop :=
  ∀ (s : State) (a : Nat) (bs : List Byte) (p : Bool), hbmEnd ≤ a → bs ≠ [] → a % 64 + bs.length ≤ 64 → s.reachable a bs.length = true →
    let t := s.memWrite a bs p
    (p = true → t.poisonAt a = true) ∧ (p = false → bs.length = 64 → t.poisonAt a = false)
      ∧ (p = false → bs.length < 64 → t.poisonAt a = s.poisonAt a)
      ∧ (∀ i, i < bs.length → t.byteAt (a + i) = bs.getD i 0) ∧ (∀ x, x < a ∨ a + bs.length ≤ x → t.byteAt x = s.byteAt x)
      ∧ (∀ x, hbmEnd ≤ x → x / 64 ≠ a / 64 → t.poisonAt x = s.poisonAt x)
      ∧ (∀ x k, x / 64 = a / 64 → k ≠ 0 → x % 64 + k ≤ 64 → t.reachable x k = true → (t.memRead x k).poison = t.poisonAt x)

/-- HBM reads: data, poison, errors and lost channels. Where the spec leaves a point open it follows the model's choices of log entries 31, 32 and 78. -/
def Obligations.HbmReads : Prop :=
  Claims.HbmReadDelivers ∧ Claims.HbmReadErrors

/-- HBM writes, and accesses that wait. Where the spec leaves a point open it follows the model's choices of log entries 31 and 78. -/
def Obligations.HbmWrites : Prop :=
  Claims.HbmWriteStores ∧ Claims.HbmAccessWaits

/-- Refresh, scrub and the traffic generator of a channel. Where the spec leaves a point open it follows the model's choices of log entries 32, 77 and 78. -/
def Obligations.HbmUpkeep : Prop :=
  Claims.RefreshAndScrub ∧ Claims.TrafficGenerator

/-- Retraining and refilling of a channel. Where the spec leaves a point open it follows the model's choices of log entry 32. -/
def Obligations.ChannelRecovery : Prop :=
  Claims.ChannelRetraining ∧ Claims.ChannelRefilled

/-! ## Links and the router (11) -/

/-- The values that a commit of the port's block has captured. -/
def Sys2Proof.Claims.captured (s : State) (b : Block) : List (Nat × Word) := (Tab.get (0, []) s.commits (commitAddr b)).2

/-- Every port but one holds what it held. -/
def Sys2Proof.Claims.OtherPorts (s t : State) (p : Nat) : Prop := ∀ q, q ≠ p → t.port q = s.port q

/-- A packet whose flits stand in a port's input buffer, after that port's credits were void (11 R290). -/
def Sys2Proof.Claims.voided (p : Nat) (w : Waiting) : Waiting := if w.port = p then { w with void := true } else w

/-- Every port but one holds what it held, but that the packets that came in by that one are counted freed no more. -/
def Sys2Proof.Claims.OtherPortsVoided (s t : State) (p : Nat) : Prop :=
  ∀ q, q ≠ p → t.port q = { s.port q with input := (s.port q).input.map (voided p), egress := (s.port q).egress.map (voided p) }

/-- PORT_TRAINING (11 R284, R308): a port in DOWN that may train with its committed fields, and that has not tried in the last 100 ms, enters
TRAINING with them in force; any other port is as it was. -/
def Sys2Proof.Claims.PortTrains : Prop :=
  ∀ (s : State) (p : Fin 16),
    (s.portState p = 0 → (s.committed p).mayTrain p = true → s.mayRetry p = true →
      let vs := captured s (.port p)
      (vs.map (·.1)).Nodup → at_ (.port p) 0x008 ∉ vs.map (·.1) → at_ (.port p) 0x038 ∉ vs.map (·.1) →
      at_ .tide 0x000 ∉ vs.map (·.1) →
      Runs (.portTraining p) s fun t =>
        t.portState p = 1 ∧ (t.port p).tried = some s.clock ∧ (t.port p).helloDue = true ∧ (∀ e ∈ vs, t.getReg e.1 = e.2)
          ∧ t.bitAt (.port p) 0x038 63 = false ∧ OtherPorts s t p
          ∧ Only s t { s with regs := t.regs, commits := t.commits, ports := t.ports, life := t.life }
              (at_ (.port p) 0x008 :: at_ (.port p) 0x038 :: vs.map (·.1)))
    ∧ ((s.portState p ≠ 0 ∨ (s.committed p).mayTrain p = false ∨ s.mayRetry p = false) → Runs (.portTraining p) s fun t => t = s)

/-- PORT_UP (11 R275, R284, R289): a training port whose peer sent HELLO, whose round trip is at most 700 µs and whose trained and enabled lanes
reach MIN_WIDTH enters UP with the credits of the peer's SYNC, in LIGHT where both ends ask for it in one tray, and with LIGHT_REFUSED where one
asks in vain; otherwise it returns to DOWN, with RTT_LIMIT where the round trip was longer. -/
def Sys2Proof.Claims.PortTrained : Prop :=
  ∀ (s : State) (p : Fin 16) (o : Training),
    let lanes := o.lanes.toNat &&& s.fldAt (.port p) 0x000 16 8
    (s.portState p ≠ 1 → Runs (.portUp p o) s fun t => t = s)
    ∧ (∀ h, s.portState p = 1 → o.hello = some h → o.rttNs ≤ 700_000 → s.fldAt (.port p) 0x000 8 4 ≤ popcount8 lanes → popcount8 lanes ≠ 0 →
      let light := s.portCfg p 1 && h.light && sameTray s.selfNgi h.ngi.toNat && decide (o.rttNs ≤ 3000) && !s.portCfg p 2
      Runs (.portUp p o) s fun t =>
        t.portState p = 2 ∧ t.lanes p = lanes ∧ t.portWidth p = popcount8 lanes ∧ t.regN (.port p) 0x040 = o.rttNs
          ∧ t.portRetry p = (decide (o.rttNs ≤ 3000) && !s.portCfg p 2) ∧ t.bitAt (.port p) 0x008 3 = light
          ∧ t.bitAt (.port p) 0x048 2 = (s.bitAt (.port p) 0x048 2 || ((s.portCfg p 1 || h.light) && !light))
          ∧ (t.port p).rxFrames = 0 ∧ (t.port p).txFrames = 0 ∧ (t.port p).replay = []
          ∧ (∀ v, v < 8 → t.credits p v = (o.caps.map (·.toNat)).getD v 0 * 256) ∧ OtherPortsVoided s t p
          ∧ Only s t { s with regs := t.regs, ports := t.ports, life := t.life }
              [at_ (.port p) 0x008, at_ (.port p) 0x038, at_ (.port p) 0x040, at_ (.port p) 0x048, at_ .harbour 0x000])
    ∧ (s.portState p = 1 → o.hello = none ∨ 700_000 < o.rttNs ∨ popcount8 lanes < s.fldAt (.port p) 0x000 8 4 ∨ popcount8 lanes = 0 →
      Runs (.portUp p o) s fun t =>
        t.portState p = 0 ∧ t.lanes p = 0 ∧ t.bitAt (.port p) 0x048 3 = (s.bitAt (.port p) 0x048 3 || decide (700_000 < o.rttNs))
          ∧ (t.port p).tried = (s.port p).tried ∧ OtherPorts s t p
          ∧ Only s t { s with regs := t.regs, ports := t.ports } [at_ (.port p) 0x008, at_ (.port p) 0x048])

/-- The registers that a port's entry into DOWN may write (11 R285, 12 R332, 19 R502). -/
def Sys2Proof.Claims.downKeys (p : Nat) : List Nat :=
  [at_ (.port p) 0x008, at_ (.port p) 0x048, at_ (.port p) 0x068, at_ (.quay 0) 0x128, at_ (.quay 1) 0x128]
    ++ (List.range 8).map fun v => at_ (.port p) (0x1C0 + 8 * v)

/-- What a port that leaves service loses (11 R285, R293): credits, what was partly sent or received, and the basin. -/
def Sys2Proof.Claims.Emptied (t : State) (p : Nat) : Prop :=
  (t.port p).credits = [] ∧ (t.port p).replay = [] ∧ (t.port p).filling = {} ∧ (t.port p).partial_ = [] ∧ (t.port p).basin = []
    ∧ (t.port p).spills = [] ∧ ∀ w ∈ (t.port p).input, w.inBasin = 0

/-- No packet that the router would route again is queued for the port: what is queued there are copies of multicast packets. -/
def Sys2Proof.Claims.OnlyCopies (s : State) (p : Nat) : Prop := ∀ w ∈ (s.port p).egress, w.copy.isSome = true

/-- RETRAIN (11 R284), PORT_DOWN (11 R285) and FENCE (11 R283): the port leaves service, into TRAINING where it may train again, into DOWN with
LINK_DOWN, or into PEER_FENCED, and what it held is lost. HELLO (17 R460) of a neighbour that leaves the port's limited status as it is updates
NEIGHBOUR alone; one that changes it also retrains. The frames are those of a port with no packet to be routed again. -/
def Sys2Proof.Claims.PortLeavesService : Prop :=
  (∀ (s : State) (p : Fin 16),
    let vs := captured s (.port p)
    let c := s.committed p
    let applies := c.mayTrain p || !c.portCfg p 0
    (vs.map (·.1)).Nodup → at_ (.port p) 0x008 ∉ vs.map (·.1) → at_ (.port p) 0x038 ∉ vs.map (·.1) →
    Runs (.retrain p) s fun t =>
      t.portState p = (if c.mayTrain p then 1 else 0) ∧ t.lanes p = 0 ∧ Emptied t p
        ∧ (if applies then ∀ e ∈ vs, t.getReg e.1 = e.2 else t.commits = s.commits)
        ∧ (OnlyCopies s p → OtherPortsVoided s t p
          ∧ Only s t { s with regs := t.regs, commits := t.commits, ports := t.ports, quays := t.quays, groups := t.groups, life := t.life }
              (at_ (.port p) 0x038 :: downKeys p ++ if applies then vs.map (·.1) else [])))
  ∧ (∀ (s : State) (p : Fin 16) (c : DownCause),
    let falls := (s.portUp p || (c == .basinLost && s.portState p == 3)) && causeHolds p c s
    (falls = true → Runs (.portDown p c) s fun t =>
      t.portState p = 0 ∧ t.bitAt (.port p) 0x048 0 = true ∧ Emptied t p
        ∧ t.reports = s.reports ++ [{ source := 0x11, domain := some (448 + p), detail := portDetail p 0, tide := s.now }]
        ∧ (OnlyCopies s p → OtherPortsVoided s t p
          ∧ Only s t { s with regs := t.regs, ports := t.ports, quays := t.quays, groups := t.groups, life := t.life, reports := t.reports }
              (downKeys p)))
    ∧ (falls = false → Runs (.portDown p c) s fun t => t = s))
  ∧ (∀ (s : State) (p : Fin 16) (n : BitVec 18),
    (1 ≤ s.portState p → s.portState p ≤ 3 → Runs (.fence p n) s fun t =>
      t.portState p = 5 ∧ t.bitAt (.port p) 0x048 6 = true ∧ Emptied t p
        ∧ (OnlyCopies s p → OtherPortsVoided s t p
          ∧ Only s t { s with regs := t.regs, ports := t.ports, quays := t.quays, groups := t.groups } (downKeys p)))
    ∧ (4 ≤ s.portState p → Runs (.fence p n) s fun t =>
        t.bitAt (.port p) 0x048 6 = true ∧ Only s t { s with regs := t.regs } [at_ (.port p) 0x048])
    ∧ (s.portState p = 0 → Runs (.fence p n) s fun t => t = s))
  ∧ (∀ (s : State) (p : Fin 16) (h : Hello),
    let same := (decide (h.level.toNat < s.minOp) || (s.port p).zeroCap) == s.portLimited p
    (s.portUp p = true → same = true →
      Runs (.hello p h) s fun t =>
        t.regN (.port p) 0x038 = h.ngi.toNat + h.port.val * 2 ^ 20 + h.level.toNat * 2 ^ 32 + 2 ^ 63 ∧ t.portState p = 2
          ∧ OtherPorts s t p ∧ Only s t { s with regs := t.regs, ports := t.ports } [at_ (.port p) 0x038, at_ .harbour 0x000])
    ∧ (s.portUp p = true → same = false →
        Runs (.hello p h) s fun t => Runs (.retrain p) ((s.takeHello p h).showLimited p) fun u => t = u)
    ∧ (s.portUp p = false → Runs (.hello p h) s fun t => t = s))

/-- No operation whose promise stands is booked on the port (12 R331, 13 R367). -/
def Sys2Proof.Claims.NothingBooked (s : State) (p : Nat) : Prop :=
  (∀ e ∈ s.quays, ∀ o ∈ e.2.ops, o.promised = true → o.port ≠ p)
    ∧ (∀ e ∈ s.groups, ∀ o, e.2.op = some o → o.promised = true → o.slots.any (fun x => x.1 == p) = false)

/-- Booking again changes of an operation its slots alone, and its promise, which it can only void with cause WIDTH (12 R331, Table 12-8). -/
def Sys2Proof.Claims.Rebooked (a b : QuayOp) : Prop :=
  b = { a with slots := b.slots, void := b.void } ∧ (b.void = a.void ∨ (a.promised = true ∧ b.void = 2))

/-- LANE_DROP and RETUNE (11 R286): an active lane leaves the active set and LINK_LANE is raised; the port stays where its width reaches
MIN_WIDTH, and what is admitted on it is booked again: a promise is kept or void with cause WIDTH (12 R331); below MIN_WIDTH it enters DOWN. A
lane that has left already is only retuned; LANE_REJOIN puts a retuned lane back. -/
def Sys2Proof.Claims.LanesLeaveAndRejoin : Prop :=
  ∀ (s : State) (p : Fin 16) (lane : Fin 8),
    ((s.portState p = 2 ∨ s.portState p = 3) → (s.lanes p).testBit lane = true →
      let width := popcount8 (s.lanes p - 2 ^ lane.val)
      let leaves := fun (t : State) =>
        t.lanes p = s.lanes p - 2 ^ lane.val ∧ t.portWidth p = width ∧ t.portState p = s.portState p
          ∧ t.bitAt (.port p) 0x048 1 = true
          ∧ t.reports = s.reports ++ [{ source := 0x10, domain := none, detail := portDetail p lane, tide := s.now }]
          ∧ (∀ q, (t.quayQueue q).ops.length = (s.quayQueue q).ops.length
              ∧ ∀ (i : Nat) (a b : QuayOp), (s.quayQueue q).ops[i]? = some a → (t.quayQueue q).ops[i]? = some b → Rebooked a b)
          ∧ (NothingBooked s p → t.quays = s.quays ∧ t.groups = s.groups ∧ t.booked = s.booked
              ∧ ∀ quay, t.regN (.quay quay) 0x128 = s.regN (.quay quay) 0x128)
          ∧ OtherPorts s t p
          ∧ Only s t { s with regs := t.regs, ports := t.ports, reports := t.reports, life := t.life, quays := t.quays, groups := t.groups,
                              booked := t.booked }
              [at_ (.port p) 0x008, at_ (.port p) 0x048, at_ (.quay 0) 0x128, at_ (.quay 1) 0x128]
      (s.fldAt (.port p) 0x000 8 4 ≤ width →
        Runs (.laneDrop p lane) s leaves ∧ Runs (.retune p lane) s fun t => leaves t ∧ (t.port p).retuning.contains lane.val = true)
      ∧ (width < s.fldAt (.port p) 0x000 8 4 →
        Runs (.laneDrop p lane) s (fun t => t.portState p = 0 ∧ t.bitAt (.port p) 0x048 0 = true ∧ Emptied t p)
        ∧ Runs (.retune p lane) s (fun t => t.portState p = 0 ∧ t.bitAt (.port p) 0x048 0 = true ∧ Emptied t p)))
    ∧ ((s.lanes p).testBit lane = false →
        Runs (.laneDrop p lane) s (fun t => t = s)
        ∧ (s.portState p = 2 ∨ s.portState p = 3 → (s.fldAt (.port p) 0x000 16 8).testBit lane = true →
            Runs (.retune p lane) s fun t => t = s.setPort p (t.port p) ∧ (t.port p).retuning.contains lane.val = true)
        ∧ ((s.fldAt (.port p) 0x000 16 8).testBit lane = false → Runs (.retune p lane) s fun t => t = s))
    ∧ ((s.port p).retuning.contains lane.val = true → s.portState p = 2 ∨ s.portState p = 3 →
        (s.fldAt (.port p) 0x000 16 8).testBit lane = true → (s.lanes p).testBit lane = false →
      Runs (.laneRejoin p lane) s fun t =>
        t.lanes p = s.lanes p + 2 ^ lane.val ∧ (t.port p).retuning.contains lane.val = false ∧ OtherPorts s t p
          ∧ Only s t { s with regs := t.regs, ports := t.ports, life := t.life } [at_ (.port p) 0x008])
    ∧ ((s.port p).retuning.contains lane.val = false → Runs (.laneRejoin p lane) s fun t => t = s)

/-- A frame that the FEC mode corrects and whose CRC holds. -/
def Sys2Proof.Claims.GoodFrame (s : State) (p : Nat) (f : Frame) : Prop :=
  codewordBad (s.bitAt (.port p) 0x008 3) f.symErrs0 = false ∧ codewordBad (s.bitAt (.port p) 0x008 3) f.symErrs1 = false
    ∧ frameCrcOk f.body = true

/-- The whole packets of data slots, and the bytes of the one that goes on (11 R279): between packets IDLE slots are skipped, and a packet ends
with its LEN. -/
def Sys2Proof.Claims.assembled : List (List Byte) → List Byte → List (List Byte) × List Byte
  | [], part => ([], part)
  | x :: xs, part =>
    if part.isEmpty && byteFld x 0 1 % 16 == 0 then Sys2Proof.Claims.assembled xs part
    else
      let bs := part ++ x
      if max 2 (byteFld bs 2 2) * 32 ≤ bs.length then
        let r := Sys2Proof.Claims.assembled xs []
        (bs :: r.1, r.2)
      else Sys2Proof.Claims.assembled xs bs

/-- The VC of a packet from its first byte, and its flits on a VC. -/
def Sys2Proof.Claims.vcOf (bs : List Byte) : Nat := bits (byteFld bs 0 1) 4 3
def Sys2Proof.Claims.flitsOn (v : Nat) (bs : List Byte) : Nat := if vcOf bs = v then bs.length / 32 else 0

/-- A whole packet at the input of a port; `goes`: its header came in an earlier frame (11 R299, R306). -/
def Sys2Proof.Claims.arrivedAs (s : State) (p : Nat) (goes : Bool) (bs : List Byte) : Waiting :=
  let h := if goes then (s.port p).header else (s.bank, s.filterPkt p (packetOf (bs.take 32)))
  { pkt := packetOf bs, port := p, since := s.clock, inVc := vcOf bs, bank := h.1, bad := h.2 }

/-- FRAME_RECEIVE (11 R273, R274, R276, R277, R279): a good frame at a port without a basin adds its whole packets to the port's input in order,
from its first header on where flits are skipped, and counts their flits as received; with retry one out of sequence adds none; a bad frame is
discarded: asked for again where retry is in use, else it costs the packets that had a flit in it. -/
def Sys2Proof.Claims.FramesReceived : Prop :=
  ∀ (s : State) (p : Fin 16) (f : Frame),
    let seq := frameSeq f.body
    let r := s.port p
    (s.portUp p = false → Runs (.frameReceive p f) s fun t => t = s)
    ∧ (s.portUp p = true → GoodFrame s p f → (s.portRetry p = true → seq = r.rxFrames % 4096) → s.portCfg p 2 = false →
        r.partBad = false → r.partDeep = 0 → r.spills = [] → (∀ x ∈ f.body.slots, x.length = 32) →
      let n := r.rxFrames + (seq + 4096 - r.rxFrames % 4096) % 4096
      let data := (dataSlots (s.portWidth p) n f.body.slots).filter fun e => !r.resync || decide (frameFirst f.body ≤ e.2)
      let out := assembled (data.map (·.1)) r.partial_
      Runs (.frameReceive p f) s fun t =>
        t.port p = { r with
            input := r.input ++ out.1.zipIdx.map fun e => arrivedAs s p (e.2 == 0 && !r.partial_.isEmpty) e.1
            partial_ := out.2, rxFrames := n + 1, badRun := 0, nak := false, resync := r.resync && frameFirst f.body == 63
            header := (t.port p).header, received := (t.port p).received, onDie := (t.port p).onDie }
          ∧ (∀ v, Tab.get 0 (t.port p).received v + flitsOn v r.partial_ =
              Tab.get 0 r.received v + sumNat (out.1.map (flitsOn v)) + flitsOn v out.2)
          ∧ t.regN (.port p) 0x050 =
              (s.regN (.port p) 0x050 + (if f.symErrs0 = 0 then 0 else 1) + (if f.symErrs1 = 0 then 0 else 1)) % 2 ^ 64
          ∧ OtherPorts s t p ∧ Only s t { s with regs := t.regs, ports := t.ports } [at_ (.port p) 0x050])
    ∧ (s.portUp p = true → GoodFrame s p f → s.portRetry p = true → seq ≠ r.rxFrames % 4096 →
      Runs (.frameReceive p f) s fun t =>
        t.port p = { r with badRun := 0 } ∧ OtherPorts s t p ∧ Only s t { s with regs := t.regs, ports := t.ports } [at_ (.port p) 0x050])
    ∧ (s.portUp p = true → ¬ GoodFrame s p f → s.portRetry p = true →
      Runs (.frameReceive p f) s fun t =>
        t.port p = { r with nak := true, badRun := r.badRun + 1 } ∧ t.regN (.port p) 0x058 = (s.regN (.port p) 0x058 + 1) % 2 ^ 64
          ∧ OtherPorts s t p ∧ Only s t { s with regs := t.regs, ports := t.ports, life := t.life } [at_ (.port p) 0x058])
    ∧ (s.portUp p = true → ¬ GoodFrame s p f → s.portRetry p = false →
      let cut := (dataSlots (s.portWidth p) r.rxFrames f.body.slots).filter fun e => decide (frameFirst f.body ≤ e.2)
      Runs (.frameReceive p f) s fun t =>
        (t.port p).input = r.input ∧ (t.port p).rxFrames = r.rxFrames + 1 ∧ (t.port p).badRun = r.badRun + 1
          ∧ (t.port p).resync = true ∧ (t.port p).partial_ = []
          ∧ t.regN (.port p) 0x068 = (s.regN (.port p) 0x068 + countStarts 0 (cut.map (·.1)) + (if r.partial_.isEmpty then 0 else 1)) % 2 ^ 64
          ∧ OtherPorts s t p
          ∧ Only s t { s with regs := t.regs, ports := t.ports, life := t.life }
              (at_ (.port p) 0x058 :: at_ (.port p) 0x068 :: (List.range 8).map fun v => at_ (.port p) (0x1C0 + 8 * v)))

/-- CREDIT (11 R289, R274) gives the freed flits as credits and drops the acknowledged frames from the replay buffer, and with SYNC begins the
counts anew; AUDIT (11 R290), without retry, counts the flits that never arrived as received and freed. A port that is neither UP nor in HOLD takes
neither. -/
def Sys2Proof.Claims.ControlSlotsTaken : Prop :=
  (∀ (s : State) (p : Fin 16) (nak : Bool) (ack : BitVec 12) (freed : List (BitVec 16)), s.portState p = 2 ∨ s.portState p = 3 →
    Runs (.credit p nak false ack freed) s (fun t =>
      (∀ v, v < 8 → t.credits p v =
          s.credits p v + ((freed.map (·.toNat)).getD v 0 + 65536 - Tab.get 0 (s.port p).seen v) % 65536)
        ∧ (s.portRetry p = true → ∀ e, e ∈ (t.port p).replay ↔
            e ∈ (s.port p).replay ∧ (e.fseq + 4096 - (ack.toNat + 1) % 4096) % 4096 < 2048)
        ∧ (s.portRetry p = true → nak = true → (t.port p).resend = (t.port p).replay)
        ∧ OtherPorts s t p ∧ Only s t { s with regs := t.regs, ports := t.ports } [at_ (.port p) 0x060])
    ∧ Runs (.credit p nak true ack freed) s (fun t =>
        (∀ v, v < 8 → t.credits p v = (freed.map (·.toNat)).getD v 0 * 256)
          ∧ (t.port p).sent = [] ∧ (t.port p).received = [] ∧ (t.port p).freed = [] ∧ (t.port p).seen = []
          ∧ OtherPortsVoided s t p ∧ Only s t { s with regs := t.regs, ports := t.ports } [at_ .harbour 0x000]))
  ∧ (∀ (s : State) (p : Fin 16) (nak : Bool) (ack : BitVec 12) (sent : List (BitVec 16)), s.portState p = 2 ∨ s.portState p = 3 →
    s.portRetry p = false →
    let lost := fun v => ((sent.map (·.toNat)).getD v 0 + 65536 - Tab.get 0 (s.port p).received v % 65536) % 65536
    Runs (.audit p nak ack sent) s fun t =>
      (∀ v, v < 8 → Tab.get 0 (t.port p).freed v = Tab.get 0 (s.port p).freed v + lost v
          ∧ Tab.get 0 (t.port p).received v = Tab.get 0 (s.port p).received v + lost v)
        ∧ ((∃ v, v < 8 ∧ lost v ≠ 0) → t.bitAt (.port p) 0x048 4 = true)
        ∧ OtherPorts s t p ∧ Only s t { s with regs := t.regs, ports := t.ports } [at_ (.port p) 0x048])
  ∧ (∀ (s : State) (p : Fin 16) (nak sync : Bool) (ack : BitVec 12) (counts : List (BitVec 16)), s.portState p ≠ 2 → s.portState p ≠ 3 →
    Runs (.credit p nak sync ack counts) s (fun t => t = s) ∧ Runs (.audit p nak ack counts) s fun t => t = s)

/-- CONTROL_SLOT_SEND (11 R277, R280, R283, R284, R289): a port that sends frames fills its next control slot, one in every 10 slots a lane, the
slots before it carrying IDLE: with CREDIT and AUDIT in turn where it is UP, in HOLD or PEER_FENCED, a HELLO that is due taking the place of an
AUDIT (the model's choice, log entry 79), and with FENCE where it is FENCING; one in TRAINING sends HELLO and then SYNC with what it advertises. -/
def Sys2Proof.Claims.ControlSlotsSent : Prop :=
  ∀ (s : State) (p : Fin 16),
    let r := s.port p
    let kind := fun (t : State) => byteFld (t.port p).control 0 1
    (s.portState p = 2 ∨ s.portState p = 3 ∨ s.portState p = 5 →
      Runs (.controlSlotSend p) s fun t =>
        kind t = (if r.auditDue then (if r.helloDue then 5 else 2) else 1) ∧ (t.port p).auditDue = !r.auditDue
          ∧ (t.port p).helloDue = (r.helloDue && !r.auditDue)
          ∧ ((r.auditDue && r.helloDue) = false →
              byteFld (t.port p).control 1 1 = (if r.nak then 1 else 0) ∧ byteFld (t.port p).control 2 2 = (r.rxFrames + 4095) % 4096
                ∧ ∀ v, v < 8 → byteFld (t.port p).control (4 + 2 * v) 2 =
                    (if r.auditDue then Tab.get 0 r.sent v else Tab.get 0 r.freed v) % 65536)
          ∧ (r.filling.slots.length < 40 → s.portWidth p ≠ 0 →
              t.slotNumber p % (10 * s.portWidth p) = 1 ∧ s.slotNumber p < t.slotNumber p
                ∧ t.slotNumber p ≤ s.slotNumber p + 10 * s.portWidth p)
          ∧ OtherPorts s t p ∧ Only s t { s with ports := t.ports } [])
    ∧ (s.portState p = 4 → Runs (.controlSlotSend p) s fun t =>
        kind t = 4 ∧ byteFld (t.port p).control 4 8 = s.now % 2 ^ 64 ∧ byteFld (t.port p).control 24 4 = s.selfNgi
          ∧ OtherPorts s t p ∧ Only s t { s with ports := t.ports } [])
    ∧ (s.portState p = 1 → Runs (.controlSlotSend p) s fun t =>
        (r.helloDue = true → kind t = 5 ∧ byteFld (t.port p).control 4 4 = s.selfNgi ∧ byteFld (t.port p).control 8 1 = p.val
          ∧ byteFld (t.port p).control 10 2 = s.opLevel ∧ (t.port p).helloDue = false)
        ∧ (r.helloDue = false → kind t = 1 ∧ byteFld (t.port p).control 1 1 = 2 ∧ (t.port p).syncSent = true
          ∧ ∀ v, v < 8 → byteFld (t.port p).control (4 + 2 * v) 2 = s.advertised p v % 65536)
        ∧ OtherPorts s t p ∧ Only s t { s with ports := t.ports } [])
    ∧ (s.portState p = 0 → Runs (.controlSlotSend p) s fun t => t = s)

/-- What a dropped packet leaves (11 R304): its cause's count one higher, saturating, and DROP_CAP holding the first. -/
def Sys2Proof.Claims.Dropped (s t : State) (cause : Nat) (pkt : Packet) (port : Nat) : Prop :=
  t.fldAt .router (0x040 + 8 * cause) 0 32 = min (s.fldAt .router (0x040 + 8 * cause) 0 32 + 1) (2 ^ 32 - 1)
    ∧ (s.bitAt .router 0x028 63 = true → t.reg .router 0x028 = s.reg .router 0x028)
    ∧ (s.bitAt .router 0x028 63 = false → pkt.dst < 2 ^ 18 → pkt.tag < 2 ^ 16 → cause < 8 → pkt.vc < 8 →
        t.bitAt .router 0x028 63 = true ∧ t.fldAt .router 0x028 0 18 = pkt.dst ∧ t.fldAt .router 0x028 18 16 = pkt.tag
          ∧ t.fldAt .router 0x028 34 4 = port % 16 ∧ t.fldAt .router 0x028 38 3 = cause ∧ t.fldAt .router 0x028 41 3 = pkt.vc)

/-- EGRESS_PACKET_START (11 R274, R279, R288, R289): a frame of a replay goes first; else a VC0 packet with credit starts while the VC0 bucket is not
empty; else the packet that R288 chooses: it takes one credit a flit, leaves the queue and frees its input buffer, and its flits leave in frames; one
that may not cross is dropped with ESC_BAD (11 R302). -/
def Sys2Proof.Claims.EgressStarts : Prop :=
  (∀ (s : State) (p : Fin 16) (f : TxFrame) (rest : List TxFrame), s.portUp p = true → (s.port p).resend = f :: rest →
    Runs (.egressPacketStart p) s fun t =>
      t.port p = { s.port p with resend := rest, wire := some (f.body true), symbols := dealFrame (f.body true) (s.lanes p) }
        ∧ OtherPorts s t p ∧ Only s t { s with ports := t.ports } [])
  ∧ (∀ (s : State) (p : Fin 16) (c : Choice), s.portUp p = true → (s.port p).resend = [] → s.chooseEgress p = some c →
    let w := c.pkt
    let k := w.pkt
    k.len ≤ s.credits p k.vc
    ∧ (∀ q, s.crossing k p = some q →
      Runs (.egressPacketStart p) s fun t =>
        (t.port p).onWire = some q ∧ (t.port p).egress = removeFirst w (s.port p).egress ∧ t.credits p k.vc = s.credits p k.vc - k.len
          ∧ (∀ v, v ≠ k.vc → t.credits p v = s.credits p v)
          ∧ Tab.get 0 (t.port p).sent k.vc = Tab.get 0 (s.port p).sent k.vc + k.len
          ∧ t.regN (.port p) (0x100 + 8 * k.vc) = (s.regN (.port p) (0x100 + 8 * k.vc) + k.len) % 2 ^ 64
          ∧ (w.port < 16 → w.void = false → w.copy = none →
              Tab.get 0 (t.port w.port).freed w.inVc = Tab.get 0 (s.port w.port).freed w.inVc + k.len)
          ∧ (∀ o, o ≠ p.val → o ≠ w.port → t.port o = s.port o)
          ∧ Only s t { s with regs := t.regs, ports := t.ports } [at_ (.port p) (0x100 + 8 * k.vc)])
    ∧ (s.crossing k p = none →
      Runs (.egressPacketStart p) s fun t =>
        (t.port p).egress = removeFirst w (s.port p).egress ∧ (t.port p).onWire = (s.port p).onWire ∧ Dropped s t 3 k w.port
          ∧ (∀ v, t.credits p v = s.credits p v)
          ∧ Only s t { s with regs := t.regs, ports := t.ports } [at_ .router 0x058, at_ .router 0x028]))
  ∧ (∀ (s : State) (p : Fin 16) (w : Waiting) (k : Packet), s.portUp p = true → (s.port p).resend = [] →
    s.firstOf p 0 (fun _ => true) = some w → 0 < s.bucketNow p → s.crossing w.pkt p = some k →
    w.pkt.vc = 0 ∧ Runs (.egressPacketStart p) s fun t => (t.port p).onWire = some k)
  ∧ (∀ (s : State) (p : Fin 16), s.portUp p = false ∨ ((s.port p).resend = [] ∧ s.chooseEgress p = none) →
    Runs (.egressPacketStart p) s fun t => t = s)

/-- BASIN_FILL (11 R293, R294, 19 R502): where a VC has flits in the basin, room on die and a channel that answers, the oldest flit moves on die; a
packet of which a flit reads poisoned is discarded with BASIN_POISON, its credits returned. -/
def Sys2Proof.Claims.BasinFills : Prop :=
  ∀ (s : State) (p : Fin 16) (v : Fin 8), (s.port p).spills = [] →
    let r := s.port p
    let a := s.basinFlit p v (Tab.get 0 r.filled v)
    let stays := Tab.get 0 r.basin v = 0 ∨ s.onDieCap p v ≤ Tab.get 0 r.onDie v ∨ s.hbmWaits a 32 = true
    let head := fillHead v (fun w => [{ w with inBasin := w.inBasin - 1 }]) r.input
    (stays → Runs (.basinFill p v) s fun t => t = s)
    ∧ (¬ stays → (s.memRead a 32).poison = false →
      Runs (.basinFill p v) s fun t =>
        Tab.get 0 (t.port p).filled v = Tab.get 0 r.filled v + 1 ∧ Tab.get 0 (t.port p).basin v = Tab.get 0 r.basin v - 1
          ∧ Tab.get 0 (t.port p).onDie v = Tab.get 0 r.onDie v + 1
          ∧ (∀ w rest, head = some (w, rest) → (t.port p).input = rest ∧ (t.port p).partDeep = r.partDeep)
          ∧ (head = none → (t.port p).input = r.input ∧ (t.port p).partDeep = r.partDeep - 1)
          ∧ OtherPorts s t p ∧ Only s t { s with regs := t.regs, ports := t.ports } [at_ (.port p) (0x1C0 + 8 * v.val)])
    ∧ (¬ stays → (s.memRead a 32).poison = true →
      Runs (.basinFill p v) s fun t =>
        t.bitAt (.port p) 0x048 5 = true
          ∧ (∀ w rest, fillHead v (fun _ => []) r.input = some (w, rest) →
              (t.port p).input = rest ∧ Tab.get 0 (t.port p).freed v = Tab.get 0 r.freed v + w.pkt.len
                ∧ t.regN (.port p) 0x068 = (s.regN (.port p) 0x068 + 1) % 2 ^ 64)
          ∧ (head = none → (t.port p).partBad = true ∧ (t.port p).input = r.input)
          ∧ OtherPorts s t p
          ∧ Only s t { s with regs := t.regs, ports := t.ports }
              [at_ (.port p) (0x1C0 + 8 * v.val), at_ (.port p) 0x048, at_ (.port p) 0x068])

/-- A packet leaves the head of a port's input and its flits are freed (11 R289). -/
def Sys2Proof.Claims.Popped (s t : State) (p vc : Nat) (w : Waiting) (rest : List Waiting) : Prop :=
  (t.port p).input = rest ∧ Tab.get 0 (t.port p).freed vc = Tab.get 0 (s.port p).freed vc + w.pkt.len ∧ OtherPorts s t p

/-- A command drops the packet at the head of a port's input VC with a cause (11 R304). -/
def Sys2Proof.Claims.Drops (c : Instr) (s : State) (p vc : Nat) (w : Waiting) (rest : List Waiting) (cause : Nat) : Prop :=
  Runs c s fun t => Popped s t p vc w rest ∧ Dropped s t cause w.pkt p
    ∧ Only s t { s with regs := t.regs, ports := t.ports } [at_ .router (0x040 + 8 * cause), at_ .router 0x028]

/-- UNICAST (11 R289, R300, R302–R304, R306, R307): the packet at the head of an input VC is dropped with the filter's or the route's cause, handed
to its quay or to the bridge, queued on the chosen port where that port is UP with credit to spare, or waits; it keeps its buffer while it is
queued. -/
def Sys2Proof.Claims.UnicastRouted : Prop :=
  ∀ (s : State) (p : Fin 16) (vc : Fin 8),
    (takeHead vc false (s.port p).input = none → Runs (.unicast p vc) s fun t => t = s)
    ∧ ∀ (w : Waiting) (rest : List Waiting), takeHead vc false (s.port p).input = some (w, rest) → w.port = p.val → w.void = false →
      w.copy = none →
      let drops := Drops (.unicast p vc) s p vc w rest
      (∀ c, w.bad = some c → drops c)
      ∧ (w.bad = none → s.hostPort p = true →
        Runs (.unicast p vc) s fun t =>
          Popped s t p vc w rest ∧ t.hostIn = s.hostIn ++ [w.pkt.cut] ∧ Only s t { s with ports := t.ports, hostIn := t.hostIn } [])
      ∧ (w.bad = none → s.hostPort p = false →
        (∀ c, s.routePkt w.pkt w.bank = .drop c → drops c)
        ∧ (∀ q, s.routePkt w.pkt w.bank = .deliver q →
          Runs (.unicast p vc) s fun t =>
            Popped s t p vc w rest ∧ t.arrived = s.arrived ++ (if q.tkind = 0 ∨ 19 < q.tkind then [] else [(deliverQuay q p, q.cut)])
              ∧ Only s t { s with ports := t.ports, arrived := t.arrived } [])
        ∧ (∀ q o, s.routePkt w.pkt w.bank = .send q o →
          let key := at_ (.port p) (0x180 + 8 * w.pkt.vc)
          (q.len ≤ s.spare o q.vc → s.portUp o = true → s.mayCross q o = true →
            Runs (.unicast p vc) s fun t =>
              (t.port p).input = rest ∧ (t.port o).egress = (s.port o).egress ++ [{ w with pkt := q }]
                ∧ (t.port p).freed = (s.port p).freed
                ∧ t.getReg key = s.getReg key + (if q.vc = 7 ∧ w.pkt.vc ≠ 7 then 1 else 0)
                ∧ (∀ x, x ≠ p.val → x ≠ o → t.port x = s.port x)
                ∧ Only s t { s with regs := t.regs, ports := t.ports } [key])
          ∧ (q.len ≤ s.spare o q.vc → s.portUp o = true → s.mayCross q o = false →
            Runs (.unicast p vc) s fun t =>
              Popped s t p vc w rest ∧ Dropped s t 3 q p
                ∧ Only s t { s with regs := t.regs, ports := t.ports } [key, at_ .router 0x058, at_ .router 0x028])
          ∧ (s.spare o q.vc < q.len ∨ s.portUp o = false → Runs (.unicast p vc) s fun t => t = s)))

/-- ESCAPE (11 R303): a packet at the head of an input VC, or else the first of that VC in the port's egress queue, that has waited ESC_WAIT without
credit moves to VC7, its OVC the VC that it left, and is counted at its input port; any other stays. -/
def Sys2Proof.Claims.EscapeMovesPacket : Prop :=
  ∀ (s : State) (p : Fin 16) (vc : Fin 8),
    let first := (s.port p).egress.find? fun w => w.pkt.vc == vc.val
    let waits := fun (w : Waiting) => s.credits p vc < w.pkt.len ∧ s.escapes s.credits w = true
    let moved := fun (t : State) (w : Waiting) (q : Packet) (e : List Waiting) (o : Nat) =>
      (t.port o).egress = e ++ [{ w with pkt := q, since := s.clock }] ∧ q.vc = 7 ∧ q.ovc = w.pkt.vc
        ∧ (w.port < 16 → t.regN (.port w.port) (0x180 + 8 * w.pkt.vc) = (s.regN (.port w.port) (0x180 + 8 * w.pkt.vc) + 1) % 2 ^ 64)
        ∧ (∀ x, x ≠ p.val → x ≠ o → t.port x = s.port x)
        ∧ Only s t { s with regs := t.regs, ports := t.ports } [at_ (.port w.port) (0x180 + 8 * w.pkt.vc)]
    (∀ w rest q o, takeHead vc false (s.port p).input = some (w, rest) → s.hostPort p = false → s.escapes s.spare w = true →
      s.routePkt (s.phased w.pkt).escaped w.bank = .send q o → s.mayCross q o = true →
      Runs (.escape p vc) s fun t => (t.port p).input = rest ∧ moved t w q (s.port o).egress o)
    ∧ (takeHead vc false (s.port p).input = none →
      (∀ w q o, first = some w → waits w → s.routePkt (s.phased w.pkt).escaped w.bank = .send q o → s.mayCross q o = true →
        Runs (.escape p vc) s fun t =>
          moved t w q (if o = p.val then removeFirst w (s.port o).egress else (s.port o).egress) o)
      ∧ ((∀ w, first = some w → ¬ waits w) → Runs (.escape p vc) s fun t => t = s))

/-- MULTICAST (11 R302, R305, R307): each other port whose mask share is not zero, the host port apart, gets one copy, named to its share alone, and
the node's quay gets one where the mask names the node; the packet keeps its input buffer while a copy waits. One with no TTL left or on a wrong VC
is dropped. -/
def Sys2Proof.Claims.MulticastCopied : Prop :=
  ∀ (s : State) (p : Fin 16) (vc : Fin 8) (w : Waiting) (rest : List Waiting), takeHead vc true (s.port p).input = some (w, rest) →
    w.port = p.val → w.void = false → w.copy = none →
    let drops := Drops (.multicast p vc) s p vc w rest
    (∀ c, w.bad = some c → drops c)
    ∧ (w.bad = none → s.hostPort p = true →
      Runs (.multicast p vc) s fun t =>
        Popped s t p vc w rest ∧ t.hostIn = s.hostIn ++ [w.pkt.cut] ∧ Only s t { s with ports := t.ports, hostIn := t.hostIn } [])
    ∧ (w.bad = none → s.hostPort p = false → w.pkt.ttl = 0 → drops 0)
    ∧ (w.bad = none → s.hostPort p = false → w.pkt.ttl ≠ 0 → vc.val ≠ 4 → vc.val ≠ 5 → drops 4)
    ∧ (w.bad = none → s.hostPort p = false → w.pkt.ttl ≠ 0 → vc.val = 4 ∨ vc.val = 5 →
      let copies := fun (q : Nat) =>
        let k : Packet := { w.pkt with mask := w.pkt.mask &&& s.portMask w.pkt.block q }
        if q = p.val ∨ k.mask = 0 ∨ s.hostPort q = true ∨ s.mayCross k q = false then []
        else [({ w with pkt := k, copy := some (s.port p).copies } : Waiting)]
      Runs (.multicast p vc) s fun t =>
        (t.port p).input = rest ∧ (∀ q, q < 16 → (t.port q).egress = (s.port q).egress ++ copies q)
          ∧ t.arrived = s.arrived ++ (if w.pkt.block = s.selfNgi / 64 && w.pkt.mask.testBit (s.selfNgi % 64)
              && decide (1 ≤ w.pkt.tkind) && decide (w.pkt.tkind ≤ 19) then [(deliverQuay w.pkt p, w.pkt.cut)] else [])
          ∧ ((∃ q, q < 16 ∧ copies q ≠ []) → (t.port p).freed = (s.port p).freed)
          ∧ ((∀ q, q < 16 → copies q = [] ∧ ∀ x ∈ (s.port q).egress, x.port = p.val → x.copy ≠ some (s.port p).copies) →
              Tab.get 0 (t.port p).freed vc = Tab.get 0 (s.port p).freed vc + w.pkt.len)
          ∧ Only s t { s with regs := t.regs, ports := t.ports, arrived := t.arrived } [at_ .router 0x058, at_ .router 0x028])

/-- RTR_BANK_WRITE (11 R299), ROUTE_TABLE_WRITE (11 R298) and TAG_FILTER_WRITE (11 R306): the bank changes at once; a table word takes the value
unless that changes an entry of the active bank; the filter reads back at once and holds for headers from 100 ns later. -/
def Sys2Proof.Claims.RouterRegisterWrites : Prop :=
  (∀ (s : State) (wide high : Bool) (v : Word),
    Runs (.rtrBankWrite wide high v) s fun t =>
      t.bank = fld (mergeHalf (s.reg .router 0x000) wide high v) 0 1 ∧ Only s t { s with regs := t.regs } [at_ .router 0x000])
  ∧ (∀ (s : State) (word : Fin 262144) (wide high : Bool) (v : Word),
    let a := at_ .routeTable (8 * word)
    let new := mergeHalf (s.getReg a) wide high v &&& 0x0FFF_FFFF_0FFF_FFFF
    (word.val / 131072 ≠ s.bank ∨ new = s.getReg a →
      Runs (.routeTableWrite word wide high v) s fun t => t.getReg a = new ∧ Only s t { s with regs := t.regs } [a])
    ∧ (word.val / 131072 = s.bank → new ≠ s.getReg a →
      Runs (.routeTableWrite word wide high v) s fun t =>
        bit (t.getReg (rejectAddr .router)) 0 = true ∧ Only s t { s with regs := t.regs } [rejectAddr .router]))
  ∧ (∀ (s : State) (k : Fin 1024) (wide high : Bool) (v : Word),
    let a := at_ .router (0x1_0000 + 8 * k)
    Runs (.tagFilterWrite k wide high v) s fun t =>
      t.getReg a = mergeHalf (s.getReg a) wide high v ∧ t.laggedReg a = s.laggedReg a
        ∧ (∀ b, b ≠ a → Tab.get [] t.lagged b = Tab.get [] s.lagged b)
        ∧ Only s t { s with regs := t.regs, lagged := t.lagged } [a])

/-- Training of a port, its width and its leaving service. Where the spec leaves a point open it follows the model's choices of log entries 28 and 80. -/
def Obligations.PortService : Prop :=
  Claims.PortTrains ∧ Claims.PortTrained ∧ Claims.PortLeavesService ∧ Claims.LanesLeaveAndRejoin

/-- Frames, control slots, egress and the basin of a port. Where the spec leaves a point open it follows the model's choices of log entries 20, 21, 79 and 80. -/
def Obligations.LinkFrames : Prop :=
  Claims.FramesReceived ∧ Claims.ControlSlotsTaken ∧ Claims.ControlSlotsSent ∧ Claims.EgressStarts ∧ Claims.BasinFills

/-- Routing of unicast and multicast packets, and the router's registers. Where the spec leaves a point open it follows the model's choices of log entries 23, 24 and 80. -/
def Obligations.Routing : Prop :=
  Claims.UnicastRouted ∧ Claims.EscapeMovesPacket ∧ Claims.MulticastCopied ∧ Claims.RouterRegisterWrites

/-! ## The quays (12) -/

/-- The registers that sending a packet may write: the drop counts and DROP_CAP (11 R304). -/
def Sys2Proof.Claims.sendKeys : List Nat := at_ .router 0x028 :: (List.range 5).map fun c => at_ .router (0x040 + 8 * c)

/-- The registers that a write or a read of memory may write: the first uncorrectable sector of each channel, and the counters of its transfers
(10 Table 10-10). -/
def Sys2Proof.Claims.memKeys : List Nat :=
  transferKeys ++ (List.range 192).map fun ch => at_ (groupOf ch) (chOff ch 0x118)

/-- The frame of a command that stores to memory: as `Only`, but that the bytes from `lo` on, `n` of them, may change. -/
def Sys2Proof.Claims.Stores (s t u : State) (keys : List Nat) (lo n : Nat) : Prop :=
  t = u ∧ RegsBut s t keys ∧ ∀ a, a < lo ∨ lo + n ≤ a → t.byteAt a = s.byteAt a

/-- From the state `u` the router has taken a packet that one of the node's quays injects (11 R300, R301). -/
def Sys2Proof.Claims.Sent (u t : State) (p : Packet) : Prop :=
  t.ports = (u.inject p).ports ∧ t.arrived = (u.inject p).arrived ∧ t.draws = (u.inject p).draws

/-- The quay owns the queue's context (12 R311). -/
def Sys2Proof.Claims.Owned (s : State) (q : Nat) : Prop := (s.quayQueue q).context.length = 128

/-- Every queue but one holds what it held. -/
def Sys2Proof.Claims.OtherQueues (s t : State) (q : Nat) : Prop := ∀ k, k ≠ q → t.quayQueue k = s.quayQueue k

/-- Every context that a quay owns keeps its size: 128 bytes of a queue (12 R311), 256 of a group (13 R348); any step keeps this. -/
def Sys2Proof.Claims.ContextsWhole (s : State) : Prop :=
  (∀ q, (s.quayQueue q).context = [] ∨ (s.quayQueue q).context.length = 128)
    ∧ ∀ g, (s.group g).context = [] ∨ (s.group g).context.length = 256

/-- The contexts that the quays own stay whole: reset leaves none, and every step keeps the size of each. -/
def Obligations.StepKeepsContextsWhole : Prop :=
  ContextsWhole State.reset ∧ ∀ s t : State, ContextsWhole s → step s = .next t → ContextsWhole t

/-- The fields of QCTL_STATUS after a command (12 Table 12-10). -/
def Sys2Proof.Claims.QctlShows (t : State) (q cmd : Nat) (done refused : Bool) (cause : Nat) : Prop :=
  t.fldAt (.quay (quayOf q)) 0x030 0 18 = q ∧ t.fldAt (.quay (quayOf q)) 0x030 18 3 = cmd ∧ t.bitAt (.quay (quayOf q)) 0x030 21 = done
    ∧ t.bitAt (.quay (quayOf q)) 0x030 22 = refused ∧ t.fldAt (.quay (quayOf q)) 0x030 23 3 = cause

/-- ENABLE (12 R313) at a quay that is NORMAL: a DISABLED queue whose context in HBM is readable and passes every check is ACTIVE, the quay owning
that context with its indices and counts zero and the first grant of WIN_BYTES sent; otherwise QCTL_STATUS shows REFUSED with the cause. -/
def Sys2Proof.Claims.QueueEnabled : Prop :=
  ∀ (s : State) (q : Fin 262144), s.domainState (464 + quayOf q) = 0 →
    let m := s.memRead (s.ctxAddr q) 128
    (s.limited = false → (s.quayQueue q).state = 0 → m.ok = true → m.poison = false → enableCause m.data = 0 →
      Runs (.enable q) s fun t =>
        Owned t q ∧ (t.quayQueue q).state = 1 ∧ (t.quayQueue q).ops = []
          ∧ (∀ off, 1 ≤ off → off < 48 → byteFld (t.quayQueue q).context off 1 = byteFld m.data off 1)
          ∧ (t.quayQueue q).sqTail = 0 ∧ (t.quayQueue q).sqHead = 0 ∧ (t.quayQueue q).cqTail = 0 ∧ (t.quayQueue q).cqHead = 0
          ∧ (t.quayQueue q).txPsn = 0 ∧ (t.quayQueue q).rxPsn = 0 ∧ (t.quayQueue q).txGranted = 0
          ∧ (t.quayQueue q).rxGranted = byteFld m.data 20 4 ∧ QctlShows t q 1 true false 0 ∧ OtherQueues s t q
          ∧ Only s t { s with regs := t.regs, quays := t.quays, ranks := t.ranks, ports := t.ports, arrived := t.arrived, draws := t.draws, answer := t.answer }
              (at_ (.quay (quayOf q)) 0x030 :: at_ (.quay (quayOf q)) 0x158 :: sendKeys))
    ∧ (let refused := fun (cause : Nat) => Runs (.enable q) s fun t =>
          QctlShows t q 1 false true cause
            ∧ Only s t { s with regs := t.regs, answer := t.answer } [at_ (.quay (quayOf q)) 0x030]
       (s.limited = true ∨ (s.quayQueue q).state ≠ 0 → refused 5)
         ∧ (s.limited = false → (s.quayQueue q).state = 0 → m.ok = false ∨ m.poison = true → refused 2)
         ∧ (s.limited = false → (s.quayQueue q).state = 0 → m.ok = true → m.poison = false → enableCause m.data ≠ 0 →
             refused (enableCause m.data)))

/-- DRAIN, RESUME and RESET of a queue (12 R313), and the end of a drain: DRAINING; HALTED back to ACTIVE; every started operation ended and the queue
DISABLED; DISABLED with its context written back to HBM. -/
def Sys2Proof.Claims.QueueStatesFollowQctl : Prop :=
  ∀ (s : State) (q : Fin 262144), s.domainState (464 + quayOf q) = 0 →
    let alone := fun (t : State) => OtherQueues s t q
      ∧ Only s t { s with regs := t.regs, quays := t.quays, answer := t.answer } [at_ (.quay (quayOf q)) 0x030]
    (Owned s q → (s.quayQueue q).state ≠ 0 →
      Runs (.drain q) s fun t => (t.quayQueue q).state = 3 ∧ (t.quayQueue q).ops = (s.quayQueue q).ops ∧ QctlShows t q 2 true false 0 ∧ alone t)
    ∧ (Owned s q → (s.quayQueue q).state = 2 →
      Runs (.qctlResume q) s fun t =>
        (t.quayQueue q).state = 1 ∧ (t.quayQueue q).ops = (s.quayQueue q).ops ∧ QctlShows t q 4 true false 0 ∧ alone t)
    ∧ ((s.quayQueue q).state ≠ 0 →
      Runs (.reset q) s fun t =>
        t.quayQueue q = {} ∧ (t.quayQueue q).state = 0 ∧ QctlShows t q 3 true false 0 ∧ OtherQueues s t q
          ∧ t = { s with regs := t.regs, quays := t.quays, adds := t.adds, reports := t.reports, mem := t.mem, poison := t.poison, channels := t.channels, answer := t.answer })
    ∧ (Owned s q → (s.quayQueue q).state = 3 → (s.quayQueue q).ops = [] → Live s (s.ctxAddr q) 128 →
        s.hbmWaits (s.ctxAddr q) 128 = false →
      Runs (.queueDrainDone q) s fun t =>
        t.quayQueue q = {} ∧ (∀ off, 1 ≤ off → off < 128 → t.byteAt (s.ctxAddr q + off) = (s.quayQueue q).context.getD off 0)
          ∧ (t.byteAt (s.ctxAddr q)).toNat % 8 = 0 ∧ OtherQueues s t q
          ∧ Stores s t { s with regs := t.regs, quays := t.quays, mem := t.mem, poison := t.poison, channels := t.channels, reports := t.reports } memKeys
              (s.ctxAddr q) 128)

/-- The queue bells and the staging window (12 R314, R315): SQ_TAIL and a work request are taken where the ring has room and set TAIL_REJECT where it
has not; CQ_HEAD and RQ_HEAD free records, slots and window bytes. -/
def Sys2Proof.Claims.QueueBells : Prop :=
  ∀ (s : State) (q : Fin 262144), Owned s q → (s.quayQueue q).state ≠ 0 →
    let r := s.quayQueue q
    let alone := fun (t : State) => OtherQueues s t q ∧ Only s t { s with quays := t.quays, answer := t.answer } []
    (∀ i : BitVec 32,
      (r.overfills i.toNat = false → Runs (.queueBellSqTail q i) s fun t => t.quayQueue q = r.put 48 4 i.toNat
          ∧ (t.quayQueue q).sqTail = i.toNat ∧ alone t)
      ∧ (r.overfills i.toNat = true → Runs (.queueBellSqTail q i) s fun t =>
          ((t.quayQueue q).fld 120 4).testBit 8 = true ∧ (t.quayQueue q).sqTail = r.sqTail ∧ alone t)
      ∧ (diff32 i.toNat r.cqHead ≤ diff32 r.cqTail r.cqHead → Runs (.queueBellCqHead q i) s fun t =>
          t.quayQueue q = r.put 60 4 i.toNat ∧ (t.quayQueue q).cqHead = i.toNat ∧ alone t)
      ∧ (diff32 i.toNat r.rqHead ≤ diff32 r.rqTail r.rqHead → Runs (.queueBellRqHead q i) s fun t =>
          (t.quayQueue q).rqHead = i.toNat
            ∧ (t.quayQueue q).rxFreed = (r.rxFreed + diff32 i.toNat r.rqHead * r.slotSize) % 2 ^ 64 ∧ alone t))
    ∧ (∀ (off : Nat) (d : List Byte) (poison : Bool), off % 64 = 0 → d.length = 64 → r.overfills (r.sqTail + 1) = false →
        let a := r.stagingSlot
        s.stagingWaits q = false → Live s a 64 →
        Runs (.stagingWindowWrite q off d poison) s fun t =>
          t.bytesAt a 64 = d ∧ (t.quayQueue q).sqTail = (r.sqTail + 1) % 2 ^ 32 ∧ OtherQueues s t q
            ∧ Stores s t { s with regs := t.regs, quays := t.quays, mem := t.mem, poison := t.poison, channels := t.channels, reports := t.reports, answer := t.answer }
                memKeys a 64)
    ∧ (∀ (off : Nat) (d : List Byte) (poison : Bool), off % 64 ≠ 0 ∨ d.length ≠ 64 ∨ r.overfills (r.sqTail + 1) = true →
        s.stagingWaits q = false →
        Runs (.stagingWindowWrite q off d poison) s fun t =>
          ((t.quayQueue q).fld 120 4).testBit 8 = true ∧ (t.quayQueue q).sqTail = r.sqTail ∧ alone t)
    ∧ (∀ (off : Nat) (d : List Byte) (poison : Bool), s.stagingWaits q = true →
        Runs (.stagingWindowWrite q off d poison) s fun t => t = s.answers 5)

/-- The command that starts a work request of an opcode. -/
def Sys2Proof.Claims.startOf (q : Fin 262144) : Nat → Instr
  | 1 => .put q
  | 2 => .get q
  | 3 => .send q
  | 4 => .atomic q
  | 5 => .ctrAdd q
  | _ => .nopWorkRequest q

/-- The head request of the queue may start and is in order (12 R317, R318). -/
def Sys2Proof.Claims.Ready (s : State) (q : Nat) (d : List Byte) : Prop :=
  Owned s q ∧ s.headReady q (s.headRequest q) = true ∧ (s.headRequest q).ok = true ∧ (s.headRequest q).poison = false
    ∧ d = (s.headRequest q).data ∧ wrOk (s.quayQueue q).guaranteed d = true
    ∧ (wrFlag d 1 = true → s.trigEnabled (byteFld d 60 4) = true)
    ∧ (wrLocalBytes d ≠ 0 → s.reachable (wrLocal d) (wrLocalBytes d) = true)

/-- The route table knows a node (12 R318). -/
def Sys2Proof.Claims.routed (s : State) (dst : Nat) : Prop :=
  (s.routeEntry s.bank (s.viaOf { vc := 5, ovc := 5, dst := dst, src := 0, tag := 0, tkind := 1 }).target).testBit 27 = true

/-- PUT, GET, SEND, ATOMIC and CTR_ADD (12 R317, R318, R325) of a best-effort queue with a known peer: the operation is the youngest of the queue, its
PSNs and window bytes are taken, and its packets are sent. NOP ends at once with status 0; a request that is unreadable, poisoned or reserved ends with
status 2 or 1 and sends nothing. -/
def Sys2Proof.Claims.OperationsStart : Prop :=
  ∀ (s : State) (q : Fin 262144),
    let r := s.quayQueue q
    let taken := fun (t : State) => (t.quayQueue q).sqHead = (r.sqHead + 1) % 2 ^ 32 ∧ (t.quayQueue q).cqResv = (r.cqResv + 1) % 2 ^ 32
      ∧ OtherQueues s t q
    (∀ (d : List Byte) (dst : Nat), Ready s q d → 1 ≤ wrOpcode d → wrOpcode d ≤ 5 → r.guaranteed = false → (s.peerOf q).1 = some dst →
      routed s dst →
      Runs (startOf q (wrOpcode d)) s fun t =>
        taken t ∧ (t.quayQueue q).txPsn = (r.txPsn + wrPackets d) % 2 ^ 32 ∧ (t.quayQueue q).txUsed = (r.txUsed + wrWindow r d) % 2 ^ 64
          ∧ (∃ o, (t.quayQueue q).ops = r.ops ++ [o] ∧ o.index = r.sqHead ∧ o.request = d ∧ o.start = s.now ∧ o.status = none
              ∧ o.admitted = false ∧ o.firstPsn = r.txPsn
              ∧ t = State.sendOp { s with quays := t.quays, ranks := t.ranks } q dst o (List.range (wrPackets d)) false)
          ∧ Only s t { s with regs := t.regs, quays := t.quays, ranks := t.ranks, ports := t.ports, arrived := t.arrived, draws := t.draws }
              sendKeys)
    ∧ (∀ d, Ready s q d → wrOpcode d = 6 →
      Runs (.nopWorkRequest q) s fun t =>
        taken t ∧ (∃ o, (t.quayQueue q).ops = r.ops ++ [o] ∧ o.index = r.sqHead ∧ o.status = some 0 ∧ o.stamp = s.now)
          ∧ Only s t { s with quays := t.quays } [])
    ∧ (∀ st, Owned s q → s.headReady q (s.headRequest q) = true →
      ((s.headRequest q).ok = false ∧ st = 2 ∨ (s.headRequest q).ok = true ∧ (s.headRequest q).poison = true ∧ st = 1) →
      Runs (.nopWorkRequest q) s fun t =>
        taken t ∧ (∃ o, (t.quayQueue q).ops = r.ops ++ [o] ∧ o.index = r.sqHead ∧ o.status = some st)
          ∧ Only s t { s with quays := t.quays } [])

/-- A guaranteed operation with a known peer (12 R329): where admission refuses it, it ends at once with the refusal's status, counted; where it is
admitted, its slots are booked and its promise stands. OPERATION_COMPLETE (12 R319, R320): the record of the oldest operation is written once it has
ended, CQ_TAIL advances, a status of Table 12-5 that halts the queue halts it, and the signal is sent. -/
def Sys2Proof.Claims.OperationsAdmittedAndRecorded : Prop :=
  (∀ (s : State) (q : Fin 262144) (d : List Byte) (dst : Nat), Ready s q d → 1 ≤ wrOpcode d → wrOpcode d ≤ 5 →
    (s.quayQueue q).guaranteed = true → (s.peerOf q).1 = some dst → routed s dst →
    let r := s.quayQueue q
    (∀ st, s.admitOp q dst s.now d = .error st →
      Runs (startOf q (wrOpcode d)) s fun t =>
        (∃ o, (t.quayQueue q).ops = r.ops ++ [o] ∧ o.status = some st ∧ o.admitted = false) ∧ t.booked = s.booked ∧ OtherQueues s t q
          ∧ Only s t { s with regs := t.regs, quays := t.quays, ranks := t.ranks } [at_ (.quay (quayOf q)) (0x100 + 8 * refusalCount st)])
    ∧ (∀ l p, s.admitOp q dst s.now d = .ok (l, p) →
      Runs (startOf q (wrOpcode d)) s fun t =>
        (∃ o, (t.quayQueue q).ops = r.ops ++ [o] ∧ o.status = none ∧ o.admitted = true ∧ o.void = 0 ∧ o.slots = l ∧ o.port = p)
          ∧ t.booked = (s.book l).booked ∧ OtherQueues s t q
          ∧ t.regN (.quay (quayOf q)) 0x100 = (s.regN (.quay (quayOf q)) 0x100 + 1) % 2 ^ 64
          ∧ Only s t { s with regs := t.regs, quays := t.quays, ranks := t.ranks, ports := t.ports, arrived := t.arrived, draws := t.draws, booked := t.booked }
              (at_ (.quay (quayOf q)) 0x100 :: sendKeys)))
  ∧ (∀ (s : State) (q : Fin 262144) (o : QuayOp) (rest : List QuayOp) (st : Nat), Owned s q → (s.quayQueue q).ops = o :: rest →
    o.status = some st →
    let r := s.quayQueue q
    let a := r.recordAt
    Live s a 32 → s.hbmWaits a 32 = false →
    Runs (.operationComplete q) s fun t =>
      t.bytesAt a 32 = recordBytes st o.void (o.flags (phaseOf r.cqTail r.cqN)) (byteFld o.request 40 4) o.stamp o.result o.index
        ∧ (t.quayQueue q).ops = rest ∧ (t.quayQueue q).cqTail = (r.cqTail + 1) % 2 ^ 32
        ∧ (t.quayQueue q).state = (if haltsQueue st && r.state == 1 then 2 else r.state)
        ∧ t.adds = s.adds ++ (if (byteFld o.request 1 1).testBit 2
            then [{ counter := byteFld o.request 44 4 % 2 ^ 17, inc := 1, source := 2 }] else [])
        ∧ OtherQueues s t q
        ∧ Stores s t { s with regs := t.regs, quays := t.quays, adds := t.adds, reports := t.reports, mem := t.mem, poison := t.poison, channels := t.channels }
            (at_ (.quay (quayOf q)) 0x130 :: memKeys) a 32)

/-- The quay takes a packet of the kind: the state without it (12 R323). -/
def Sys2Proof.Claims.Takes (s : State) (quay kind : Nat) (p : Packet) (u : State) : Prop := s.takeArrived quay [kind] = some (p, u)

/-- A request that is the next of an ACTIVE queue with its tag, with nothing held back (12 R323, R324). -/
def Sys2Proof.Claims.InOrder (s : State) (p : Packet) (q : Nat) : Prop :=
  q = p.dq % 2 ^ 18 ∧ Owned s q ∧ (s.quayQueue q).state = 1 ∧ (s.quayQueue q).jobTag = p.tag ∧ p.psn = (s.quayQueue q).rxPsn
    ∧ (s.quayQueue q).held = []

/-- What taking a request in order leaves: RX_PSN is one higher, and an ACK is sent for a LAST packet or the 64th. -/
def Sys2Proof.Claims.Accepted (s t : State) (p : Packet) (q : Nat) : Prop :=
  (t.quayQueue q).rxPsn = ((s.quayQueue q).rxPsn + 1) % 2 ^ 32 ∧ (t.quayQueue q).held = []
    ∧ (t.quayQueue q).unacked = (if p.last || decide (64 ≤ (s.quayQueue q).unacked + 1) then 0 else (s.quayQueue q).unacked + 1)
    ∧ OtherQueues s t q

/-- PUT_RECEIVE, SEND_RECEIVE, ATOMIC_RECEIVE, GET_REQ_RECEIVE and CTR_ADD_RECEIVE of the next request (12 R321–R325, 13 R346): the payload lands in the
opening, which gives its window bytes back; in the receive slot; the atomic operation is performed once; the opening's data is sent back; the
trigger counter is added to. Openings and slots are those in live HBM. -/
def Sys2Proof.Claims.RequestsPerformed : Prop :=
  ∀ (s u : State) (quay : Fin 2) (p : Packet) (q : Nat), InOrder s p q →
    let fields := fun (t : State) =>
      { s with regs := t.regs, quays := t.quays, mem := t.mem, poison := t.poison, channels := t.channels, reports := t.reports, arrived := t.arrived, ports := t.ports,
               ranks := t.ranks, draws := t.draws }
    let acks := p.last || decide (64 ≤ (s.quayQueue q).unacked + 1)
    (∀ a, Takes s quay 1 p u → s.openAt q p p.payload.length 16 = .ok a → p.payload ≠ [] → Live s a p.payload.length →
      Runs (.putReceive quay) s fun t =>
        t.bytesAt a p.payload.length = p.payload ∧ Accepted s t p q
          ∧ (t.quayQueue q).rxFreed = ((s.quayQueue q).rxFreed + p.payload.length) % 2 ^ 64 ∧ (acks = false → t.ports = s.ports)
          ∧ Stores s t (fields t) (sendKeys ++ memKeys) a p.payload.length)
    ∧ (Takes s quay 4 p u → s.noSlot q p = false → (s.quayQueue q).rqN ≠ 0 → p.addr + p.payload.length ≤ (s.quayQueue q).slotSize →
        p.last = false →
        let a := (s.quayQueue q).fld 40 8 + (s.quayQueue q).slotSize * ((s.quayQueue q).rqTail % (s.quayQueue q).rqN) + p.addr
        Live s a p.payload.length →
      Runs (.sendReceive quay) s fun t =>
        t.bytesAt a p.payload.length = p.payload ∧ Accepted s t p q ∧ (t.quayQueue q).rqTail = (s.quayQueue q).rqTail
          ∧ Stores s t (fields t) (sendKeys ++ memKeys) a p.payload.length)
    ∧ (Takes s quay 4 p u → s.noSlot q p = false → (s.quayQueue q).rqN ≠ 0 → p.addr + p.payload.length ≤ (s.quayQueue q).slotSize →
        p.last = true →
        let a := (s.quayQueue q).recordAt
        Live s a 32 →
      Runs (.sendReceive quay) s fun t =>
        (∃ st flags, t.bytesAt a 32 =
            recordBytes st 0 flags (p.addr + p.payload.length) s.now (s.quayQueue q).rqTail (p.sq % 2 ^ 18))
          ∧ (t.quayQueue q).rqTail = ((s.quayQueue q).rqTail + 1) % 2 ^ 32 ∧ (t.quayQueue q).cqTail = ((s.quayQueue q).cqTail + 1) % 2 ^ 32
          ∧ Accepted s t p q ∧ t = fields t)
    ∧ (∀ a, Takes s quay 5 p u →
        let n := if p.code.testBit 4 then 8 else 4
        s.openAt q p n 18 = .ok a → a % n = 0 → Live s a n → s.linePoison a n = false → p.poison = false →
      Runs (.atomicReceive quay) s fun t =>
        t.bytesAt a n = leBytes n (amoResult (p.code % 16) n (leNat (s.bytesAt a n)) p.data (leNat (p.payload.take 8))) ∧ Accepted s t p q
          ∧ (acks = false → p.code.testBit 5 = false → t.ports = s.ports)
          ∧ (acks = false → p.code.testBit 5 = true →
              Sent u t { vc := respVc p.guar, ovc := 0, rmode := s.answerMode p, dst := p.src, src := 0, tag := p.tag, tkind := 6, last := true, guar := p.guar
                         dq := p.sq, sq := q, psn := p.psn, data := leNat (s.bytesAt a n) })
          ∧ (p.code.testBit 5 = true → (p.psn, leNat (s.bytesAt a n)) ∈ (t.quayQueue q).kept)
          ∧ Stores s t (fields t) (sendKeys ++ memKeys) a n)
    ∧ (∀ a, Takes s quay 2 p u → s.openAt q p p.data 17 = .ok a → p.data ≠ 0 → Live s a p.data → p.last = false →
        (s.quayQueue q).unacked + 1 < 64 →
      Runs (.getReqReceive quay) s fun t =>
        Sent u t { vc := respVc p.guar, ovc := 0, rmode := s.answerMode p, dst := p.src, src := 0, tag := p.tag, tkind := 3, last := false, guar := p.guar
                   poison := s.linePoison a p.data, dq := p.sq, sq := q, psn := p.psn, addr := p.addr, data := p.data
                   payload := s.bytesAt a p.data }
          ∧ Accepted s t p q ∧ Only s t (fields t) (sendKeys ++ memKeys))
    ∧ (Takes s quay 10 p u → s.trigTag (p.addr % 2 ^ 17) = p.tag → s.trigEnabled (p.addr % 2 ^ 17) = true → s.safe = false →
        s.domainState (464 + p.addr % 2 ^ 17 / 65536) = 0 →
      Runs (.ctrAddReceive quay) s fun t =>
        t.trigCtr (p.addr % 2 ^ 17) = (s.trigCtr (p.addr % 2 ^ 17) + p.data) % 2 ^ 32 ∧ Accepted s t p q ∧ (acks = false → t.ports = s.ports)
          ∧ Only s t (fields t) (at_ (ctrBlock (p.addr % 2 ^ 17)) (ctrOff (p.addr % 2 ^ 17)) :: sendKeys))

/-- A request for a queue that is not ACTIVE is answered with ERROR status 8, and one with another tag with status 6, counted in TAG_REJ (12 R323); nothing is
written. -/
def Sys2Proof.Claims.RequestsRefused : Prop :=
  ∀ (s u : State) (quay : Fin 2) (p : Packet) (c : Instr) (st : Nat),
    (c, p.tkind) ∈ [(Instr.putReceive quay, 1), (Instr.getReqReceive quay, 2), (Instr.sendReceive quay, 4), (Instr.atomicReceive quay, 5),
      (Instr.ctrAddReceive quay, 10)] →
    Takes s quay p.tkind p u →
    let r := s.quayQueue (p.dq % 2 ^ 18)
    (r.state ≠ 1 ∧ st = 8 ∨ r.state = 1 ∧ r.jobTag ≠ p.tag ∧ st = 6) →
    Runs c s fun t =>
      Sent u t { vc := if p.vc = 0 then 0 else respVc p.guar, ovc := 0, rmode := s.answerMode p, dst := p.src, src := 0, tag := p.tag, tkind := 15
                 last := true, guar := p.guar, code := st, dq := p.sq, sq := p.dq % 2 ^ 18, psn := p.psn, data := p.tkind }
        ∧ (st = 6 → t.regN (.quay quay) 0x150 = (s.regN (.quay quay) 0x150 + 1) % 2 ^ 64)
        ∧ Only s t { s with regs := t.regs, ports := t.ports, arrived := t.arrived, draws := t.draws } (at_ (.quay quay) 0x150 :: sendKeys)

/-- The answers to a queue's requests (12 R320, R321, R324, R325). GET_RESP writes its data at LOCAL and ends the GET with the last; ATOMIC_RESP stores the
fetched value and ends the operation; ACK ends the operations that it covers with the peer's stamp; GRANT keeps the highest; ERROR ends the operation
with the status that it carries. -/
def Sys2Proof.Claims.AnswersEndOperations : Prop :=
  ∀ (s u : State) (quay : Fin 2) (p : Packet),
    let q := p.dq % 2 ^ 18
    let r := s.quayQueue q
    let alone := fun (t : State) => OtherQueues s t q ∧ Only s t { s with quays := t.quays, arrived := u.arrived } []
    (∀ o, Takes s quay 3 p u → (r.ops.find? fun o => o.owns p.psn && wrOpcode o.request == 2) = some o → o.got.contains p.psn = false →
        let a := wrLocal o.request + 4096 * diff32 p.psn o.firstPsn
        Live s a p.payload.length →
      Runs (.getRespReceive quay) s fun t =>
        t.bytesAt a p.payload.length = p.payload
          ∧ (t.quayQueue q).ops = r.ops.map (fun x => if x.index = o.index then
              (let y := { o with got := o.got ++ [p.psn], poison := o.poison || p.poison }
               if y.got.length = wrPackets o.request then { y with status := some y.okStatus, stamp := s.now, tideQ := s.tideQ } else y) else x)
          ∧ OtherQueues s t q
          ∧ Stores s t { s with regs := t.regs, quays := t.quays, arrived := u.arrived, mem := t.mem, poison := t.poison, channels := t.channels, reports := t.reports } memKeys
              a p.payload.length)
    ∧ (∀ o, Takes s quay 6 p u → (r.ops.find? fun o => o.owns p.psn && wrOpcode o.request == 4 && wrFetch o.request) = some o →
        let n := wrAsize o.request
        Live s (wrLocal o.request) n →
      Runs (.atomicRespReceive quay) s fun t =>
        t.bytesAt (wrLocal o.request) n = leBytes n p.data
          ∧ (∃ y, (t.quayQueue q).ops = r.ops.map (fun x => if x.index = o.index then y else x)
              ∧ y.status = some (if o.poison || p.poison then 3 else 0) ∧ y.result = p.data % 2 ^ (8 * n) ∧ y.stamp = s.now)
          ∧ OtherQueues s t q
          ∧ Stores s t { s with regs := t.regs, quays := t.quays, arrived := u.arrived, mem := t.mem, poison := t.poison, channels := t.channels, reports := t.reports } memKeys
              (wrLocal o.request) n)
    ∧ (Takes s quay 7 p u → Owned s q → r.state ≠ 0 → p.psn < 2 ^ 32 → diff32 p.psn r.txAcked ≠ 0 →
        diff32 p.psn r.txAcked ≤ diff32 r.txPsn r.txAcked →
      Runs (.ackReceive quay) s fun t =>
        (t.quayQueue q).txAcked = p.psn ∧ (t.quayQueue q).retries = 0 ∧ (t.quayQueue q).progress = s.clock
          ∧ (t.quayQueue q).ops = r.ops.map (fun o =>
              if o.status.isNone && o.byAck && decide (diff32 o.endPsn p.psn = 0 ∨ 2 ^ 31 ≤ diff32 o.endPsn p.psn) then
                { o with status := some o.okStatus, stamp := p.addr, tideQ := p.data % 2 == 1 } else o)
          ∧ alone t)
    ∧ (Takes s quay 9 p u → Owned s q → r.state ≠ 0 → p.addr < 2 ^ 64 →
      Runs (.grantReceive quay) s fun t => (t.quayQueue q).txGranted = (if diff64 p.addr r.txGranted < 2 ^ 63 then p.addr else r.txGranted) ∧ alone t)
    ∧ (∀ o, Takes s quay 15 p u → p.data < 11 → (r.ops.find? fun o => o.owns p.psn) = some o →
        (r.ops.filter fun x => x.index == o.index) = [o] → o.admitted = false →
      Runs (.errorReceive quay) s fun t =>
        (t.quayQueue q).ops = r.ops.map (fun x => if x.index = o.index then
            { o with status := some p.code, stamp := s.now, tideQ := s.tideQ } else x)
          ∧ OtherQueues s t q ∧ Only s t { s with regs := t.regs, quays := t.quays, arrived := u.arrived } [at_ (.quay (quayOf q)) 0x128])

/-- Retransmission (12 R324), on a NAK or once RTO_US has passed without progress: one more try, or, after the seventh, PEER_LOST for the oldest
operation and Q_PEER. GAP_NAK, ACK_TIMER and GRANT_TIMER (12 R324, R325) send NAK, ACK and GRANT to the known peer. -/
def Sys2Proof.Claims.TimersOfQueues : Prop :=
  (∀ (s u : State) (quay : Fin 2) (q : Fin 262144) (c : Instr) (o : QuayOp),
    (c = .retransmitTimeout q ∧ u = s ∧ (s.quayQueue q).state ≠ 0 ∧ s.safe = false
        ∧ (s.quayQueue q).progress + (s.quayQueue q).fld 6 2 * 1000 ≤ s.clock
      ∨ c = .nakReceive quay ∧ ∃ p, Takes s quay 8 p u ∧ q.val = p.dq % 2 ^ 18) →
    ((s.quayQueue q).ops.find? fun o => o.status.isNone && wrPackets o.request != 0) = some o →
    ((s.quayQueue q).retries < 7 →
      Runs c s fun t =>
        (t.quayQueue q).retries = (s.quayQueue q).retries + 1 ∧ (t.quayQueue q).progress = s.clock ∧ OtherQueues s t q
          ∧ Only s t { s with regs := t.regs, quays := t.quays, arrived := t.arrived, ports := t.ports, ranks := t.ranks, draws := t.draws, reports := t.reports }
              (at_ (.quay (quayOf q)) 0x128 :: at_ (.quay (quayOf q)) 0x138 :: sendKeys))
    ∧ (7 ≤ (s.quayQueue q).retries →
      Runs c s fun t =>
        (t.quayQueue q).ops = (s.quayQueue q).ops.map (fun x => if x.index = o.index then
            { o with status := some 7, stamp := s.now, tideQ := s.tideQ } else x)
          ∧ t.reports = s.reports ++ [{ source := 0x19, domain := none, detail := q, tide := s.now }] ∧ OtherQueues s t q
          ∧ Only s t { s with quays := t.quays, arrived := u.arrived, reports := t.reports } []))
  ∧ (∀ (s : State) (q : Fin 262144) (dst : Nat), Owned s q → (s.quayQueue q).state ≠ 0 → s.safe = false → (s.peerOf q).1 = some dst →
    let r := s.quayQueue q
    let control := fun (kind psn addr data : Nat) =>
      { r.packet q dst kind psn with vc := respVc r.guaranteed, last := true, addr := addr, data := data }
    let frame := fun (t : State) => OtherQueues s t q
      ∧ Only s t { s with regs := t.regs, quays := t.quays, arrived := t.arrived, ports := t.ports, ranks := t.ranks, draws := t.draws }
          (at_ (.quay (quayOf q)) 0x158 :: sendKeys)
    (∀ g, r.gapFrom = some g → g + 5000 ≤ s.clock →
      Runs (.gapNak q) s fun t => Sent s t (control 8 r.rxPsn 0 0) ∧ (t.quayQueue q).gapFrom = some s.clock ∧ frame t)
    ∧ (∀ a, r.ackFrom = some a → 64 ≤ r.unacked ∨ a + 5000 ≤ s.clock →
      Runs (.ackTimer q) s fun t =>
        Sent s t (control 7 r.rxPsn r.stamp (if s.tideQ then 1 else 0)) ∧ (t.quayQueue q).unacked = 0 ∧ (t.quayQueue q).ackFrom = none ∧ frame t)
    ∧ (r.winBytes / 8 ≤ r.ungranted ∨ (∃ f, r.freeFrom = some f ∧ f + 2000 ≤ s.clock) ∨ r.granted + 100_000 ≤ s.clock →
      Runs (.grantTimer q) s fun t =>
        let g := (r.rxFreed + r.winBytes) % 2 ^ 64
        Sent s t (control 9 0 g 0) ∧ (t.quayQueue q).rxGranted = g ∧ (t.quayQueue q).freeFrom = none ∧ (t.quayQueue q).granted = s.clock ∧ frame t))

/-- CALENDAR_PERIOD_START (12 R331): without a commit whose period has come, only the books of slots that have passed are dropped; with one, on a node whose
queues hold no operation, the committed calendar is in force. RANK_FLUSH (12 R335) drops the quay's cached rank entries. -/
def Sys2Proof.Claims.CalendarAndRanks : Prop :=
  (∀ (s : State) (quay : Fin 2),
    let b := Block.calendar quay
    let vs := captured s b
    (s.commitPending b = false ∨ s.atBoundary b = false →
      Runs (.calendarPeriodStart quay) s fun t =>
        (∀ k, Tab.get 0 t.booked k = if k / 16 * 25 + 25 ≤ s.now then 0 else Tab.get 0 s.booked k) ∧ Only s t { s with booked := t.booked } [])
    ∧ (s.commitPending b = true → s.atBoundary b = true → s.quays = [] → (vs.map (·.1)).Nodup →
      Runs (.calendarPeriodStart quay) s fun t =>
        t.commitPending b = false ∧ (∀ e ∈ vs, t.getReg e.1 = e.2)
          ∧ Only s t { s with regs := t.regs, commits := t.commits, booked := t.booked } (vs.map (·.1))))
  ∧ (∀ (s : State) (quay : Fin 2),
    Runs (.rankFlush quay) s fun t =>
      (∀ k, Tab.get 0 t.ranks k = if k / 2 ^ 19 = quay.val then 0 else Tab.get 0 s.ranks k) ∧ Only s t { s with ranks := t.ranks, answer := t.answer } [])

/-- TRAY_REQUEST to another node (12 R336, R340): with a live route a request is outstanding and its packet sent, the requester waiting but for a PD hart's
posted store; with none, or to a node marked dead, it ends as dead at once: a load reads all ones, poisoned, and TRAY_DEAD is raised. A load of the node's
own memory is performed here. -/
def Sys2Proof.Claims.TrayRequestsIssued : Prop :=
  ∀ (s : State) (w : Sender) (addr : Nat) (op : TrayOp), w.endpoint.val ≤ 320 → addr.testBit 47 = true →
    (s.pilotWaits w.endpoint.val && !w.host) = false →
    let c := trayCall addr op
    let node := bits addr 44 3
    (s.ownTray addr = false → ∀ port, s.trayRoute node = some port → s.trayRoom (port / 8) = true →
      bit (s.reg (.quay (port / 8)) 0x038) node = false →
      let vt := s.trayVcTag (port / 8) w false
      Runs (.trayRequest w addr op) s fun t =>
        t.tray = s.tray ++ [{ id := s.trayNext, owner := .requester w, target := node, addr := addr, kind := c.kind, since := s.clock, vc := vt.1
                              quay := port / 8, size := c.size, deadNs := s.fldAt (.quay (port / 8)) 0x000 0 19 }]
          ∧ t.trayNext = s.trayNext + 1
          ∧ t.answer = { status := if 256 ≤ w.endpoint.val ∧ w.endpoint.val < 320 ∧ c.kind = 1 then 0 else 4 }
          ∧ Sent s t (trayPacket c (port / 8) s.trayNext vt.1 vt.2 (s.trayNgi node) (senderCode w))
          ∧ Only s t { s with regs := t.regs, tray := t.tray, trayNext := t.trayNext, ports := t.ports, arrived := t.arrived, draws := t.draws, answer := t.answer }
              sendKeys)
    ∧ (s.ownTray addr = false → s.trayRoute node = none → s.ckpt = none → w.endpoint.val = 320 →
      Runs (.trayRequest w addr op) s fun t =>
        t.answer = (if c.kind = 0 then { status := 3, data := List.replicate c.size 0xFF, poison := true } else { status := 3 })
          ∧ bit (t.reg (.quay 0) 0x038) node = true
          ∧ t.reports = s.reports ++ [{ source := 0x1C, domain := none, detail := trayDetail node 0 c.kind, tide := s.now }]
          ∧ Only s t { s with regs := t.regs, reports := t.reports, answer := t.answer }
              [at_ (.quay 0) 0x038, at_ (.quay 0) 0x140, at_ (.quay 0) 0x040])
    ∧ (∀ n, s.ownTray addr = true → op = .load n → n ≠ 0 → Live s (addr % 2 ^ 44) n → s.hbmWaits (addr % 2 ^ 44) n = false →
      Runs (.trayRequest w addr op) s fun t =>
        t.answer = { status := 0, data := s.bytesAt (addr % 2 ^ 44) n, poison := s.linePoison (addr % 2 ^ 44) n }
          ∧ OnlyRead s t { s with answer := t.answer } [])

/-- TRAY_LD, TRAY_ST and TRAY_AMO at live HBM of the target (12 R336–R338), under its TRAY_TAG: the data read is sent back; the bytes are stored and
acknowledged; the operation is performed and the old value sent back. Under another tag ERROR status 6 answers and nothing is written. -/
def Sys2Proof.Claims.TrayRequestsPerformed : Prop :=
  ∀ (s u : State) (quay : Fin 2) (p : Packet),
    let a := p.addr % 2 ^ 44
    let answer := fun (data : List Byte) (poison : Bool) =>
      { vc := if p.vc = 0 then 0 else 6, ovc := 0, rmode := 1, dst := p.src, src := 0, tag := p.tag, tkind := 14, last := true
        poison := poison, dq := p.dq % 2 + 2 * data.length, sq := p.sq, psn := p.psn, addr := p.addr, payload := data : Packet }
    let fields := fun (t : State) =>
      { s with regs := t.regs, mem := t.mem, poison := t.poison, channels := t.channels, reports := t.reports, arrived := t.arrived, ports := t.ports, draws := t.draws }
    (s.trayTagOk quay p = true →
      (Takes s quay 11 p u → p.data ≠ 0 → Live s a p.data →
        Runs (.trayLd quay) s fun t =>
          Sent u t (answer (s.bytesAt a p.data) (s.linePoison a p.data)) ∧ Only s t (fields t) (sendKeys ++ memKeys))
      ∧ (let bytes := storeData p
         Takes s quay 12 p u → bytes ≠ [] → Live s a bytes.length →
        Runs (.traySt quay) s fun t =>
          t.bytesAt a bytes.length = bytes ∧ Sent u t (answer [] false)
            ∧ Stores s t (fields t) (sendKeys ++ memKeys) a bytes.length)
      ∧ (let n := if p.code.testBit 4 then 8 else 4
         Takes s quay 13 p u → a % n = 0 → Live s a n → s.linePoison a n = false → p.poison = false →
         Runs (.trayAmo quay) s fun t =>
          t.bytesAt a n = leBytes n (amoResult (p.code % 16) n (leNat (s.bytesAt a n)) p.data (leNat (p.payload.take 8)))
            ∧ Sent u t (answer (s.bytesAt a n) false) ∧ Stores s t (fields t) (sendKeys ++ memKeys) a n))
    ∧ (∀ c, s.trayTagOk quay p = false →
        (c, p.tkind) ∈ [(Instr.trayLd quay, 11), (Instr.traySt quay, 12), (Instr.trayAmo quay, 13)] → Takes s quay p.tkind p u →
      Runs c s fun t =>
        Sent u t { vc := if p.vc = 0 then 0 else respVc p.guar, ovc := 0, rmode := 1, dst := p.src, src := 0, tag := p.tag, tkind := 15
                   last := true, guar := p.guar, code := 6, dq := p.dq, sq := p.dq % 2 ^ 18, psn := p.psn, data := p.tkind }
          ∧ Only s t { s with regs := t.regs, ports := t.ports, arrived := t.arrived, draws := t.draws } (at_ (.quay quay) 0x150 :: sendKeys))

/-- TRAY_RESP (12 R337) completes the access with its data; TRAY_ERR (12 R339) ends a store of the harbourmaster with ERROR, raising TRAY_ERR and capturing
TRAY_CAP; TRAY_DEAD (12 R340, R341) ends one that has waited the DEAD_NS it started under and marks the node dead. HOST_REQUEST (14 R387) of a load from another node of the tray
is issued on the host's behalf; what is no tray request gets ERROR. -/
def Sys2Proof.Claims.TrayAccessesEnd : Prop :=
  (∀ (s u : State) (quay : Fin 2) (p : Packet) (r : TrayReq) (w : Sender), s.takeTray p.psn = some r → r.owner = .requester w →
    (Takes s quay 14 p u →
      Runs (.trayResp quay) s fun t =>
        t.answer = { status := 0, data := p.payload, poison := p.poison } ∧ t.tray = s.tray.filter (fun x => x.id != r.id)
          ∧ Only s t { s with tray := t.tray, arrived := u.arrived, answer := t.answer } [])
    ∧ (Takes s quay 15 p u → 11 ≤ p.data → r.kind ≠ 0 → w.endpoint.val = 320 →
      Runs (.trayErr quay) s fun t =>
        t.answer = { status := 2 } ∧ t.tray = s.tray.filter (fun x => x.id != r.id)
          ∧ t.reports = s.reports ++ [{ source := 0x1B, domain := none, detail := trayDetail r.target quay 3, tide := s.now }]
          ∧ (s.bitAt (.quay quay) 0x040 63 = false → t.fldAt (.quay quay) 0x040 0 48 = r.addr % 2 ^ 48 ∧ t.bitAt (.quay quay) 0x040 63 = true)
          ∧ Only s t { s with regs := t.regs, tray := t.tray, arrived := u.arrived, reports := t.reports, answer := t.answer } [at_ (.quay quay) 0x040])
    ∧ (r.quay = quay.val → r.since + r.deadNs ≤ s.clock → s.ckpt = none → w.endpoint.val = 320 →
      Runs (.trayDead quay p.psn) s fun t =>
        t.answer.status = 3 ∧ (r.kind = 0 → t.answer.data = List.replicate r.size 0xFF ∧ t.answer.poison = true)
          ∧ t.tray = s.tray.filter (fun x => x.id != p.psn) ∧ bit (t.reg (.quay quay) 0x038) (r.target % 8) = true
          ∧ t.reports = s.reports ++ [{ source := 0x1C, domain := none, detail := trayDetail r.target quay r.kind, tide := s.now }]
          ∧ Only s t { s with regs := t.regs, tray := t.tray, reports := t.reports, answer := t.answer }
              [at_ (.quay quay) 0x038, at_ (.quay quay) 0x140, at_ (.quay quay) 0x040]))
  ∧ (∀ (s : State) (p : Packet) (rest : List Packet), s.hostIn = p :: rest → s.safe = false → s.quayHeld 1 = false →
    (p.tkind < 11 ∨ 13 < p.tkind ∨ p.addr.testBit 47 = false →
      Runs .hostRequest s fun t =>
        t.hostIn = rest
          ∧ (∃ k, (t.port 15).egress = (s.port 15).egress ++ [{ pkt := k, port := 16, since := s.clock }] ∧ k.tkind = 15 ∧ k.code = 2 ∧ k.psn = p.psn
              ∧ k.vc = (if p.vc = 0 then 0 else 6))
          ∧ Only s t { s with hostIn := t.hostIn, ports := t.ports } [])
    ∧ (∀ port, p.tkind = 11 → p.addr.testBit 47 = true → p.addr < 2 ^ 48 → s.ownTray p.addr = false → s.trayRoom 1 = true →
        s.trayRoute (bits p.addr 44 3) = some port → bit (s.reg (.quay (port / 8)) 0x038) (bits p.addr 44 3) = false →
      Runs .hostRequest s fun t =>
        t.hostIn = rest ∧ t.trayNext = s.trayNext + 1
          ∧ (∃ r, t.tray = s.tray ++ [r] ∧ r.owner = .hostBridge p ∧ r.addr = p.addr ∧ r.kind = 0 ∧ r.size = p.data ∧ r.since = s.clock
                ∧ r.deadNs = s.fldAt (.quay (port / 8)) 0x000 0 19)
          ∧ Only s t { s with regs := t.regs, hostIn := t.hostIn, tray := t.tray, trayNext := t.trayNext, ports := t.ports, arrived := t.arrived, draws := t.draws }
              sendKeys))

/-- The life of a quay queue: QCTL commands, bells and the staging window. Where the spec leaves a point open it follows the model's choices of log entries 26 and 81. -/
def Obligations.QueueLife : Prop :=
  Claims.QueueEnabled ∧ Claims.QueueStatesFollowQctl ∧ Claims.QueueBells

/-- Operations of a quay queue start, are admitted, and end with a record. Where the spec leaves a point open it follows the model's choices of log entries 22, 26 and 31. -/
def Obligations.QueueOperations : Prop :=
  Claims.OperationsStart ∧ Claims.OperationsAdmittedAndRecorded

/-- Requests that arrive for a queue are performed or refused. Where the spec leaves a point open it follows the model's choices of log entries 20, 24, 26 and 82. -/
def Obligations.QueueRequests : Prop :=
  Claims.RequestsPerformed ∧ Claims.RequestsRefused

/-- Answers, retransmission, timers and the calendar of the quays. Where the spec leaves a point open it follows the model's choices of log entries 25 and 28. -/
def Obligations.QueueAnswersAndTimers : Prop :=
  Claims.AnswersEndOperations ∧ Claims.TimersOfQueues ∧ Claims.CalendarAndRanks

/-- Tray accesses: issued, performed and ended. Where the spec leaves a point open it follows the model's choices of log entries 20 and 27. -/
def Obligations.TrayAccesses : Prop :=
  Claims.TrayRequestsIssued ∧ Claims.TrayRequestsPerformed ∧ Claims.TrayAccessesEnd

/-! ## Trigger counters and collectives (13) -/

/-- The quay owns the group's context (13 R348). -/
def Sys2Proof.Claims.OwnedGroup (s : State) (g : Nat) : Prop := (s.group g).context.length = 256

/-- Every group but one holds what it held. -/
def Sys2Proof.Claims.OtherGroups (s t : State) (g : Nat) : Prop := ∀ k, k ≠ g → t.group k = s.group k

/-- TRIGGER_ADD (13 R344, R346): the first add on its way is added to its counter modulo 2^32 where the counter's block is enabled; to a
disabled block it is discarded, counted in TRIG_DROPS and captured. -/
def Sys2Proof.Claims.TriggerAddApplies : Prop :=
  ∀ (s : State) (a : TriggerAdd) (rest : List TriggerAdd), takeAdd s s.adds = some (a, rest) → s.safe = false →
    s.domainState (464 + a.counter / 65536 % 2) = 0 →
    (s.trigEnabled a.counter = true →
      Runs .triggerAdd s fun t =>
        t.trigCtr a.counter = (s.trigCtr a.counter + a.inc) % 2 ^ 32 ∧ t.adds = rest
          ∧ Only s t { s with regs := t.regs, adds := t.adds } [at_ (ctrBlock a.counter) (ctrOff a.counter)])
    ∧ (s.trigEnabled a.counter = false →
      Runs .triggerAdd s fun t =>
        t.fldAt (ctrBlock a.counter) 0x050 0 32 = min (s.fldAt (ctrBlock a.counter) 0x050 0 32 + 1) (2 ^ 32 - 1) ∧ t.adds = rest
          ∧ (s.bitAt (ctrBlock a.counter) 0x058 63 = false → a.counter < 2 ^ 17 → a.tag < 2 ^ 16 → a.source < 4 →
              t.bitAt (ctrBlock a.counter) 0x058 63 = true ∧ t.fldAt (ctrBlock a.counter) 0x058 0 17 = a.counter
                ∧ t.fldAt (ctrBlock a.counter) 0x058 32 16 = a.tag)
          ∧ Only s t { s with regs := t.regs, adds := t.adds } [at_ (ctrBlock a.counter) 0x050, at_ (ctrBlock a.counter) 0x058])

/-- The fields of GCTL_STATUS after a command (13 Table 13-14). -/
def Sys2Proof.Claims.GctlShows (t : State) (g cmd : Nat) (done refused : Bool) (cause : Nat) : Prop :=
  let b := Block.collective (groupQuay g)
  t.fldAt b 0x018 0 12 = g ∧ t.fldAt b 0x018 12 3 = cmd ∧ t.bitAt b 0x018 15 = done ∧ t.bitAt b 0x018 16 = refused
    ∧ t.fldAt b 0x018 17 3 = cause

/-- The life of a group (13 R351, R369). ARM of a DISABLED or QUIESCED group whose context and tables pass every check makes it ARMING; the ARM_MARK makes it
ACTIVE; QUIESCE ends its operation and discards what waits; DISABLE gives the context up. A refused command shows its cause and changes nothing else. -/
def Sys2Proof.Claims.GroupStates : Prop :=
  ∀ (s : State) (g : Fin 4096), s.domainState (464 + groupQuay g) = 0 →
    let m := s.memRead (s.grpAddr g) 256
    let st := (s.group g).state
    let refused := fun (c : Instr) (cmd cause : Nat) => Runs c s fun t =>
      GctlShows t g cmd false true cause ∧ Only s t { s with regs := t.regs, answer := t.answer } [at_ (.collective (groupQuay g)) 0x018]
    (s.limited = false → st = 0 ∨ st = 4 → m.ok = true → m.poison = false → s.armCause g m.data = 0 →
      Runs (.arm g) s fun t =>
        OwnedGroup t g ∧ (t.group g).state = 1 ∧ (t.group g).op = none ∧ (t.group g).staging = []
          ∧ (∀ off, 1 ≤ off → off < 136 → byteFld (t.group g).context off 1 = byteFld m.data off 1)
          ∧ (∀ off, 136 ≤ off → off < 256 → byteFld (t.group g).context off 1 = 0) ∧ GctlShows t g 1 true false 0 ∧ OtherGroups s t g
          ∧ t = { s with regs := t.regs, groups := t.groups, mem := t.mem, poison := t.poison, channels := t.channels, reports := t.reports, answer := t.answer })
    ∧ (s.limited = true ∨ (st ≠ 0 ∧ st ≠ 4) → refused (.arm g) 1 7)
    ∧ (s.limited = false → st = 0 ∨ st = 4 → m.ok = true → m.poison = false → s.armCause g m.data ≠ 0 →
        refused (.arm g) 1 (s.armCause g m.data))
    ∧ (OwnedGroup s g → st = 1 → (s.group g).fld 128 8 ≤ s.now →
      Runs (.groupActivate g) s fun t =>
        (t.group g).state = 2 ∧ OtherGroups s t g
          ∧ t = { s with regs := t.regs, groups := t.groups, mem := t.mem, poison := t.poison, channels := t.channels, reports := t.reports, ports := t.ports, arrived := t.arrived, draws := t.draws })
    ∧ (OwnedGroup s g → st = 1 ∨ st = 2 ∨ st = 3 →
      Runs (.quiesce g) s fun t =>
        (t.group g).state = 4 ∧ (t.group g).op = none ∧ (t.group g).staging = [] ∧ (t.group g).ready = [] ∧ (t.group g).inFlight = []
          ∧ (t.group g).held = [] ∧ (t.group g).sqHead = (t.group g).sqTail ∧ GctlShows t g 2 true false 0 ∧ OtherGroups s t g
          ∧ t = { s with regs := t.regs, groups := t.groups, adds := t.adds, mem := t.mem, poison := t.poison, channels := t.channels, reports := t.reports, answer := t.answer })
    ∧ (st = 0 ∨ st = 4 → refused (.quiesce g) 2 7)
    ∧ (st = 4 →
      Runs (.disable g) s fun t =>
        t.group g = {} ∧ GctlShows t g 3 true false 0 ∧ OtherGroups s t g
          ∧ t = { s with regs := t.regs, groups := t.groups, mem := t.mem, poison := t.poison, channels := t.channels, reports := t.reports, answer := t.answer })
    ∧ (st ≠ 4 → refused (.disable g) 3 7)

/-- The group bells (13 R352): SQ_TAIL and CQ_HEAD are taken within the limits of 12 R314. STEP_WINDOW_END (13 R367) voids the promise of an operation whose
incoming data is not there. GROUP_STAT_WRITEBACK (13 R348) writes the quay's bytes of an ACTIVE group's context every 10 µs. -/
def Sys2Proof.Claims.GroupBellsAndWindows : Prop :=
  ∀ (s : State) (g : Fin 4096), OwnedGroup s g →
    let r := s.group g
    (∀ i : BitVec 32,
      (diff32 i.toNat r.cqHead ≤ r.sqN → Runs (.groupBellSqTail g i) s fun t =>
        (t.group g).sqTail = i.toNat ∧ t.group g = r.put 136 4 i.toNat ∧ OtherGroups s t g
          ∧ Only s t { s with groups := t.groups, answer := t.answer } [])
      ∧ (r.sqN < diff32 i.toNat r.cqHead → Runs (.groupBellSqTail g i) s fun t => t = s.answers 0)
      ∧ (diff32 i.toNat r.cqHead ≤ diff32 r.cqTail r.cqHead → Runs (.groupBellCqHead g i) s fun t =>
        (t.group g).cqHead = i.toNat ∧ t.group g = r.put 148 4 i.toNat ∧ OtherGroups s t g
          ∧ Only s t { s with groups := t.groups, answer := t.answer } []))
    ∧ (∀ o, r.op = some o → o.promised = true → o.awaiting ≠ [] → stepEnd r o (s.ringSteps r o.request) ≤ s.now →
      Runs (.stepWindowEnd g) s fun t =>
        t.group g = { r with op := some { o with void := 8 } } ∧ OtherGroups s t g
          ∧ t.regN (.quay (groupQuay g)) 0x128 = (s.regN (.quay (groupQuay g)) 0x128 + 1) % 2 ^ 64
          ∧ Only s t { s with regs := t.regs, groups := t.groups } [at_ (.quay (groupQuay g)) 0x128])
    ∧ (r.state = 2 → r.written + 10_000 ≤ s.clock → s.safe = false → Live s (s.grpAddr g + 136) 120 →
      Runs (.groupStatWriteback g) s fun t =>
        t.bytesAt (s.grpAddr g + 136) 120 = r.context.drop 136 ∧ t.group g = { r with written := s.clock } ∧ OtherGroups s t g
          ∧ Stores s t { s with regs := t.regs, groups := t.groups, mem := t.mem, poison := t.poison, channels := t.channels, reports := t.reports } memKeys
              (s.grpAddr g + 136) 120)

/-- The command that starts a collective of an operation code (13 Table 13-7). -/
def Sys2Proof.Claims.collOf (g : Fin 4096) : Nat → Instr
  | 2 => .reduceScatter g
  | 3 => .allgather g
  | 4 => .broadcast g
  | 5 => .alltoall g
  | 6 => .alltoallv g
  | 7 => .gather g
  | 8 => .gatherv g
  | 9 => .scatter g
  | 10 => .scatterv g
  | _ => .allreduce g

/-- The group's head request may start and keeps R354. -/
def Sys2Proof.Claims.CollReady (s : State) (g : Nat) (d : List Byte) : Prop :=
  OwnedGroup s g ∧ s.collReady g (s.collHead g) = true ∧ (s.collHead g).ok = true ∧ (s.collHead g).poison = false ∧ d = (s.collHead g).data
    ∧ cqOk (s.group g) d = true ∧ s.cqMapped (s.group g) d = true ∧ (cqWait d = true → s.trigEnabled (byteFld d 60 4) = true)

/-- Every collective (13 R352–R355): the head request of an ACTIVE group is taken, the operation runs with the next OPSEQ, and no other group changes. A request
that cannot be read ends with status 2, a poisoned one with status 1. -/
def Sys2Proof.Claims.CollectivesStart : Prop :=
  (∀ (s : State) (g : Fin 4096) (d : List Byte), CollReady s g d →
    Runs (collOf g (cqOp d)) s fun t =>
      (t.group g).sqHead = ((s.group g).sqHead + 1) % 2 ^ 32 ∧ (t.group g).opseq = ((s.group g).opseq + 1) % 2 ^ 32
        ∧ (∃ o, (t.group g).op = some o ∧ o.index = (s.group g).sqHead ∧ o.request = d ∧ o.start = s.now) ∧ OtherGroups s t g
        ∧ t = { s with regs := t.regs, groups := t.groups, mem := t.mem, poison := t.poison, channels := t.channels, reports := t.reports, ports := t.ports, arrived := t.arrived, draws := t.draws, booked := t.booked })
  ∧ (∀ (s : State) (g : Fin 4096) (st : Nat), OwnedGroup s g → s.collReady g (s.collHead g) = true →
    ((s.collHead g).ok = false ∧ st = 2 ∨ (s.collHead g).ok = true ∧ (s.collHead g).poison = true ∧ st = 1) → (s.group g).staging = [] →
    Runs (.allreduce g) s fun t =>
      (∃ o, (t.group g).op = some o ∧ o.status = some st) ∧ OtherGroups s t g ∧ Only s t { s with groups := t.groups } [])

/-- Collectives of a group of one member (13 R352, R357, Table 13-7): ALLREDUCE of one element leaves the converted element at DST where no level codes it in another
format, and else the decoded value of its coded value; ALLTOALL, GATHER and SCATTER copy the member's own block; each is done at once, with status 0. -/
def Sys2Proof.Claims.CollectivesOfOneMember : Prop :=
  ∀ (s : State) (g : Fin 4096) (d : List Byte), CollReady s g d → (s.group g).class1 = false → (s.group g).staging = [] → (s.group g).ready = [] →
    let ended := fun (t : State) => ∃ o, (t.group g).op = some o ∧ o.status = some 0 ∧ o.stamp = s.now
    let fields := fun (t : State) => { s with regs := t.regs, groups := t.groups, mem := t.mem, poison := t.poison, channels := t.channels, reports := t.reports }
    (cqOp d = 1 → cqCount d = 1 →
        (∀ x ∈ s.rings (s.group g), x.n = 1 ∧ (wireFmt (s.group g) d x.level).same (cqOut d) = true) → Live s (cqDst d) (cqOut d).size →
      Runs (.allreduce g) s fun t =>
        t.bytesAt (cqDst d) (cqOut d).size = leBytes (cqOut d).size (s.ownElem d 0).code ∧ ended t
          ∧ Stores s t (fields t) memKeys (cqDst d) (cqOut d).size)
    ∧ (∀ x : Ring, cqOp d = 1 → cqCount d = 1 → s.rings (s.group g) = [x] → x.n = 1 → x.level = 0 →
        let f := wireFmt (s.group g) d 0
        let block := (s.group g).lvlBlock 0
        let out := cqOut d
        f.same out = false → Live s (cqDst d) out.size →
      Runs (.allreduce g) s fun t =>
        t.bytesAt (cqDst d) out.size
            = leBytes out.size ((decodeElems f out block (encodeElems out f block s.draw16 [(s.ownElem d 0).code]).1).1.headD 0)
          ∧ ended t ∧ Stores s t { fields t with draws := t.draws } memKeys (cqDst d) out.size)
    ∧ (cqOp d = 5 ∨ cqOp d = 7 ∨ cqOp d = 9 → (s.group g).n = 1 → (s.group g).rank = 0 →
        let n := (cqOut d).size * cqCount d
        Live s (cqSrc d) n → Live s (cqDst d) n →
      Runs (collOf g (cqOp d)) s fun t =>
        t.bytesAt (cqDst d) n = s.bytesAt (cqSrc d) n ∧ ended t ∧ Stores s t (fields t) memKeys (cqDst d) n)

/-- A packet that names an ACTIVE group of this quay as its member sends it: group, epoch, tag and rank (13 R351). -/
def Sys2Proof.Claims.OfGroup (s : State) (p : Packet) (g rank : Nat) : Prop :=
  g = p.dq % 4096 ∧ rank = p.sq % 2 ^ 18 ∧ OwnedGroup s g ∧ (s.group g).state = 2 ∧ bits p.dq 12 4 = (s.group g).epoch
    ∧ p.tag = (s.group g).fld 2 2 ∧ rank < (s.group g).n

/-- CHUNK and C_COUNT (13 R350, R351, R355, R361, R362, 12 R324): a packet of a group that is not ACTIVE, or of another epoch, is discarded and counted in CL_STRAY; the
next in order for the operation to come waits, a chunk with its payload in its level's staging area, and RX_PSN advances. A LAST packet, or the 64th not acknowledged,
sends a C_ACK; any other sends nothing. The place in the staging area is the model's choice (log entry 85). -/
def Sys2Proof.Claims.CollectivePacketsLand : Prop :=
  ∀ (s u : State) (quay : Fin 2) (p : Packet) (c : Instr), (c, p.tkind) ∈ [(Instr.chunk quay, 16), (Instr.cCount quay, 19)] →
    Takes s quay p.tkind p u → s.chunkWaits quay = false →
    ((s.group (p.dq % 4096)).state ≠ 2 ∨ bits p.dq 12 4 ≠ (s.group (p.dq % 4096)).epoch →
      Runs c s fun t =>
        t.fldAt (.collective quay) 0x060 0 32 = min (s.fldAt (.collective quay) 0x060 0 32 + 1) (2 ^ 32 - 1)
          ∧ Only s t { s with regs := t.regs, arrived := u.arrived } [at_ (.collective quay) 0x060])
    ∧ (∀ g rank, OfGroup s p g rank → (s.group g).op = none → (s.group g).held = [] → p.sq < 2 ^ 18 →
        p.psn = s.connN (s.group g) rank 16 4 → (bits p.dq 16 8 + 256 - (s.group g).opseq % 256) % 256 = 1 →
        let r := s.group g
        let a := r.conn rank 16
        let n := if p.tkind = 16 then p.payload.length else 0
        let place := if p.tkind = 16 then r.stagePlace (p.code % 4) n else 0
        let answers := p.last = true ∨ 64 ≤ (r.link rank).unacked + 1
        Live s a 4 → Live s place n → place + n ≤ r.conn rank 0 ∨ r.conn rank 64 ≤ place →
      Runs c s fun t =>
        t.bytesAt a 4 = leBytes 4 ((p.psn + 1) % 2 ^ 32) ∧ (p.tkind = 16 → t.bytesAt place n = p.payload)
          ∧ (t.group g).staging = r.staging ++ [{ source := rank, pkt := p, poison := p.poison, addr := place }] ∧ (t.group g).held = []
          ∧ OtherGroups s t g ∧ RegsBut s t (sendKeys ++ memKeys)
          ∧ (∀ b, (b < place ∨ place + n ≤ b) → (b < a ∨ a + 4 ≤ b) → t.byteAt b = s.byteAt b)
          ∧ t = { s with regs := t.regs, groups := t.groups, mem := t.mem, poison := t.poison, channels := t.channels, reports := t.reports, arrived := t.arrived, ports := t.ports, draws := t.draws }
          ∧ (answers → ((t.group g).link rank).unacked = 0
              ∧ Sent u t { s.collPacket g r rank 17 r.opseq with psn := (p.psn + 1) % 2 ^ 32, addr := s.now, last := true })
          ∧ (¬answers → ((t.group g).link rank).unacked = (r.link rank).unacked + 1 ∧ t.ports = s.ports ∧ t.arrived = u.arrived ∧ t.draws = s.draws))

/-- CHUNK of the last awaited element of an ALLREDUCE's reduction (13 R356, R357): the element of DST holds the sum, maximum or minimum of what it held and
of the element received, and the operation is done; the packet has stood in the staging area meanwhile (R362). -/
def Sys2Proof.Claims.ChunkReduces : Prop :=
  ∀ (s u : State) (quay : Fin 2) (p : Packet) (g rank : Nat) (o : CollOp) (st : CollStep) (x : Nat), Takes s quay 16 p u → OfGroup s p g rank →
    p.sq < 2 ^ 18 → (s.group g).held = [] → (s.group g).staging = [] → p.psn = s.connN (s.group g) rank 16 4 →
    bits p.dq 16 8 = (s.group g).opseq % 256 → (s.group g).op = some o → o.status = none → o.counting = false → o.mismatch = false →
    o.poison = false → o.steps = [st] → st.phase = 0 → o.awaiting = [(p.addr, 1)] → p.poison = false →
    inStep o st { source := rank, pkt := p, poison := false } = true →
    let d := o.request
    cqOp d = 1 → (cqOut d).size = 4 →
    let f := wireFmt (s.group g) d st.level
    (decodeElems f (cqOut d) ((s.group g).lvlBlock st.level) p.payload).1 = [x] →
    payloadElems f ((s.group g).lvlBlock st.level) p.payload = 1 →
    let a := cqDst d + p.addr * 4
    let conn := (s.group g).conn rank 0
    let place := (s.group g).stagePlace (p.code % 4) p.payload.length
    let n := p.payload.length
    a % 4 = 0 → Live s a 4 → Live s conn 64 → (a + 4 ≤ conn ∨ conn + 64 ≤ a) → s.linePoison a 4 = false →
    Live s place n → (place + n ≤ a ∨ a + 4 ≤ place) → (place + n ≤ conn ∨ conn + 64 ≤ place) →
    s.chunkWaits quay = false →
    Runs (.chunk quay) s fun t =>
      t.bytesAt a 4 = leBytes 4 (combine (cqRop d) (cqOut d) (leNat (s.bytesAt a 4)) x).code
        ∧ (∃ y, (t.group g).op = some y ∧ y.status = some 0 ∧ y.stamp = s.now) ∧ (t.group g).staging = [] ∧ OtherGroups s t g
        ∧ (∀ b, (b < a ∨ a + 4 ≤ b) → (b < conn ∨ conn + 64 ≤ b) → (b < place ∨ place + n ≤ b) → t.byteAt b = s.byteAt b)

/-- C_ACK (13 R361) advances TX_ACKED of the member's entry and drops the packets that it covers; C_GRANT raises the window, the counts wrapping, and an older one changes
nothing; neither sends anything where no chunk waits. COLLECTIVE_COMPLETE (13 R368): the record of the operation that has ended is written, CQ_TAIL advances, and the group has no operation. -/
def Sys2Proof.Claims.CollectiveAnswersAndEnd : Prop :=
  (∀ (s u : State) (quay : Fin 2) (p : Packet) (g rank : Nat), OfGroup s p g rank → (s.group g).ready = [] →
    let r := s.group g
    let fields := fun (t : State) =>
      { s with regs := t.regs, groups := t.groups, mem := t.mem, poison := t.poison, channels := t.channels, reports := t.reports, arrived := u.arrived }
    (Takes s quay 17 p u → r.op = none → p.psn < 2 ^ 32 →
        let old := s.connN r rank 12 4
        diff32 p.psn old ≠ 0 → diff32 p.psn old ≤ diff32 (s.connN r rank 8 4) old → Live s (r.conn rank 12) 4 →
      Runs (.cAck quay) s fun t =>
        t.bytesAt (r.conn rank 12) 4 = leBytes 4 p.psn
          ∧ (t.group g).link rank = { r.link rank with retries := 0, progress := s.clock }
          ∧ (t.group g).inFlight = r.inFlight.filter (fun e => !(e.1 == rank && decide (diff32 e.2.psn old < diff32 p.psn old)))
          ∧ OtherGroups s t g ∧ Stores s t (fields t) memKeys (r.conn rank 12) 4)
    ∧ (Takes s quay 18 p u → 2 ^ 63 ≤ diff64 p.addr (s.connN r rank 24 8) → Runs (.cGrant quay) s fun t => t = u)
    ∧ (Takes s quay 18 p u → diff64 p.addr (s.connN r rank 24 8) < 2 ^ 63 → p.addr < 2 ^ 64 → Live s (r.conn rank 24) 8 →
      Runs (.cGrant quay) s fun t =>
        t.bytesAt (r.conn rank 24) 8 = leBytes 8 p.addr ∧ t.group g = r ∧ OtherGroups s t g ∧ Stores s t (fields t) memKeys (r.conn rank 24) 8))
  ∧ (∀ (s : State) (g : Fin 4096) (o : CollOp) (st : Nat), OwnedGroup s g → (s.group g).op = some o → o.status = some st →
    let r := s.group g
    let a := r.fld 48 8 + 32 * (r.cqTail % r.cqN)
    Live s a 32 → s.recordWaits g = false → (a + 32 ≤ s.grpAddr g ∨ s.grpAddr g + 256 ≤ a) →
    Runs (.collectiveComplete g) s fun t =>
      (∃ flags res, t.bytesAt a 32 = recordBytes st o.void flags (byteFld o.request 40 4) o.stamp res o.index ∧ (bits flags 1 1 = 1 ↔ o.void ≠ 0))
        ∧ (t.group g).op = none ∧ (t.group g).cqTail = (r.cqTail + 1) % 2 ^ 32
        ∧ (t.group g).state = (if st = 1 ∨ st = 2 ∨ st = 7 then 3 else r.state) ∧ OtherGroups s t g
        ∧ t = { s with regs := t.regs, groups := t.groups, adds := t.adds, mem := t.mem, poison := t.poison, channels := t.channels, reports := t.reports })

/-- Trigger adds and the life of a group. -/
def Obligations.GroupsAndTriggers : Prop :=
  Claims.TriggerAddApplies ∧ Claims.GroupStates ∧ Claims.GroupBellsAndWindows

/-- Collectives start, and those of one member. Where the spec leaves a point open it follows the model's choices of log entries 29, 31 and 85. -/
def Obligations.Collectives : Prop :=
  Claims.CollectivesStart ∧ Claims.CollectivesOfOneMember

/-- Packets of a collective and its end. Where the spec leaves a point open it follows the model's choices of log entries 20, 29, 31 and 85. -/
def Obligations.CollectivePackets : Prop :=
  Claims.CollectivePacketsLand ∧ Claims.ChunkReduces ∧ Claims.CollectiveAnswersAndEnd

/-! ## Berths, bells and the harbourmaster's commands (14) -/

/-- Every berth but one holds what it held. -/
def Sys2Proof.Claims.OtherBerths (s t : State) (b : Nat) : Prop := ∀ k, k ≠ b → t.berth k = s.berth k

/-- The owner is signalled (14 R384, R386): bit `i` of WAKE_CAUSE of a pilot core, the external interrupt of a PD hart. -/
def Sys2Proof.Claims.Signalled (t : State) (owner i : Nat) : Prop :=
  (owner < 256 → t.bitAt (.core owner) 0x030 i = true)
    ∧ (256 ≤ owner → owner < 320 → (if i = 2 then (t.hart owner).bellIrq else (t.hart owner).berthIrq) = true)

/-- POST_COMPOSE (14 R378): the word stands in the sender's compose buffer, and nothing else changes. -/
def Sys2Proof.Claims.ComposeWritten : Prop :=
  ∀ (s : State) (w : Sender) (b : Fin 256) (word : Fin 7) (v : Word), (s.composed (senderCode w)).length = 64 →
    Runs (.postCompose w b word v) s fun t =>
      byteFld (t.composed (senderCode w)) (8 * word) 8 = v.toNat
        ∧ (∀ k : Nat, k ≠ word.val → byteFld (t.composed (senderCode w)) (8 * k) 8 = byteFld (s.composed (senderCode w)) (8 * k) 8)
        ∧ (∀ k, k ≠ senderCode w → t.composed k = s.composed k) ∧ t.answer.status = 0
        ∧ Only s t { s with compose := t.compose, answer := t.answer } []

/-- POST (14 R375, R378, R379, R381, R382, R384): a berth that is enabled, whose owner is live and which holds fewer than eight messages takes the message, with the
sender's code in bytes 6 and 7, and signals its owner; a full or disabled berth, or a reserved kind, rejects it with a bus error; a message to an owner that is not
live, or whose berth is being cleared, counts as posted and is discarded. A notice of another node's harbourmaster (R383) meets no check of its kind, and a full or
disabled berth loses it with NOTICE_LOST. The compose buffer is cleared in every case. -/
def Sys2Proof.Claims.BerthPosts : Prop :=
  ∀ (s : State) (w : Sender) (b : Fin 256) (p : Post), (s.composed (senderCode w)).length = 64 →
    let code := senderCode w
    let r := s.berth b
    let msg := s.completeMsg code p
    let stamped := fun (m : List Byte) =>
      m.length = 64 ∧ byteFld m 6 2 = code % 2 ^ 16 ∧ ∀ i, i ≠ 6 → i ≠ 7 → byteFld m i 1 = byteFld msg i 1
    let composed := fun (t : State) => ∀ k, t.composed k = if k = code then List.replicate 64 0 else s.composed k
    let notice := isNotice code msg
    (byteFld msg 0 1 < 3 ∨ notice = true → r.enable = true → s.ownerLive r.owner = true → r.clearing = false → r.msgs.length < 8 →
      Runs (.post w b p) s fun t =>
        (∃ m, stamped m ∧ (t.berth b).msgs = r.msgs ++ [m]) ∧ (t.berth b).posted = (r.posted + 1) % 2 ^ 32 ∧ OtherBerths s t b
          ∧ composed t ∧ t.answer.status = 0 ∧ Signalled t r.owner 3
          ∧ Only s t { s with berths := t.berths, compose := t.compose, answer := t.answer, regs := t.regs, harts := t.harts }
              [at_ (.core r.owner) 0x030])
    ∧ (notice = false → 3 ≤ byteFld msg 0 1 ∨ r.enable = false ∨ (s.ownerLive r.owner = true ∧ r.clearing = false ∧ 8 ≤ r.msgs.length) →
      Runs (.post w b p) s fun t =>
        t.berth b = { r with rejected := (r.rejected + 1) % 2 ^ 16 } ∧ OtherBerths s t b ∧ composed t ∧ t.answer.status = 1
          ∧ Only s t { s with berths := t.berths, compose := t.compose, answer := t.answer, harts := t.harts } [])
    ∧ (notice = true → r.enable = false ∨ (s.ownerLive r.owner = true ∧ r.clearing = false ∧ 8 ≤ r.msgs.length) →
      Runs (.post w b p) s fun t =>
        t.berth b = { r with noticeLost := true } ∧ OtherBerths s t b ∧ composed t ∧ t.answer.status = 0
          ∧ Only s t { s with berths := t.berths, compose := t.compose, answer := t.answer } [])
    ∧ (byteFld msg 0 1 < 3 ∨ notice = true → r.enable = true → s.ownerLive r.owner = false ∨ r.clearing = true →
      Runs (.post w b p) s fun t =>
        t.berth b = { r with posted := (r.posted + 1) % 2 ^ 32, discarded := (r.discarded + 1) % 2 ^ 16, aborted := true }
          ∧ OtherBerths s t b ∧ composed t ∧ t.answer.status = 0
          ∧ (∃ m, stamped m ∧ t.discards = s.discards ++
              (if (byteFld m 4 2).testBit 15 then [{ berth := b, owner := r.owner, cause := 2, tide := s.now, msg := m }] else []))
          ∧ Only s t { s with berths := t.berths, compose := t.compose, answer := t.answer, discards := t.discards } [])

/-- B_TAKE (14 R380) frees the oldest slot for the berth's owner, any other sender meets a bus error; BERTH_CLEAR (14 R382) discards every message in posting order, with
a notice due for each that asked for a reply. -/
def Sys2Proof.Claims.BerthTakesAndClears : Prop :=
  (∀ (s : State) (w : Sender) (b : Fin 256),
    let r := s.berth b
    (s.ownsBerth b w = true → ∀ m rest, r.msgs = m :: rest →
      Runs (.bTake w b) s fun t =>
        t.berth b = { r with msgs := rest, head := (r.head + 1) % 8 } ∧ OtherBerths s t b ∧ t.answer.status = 0
          ∧ Only s t { s with berths := t.berths, answer := t.answer } [])
    ∧ (s.ownsBerth b w = true → r.msgs = [] →
      Runs (.bTake w b) s fun t => t.answer.status = 0 ∧ Only s t { s with answer := t.answer } [])
    ∧ (s.ownsBerth b w = false →
      Runs (.bTake w b) s fun t => t.answer.status = 1 ∧ Only s t { s with answer := t.answer, harts := t.harts } []))
  ∧ (∀ (s : State) (b : Fin 256),
    let r := s.berth b
    (r.clearing = true → r.discarded < 2 ^ 16 →
      Runs (.berthClear b) s fun t =>
        (t.berth b).msgs = [] ∧ (t.berth b).clearing = false ∧ (t.berth b).aborted = true
          ∧ (t.berth b).discarded = (r.discarded + r.msgs.length) % 2 ^ 16
          ∧ t.discards = s.discards ++ (r.msgs.filter fun m => (byteFld m 4 2).testBit 15).map
              (fun m => { berth := b, owner := r.owner, cause := 1, tide := s.now, msg := m })
          ∧ OtherBerths s t b ∧ Only s t { s with berths := t.berths, discards := t.discards } [])
    ∧ (r.clearing = false → Runs (.berthClear b) s fun t => t = s))

/-- ABORTED (14 R383): the notice that is due first goes to the berth of this node that the discarded message named, with the berth, the owner, the cause, the tide and
the message's first 16 bytes; at a full berth it is lost. -/
def Sys2Proof.Claims.AbortNotices : Prop :=
  ∀ (s : State) (d : Discard) (rest : List Discard), s.discards = d :: rest → d.msg.length = 64 → bits (byteFld d.msg 4 2) 8 3 = s.trayPos →
    let k := bits (byteFld d.msg 4 2) 0 8
    let r := s.berth k
    (r.enable = true → r.msgs.length < 8 → s.ownerLive r.owner = true → r.clearing = false →
      Runs .aborted s fun t =>
        t.discards = rest
          ∧ (∃ m, (t.berth k).msgs = r.msgs ++ [m] ∧ m.length = 64 ∧ byteFld m 0 1 = 3 ∧ byteFld m 2 2 = 1
              ∧ byteFld m 8 4 = byteFld d.msg 8 4 ∧ byteFld m 16 2 = (d.berth + s.trayPos * 2 ^ 8) % 2 ^ 16
              ∧ byteFld m 18 2 = d.owner % 2 ^ 16 ∧ byteFld m 20 4 = d.cause % 2 ^ 32 ∧ byteFld m 24 8 = d.tide % 2 ^ 64
              ∧ (m.drop 32).take 16 = d.msg.take 16)
          ∧ OtherBerths s t k ∧ Signalled t r.owner 3
          ∧ Only s t { s with discards := t.discards, berths := t.berths, regs := t.regs, harts := t.harts } [at_ (.core r.owner) 0x030])
    ∧ (r.clearing = false → r.enable = false ∨ (s.ownerLive r.owner = true ∧ 8 ≤ r.msgs.length) →
      Runs .aborted s fun t =>
        t.discards = rest ∧ t.berth k = { r with noticeLost := true } ∧ OtherBerths s t k
          ∧ Only s t { s with discards := t.discards, berths := t.berths } [])

/-- Bells (14 R386, R388): a write ORs into the bell and signals its owner, a read returns the bell and clears it; a host bell goes to the bridge named by
HM_HN_BASE, and is dropped and counted where none is set or port 15 is not UP. -/
def Sys2Proof.Claims.BellsRing : Prop :=
  (∀ (s : State) (i : Fin 321) (v : Word),
    Runs (.orBellWrite i v) s (fun t =>
      t.bell i = s.bell i ||| v ∧ (∀ k, k ≠ i.val → t.bell k = s.bell k) ∧ Signalled t i 2 ∧ t.answer.status = 0
        ∧ Only s t { s with bells := t.bells, answer := t.answer, regs := t.regs, harts := t.harts } [at_ (.core i) 0x030])
    ∧ Runs (.bellRead i) s fun t =>
      byteFld t.answer.data 0 8 = (s.bell i).toNat ∧ t.bell i = 0 ∧ (∀ k, k ≠ i.val → t.bell k = s.bell k) ∧ t.answer.status = 0
        ∧ Only s t { s with bells := t.bells, answer := t.answer } [])
  ∧ (∀ (s : State) (h : Fin 64) (v : Word),
    (s.bridgeSet = false ∨ (s.bridgeNode = s.trayPos ∧ s.portUp 15 = false) →
      Runs (.hostBellWrite h v) s fun t =>
        t.fldAt .router 0x048 0 32 = min (s.fldAt .router 0x048 0 32 + 1) (2 ^ 32 - 1) ∧ t.answer.status = 0
          ∧ Only s t { s with regs := t.regs, answer := t.answer } [at_ .router 0x048])
    ∧ (s.bridgeSet = true → s.bridgeNode = s.trayPos → s.portUp 15 = true →
      Runs (.hostBellWrite h v) s fun t =>
        (∃ w, (t.port 15).egress = (s.port 15).egress ++ [w] ∧ w.pkt.addr = s.regN .harbour 0x10 + 8 * h ∧ w.pkt.data = v.toNat ∧ w.pkt.tkind = 12)
          ∧ OtherPorts s t 15 ∧ t.answer.status = 0 ∧ Only s t { s with ports := t.ports, answer := t.answer } [])
    ∧ (s.bridgeSet = true → s.bridgeNode ≠ s.trayPos → ∀ p, s.trayRoute s.bridgeNode = some p →
      bit (s.reg (.quay (p / 8)) 0x038) s.bridgeNode = false → s.bridgeNode < 8 →
      Runs (.hostBellWrite h v) s fun t =>
        (∃ r, t.tray = s.tray ++ [r] ∧ r.addr = 2 ^ 47 + s.bridgeNode * 2 ^ 44 + 0x0E90_0020_9000 + 8 * h.val ∧ r.kind = 1 ∧ r.target = s.bridgeNode)
          ∧ t.trayNext = s.trayNext + 1 ∧ t.answer.status = 0 ∧ SameBytes s t))

/-- The message at the head of a command berth is a command that the harbourmaster performs now (14 R389, R391): it takes from the berth at its turn, the opcode is open to
the sender and in the node's mode, and no new firmware is waiting to be confirmed. -/
def Sys2Proof.Claims.AtHead (s : State) (b op : Nat) (m : List Byte) : Prop :=
  (∃ rest, (s.berth b).msgs = m :: rest) ∧ s.takesFrom b = true ∧ s.turnOf b = true ∧ byteFld m 0 1 = 1 ∧ cmOpcode m = op
    ∧ (∃ e ∈ hmOpcodes, e.1 = op ∧ e.2 &&& fromClass (cmSender m) ≠ 0)
    ∧ (s.inRecovery = true → recoveryOps.contains op = true) ∧ (s.limited = true → limitedOps.contains op = true)
    ∧ (s.image 0).trial = none

/-- The state from which a command taken from berth `b` is performed: its slot is free and the turn goes to the other berth (14 R389). -/
def Sys2Proof.Claims.taken (s : State) (b : Nat) : State :=
  { s.takeMsg b with harbour := { s.harbour with turn := 1 - b } }

/-- Taking commands (14 R389–R392): a NOP is answered in its reply berth with its opcode, its tag and OK; a message of another kind is discarded; a reserved opcode, a sender
that may not use it and a command that the mode does not open are answered with their codes. -/
def Sys2Proof.Claims.CommandsTaken : Prop :=
  ∀ (s : State) (b : Fin 2) (m : List Byte),
    let u := taken s b
    let k := bits (cmReply m) 0 8
    (AtHead s b 0x0002 m → argsZero m [] = true → m.length = 64 → (cmReply m).testBit 15 = true → bits (cmReply m) 8 3 = s.trayPos →
      (u.berth k).enable = true → (u.berth k).msgs.length < 8 → s.ownerLive (u.berth k).owner = true → (u.berth k).clearing = false →
      Runs (.nop b) s fun t =>
        (∃ r, (t.berth k).msgs = (u.berth k).msgs ++ [r] ∧ byteFld r 0 1 = 2 ∧ byteFld r 2 2 = 0x0002 ∧ byteFld r 8 4 = byteFld m 8 4
            ∧ byteFld r 12 1 = 0 ∧ zeroAt r 16 48 = true)
          ∧ OtherBerths u t k ∧ t.harbour = { s.harbour with turn := 1 - b.val } ∧ Signalled t (u.berth k).owner 3
          ∧ Only s t { s with berths := t.berths, harbour := t.harbour, regs := t.regs, harts := t.harts } [at_ (.core (u.berth k).owner) 0x030])
    ∧ (AtHead s b 0x0002 m → (cmReply m).testBit 15 = false → Runs (.nop b) s fun t => t = u)
    ∧ (∀ rest, (s.berth b).msgs = m :: rest → s.takesFrom b = true → s.turnOf b = true → (s.image 0).trial = none →
      (byteFld m 0 1 ≠ 1 → Runs (.nop b) s fun t => t = u)
      ∧ (byteFld m 0 1 = 1 → (∀ e ∈ hmOpcodes, e.1 ≠ cmOpcode m) → Runs (.nop b) s fun t => t = u.replyTo m 0x02)
      ∧ (byteFld m 0 1 = 1 → cmOpcode m = 0x00A0 → fromClass (cmSender m) ≠ 1 → Runs (.setNgi b) s fun t => t = u.replyTo m 0x05)
      ∧ (byteFld m 0 1 = 1 → cmOpcode m = 0x0010 → fromClass (cmSender m) = 1 → s.limited = true →
          Runs (.setPowerMode b) s fun t => t = u.replyTo m 0x08))
    ∧ (s.takesFrom b = false ∨ s.turnOf b = false ∨ (s.berth b).msgs = [] → Runs (.nop b) s fun t => t = s)

/-- Commands that read (14 Table 14-7): QUERY_VERSION, REG_READ and FAULT_STATUS answer what they name. -/
def Sys2Proof.Claims.CommandsThatRead : Prop :=
  ∀ (s : State) (b : Fin 2) (m : List Byte),
    let u := taken s b
    (AtHead s b 0x0001 m → argsZero m [] = true →
      Runs (.queryVersion b) s fun t => ∃ body, t = u.replyTo m 0 body ∧ byteFld body 0 2 = 0x00B0 ∧ byteFld body 2 2 = s.opLevel
        ∧ byteFld body 6 2 = s.fldAt .harbour 0x00 24 16)
    ∧ (AtHead s b 0x0040 m → argsZero m [(16, 2), (24, 8)] = true → byteFld m 16 1 ≤ 6 → byteFld m 17 1 = 1 → byteFld m 24 8 % 8 = 0 →
      (byteFld m 24 8 + 8 ≤ 0x400_0000 →
        Runs (.regRead b) s fun t =>
          let a := dieWindow (byteFld m 16 1) + byteFld m 24 8
          t = (u.readReg a).2.replyTo m 0 (leBytes 8 (u.readReg a).1.toNat))
      ∧ (0x400_0000 < byteFld m 24 8 + 8 → Runs (.regRead b) s fun t => t = u.replyTo m 0x0A [0]))
    ∧ (AtHead s b 0x0090 m → argsZero m [(16, 2)] = true →
      (byteFld m 16 2 ≤ 467 → Runs (.faultStatus b) s fun t => ∃ body, t = u.replyTo m 0 body
        ∧ ∀ i : Fin 4, byteFld body (8 * i) 8 = s.regN .hub (fdOff (byteFld m 16 2) (8 * i)))
      ∧ (467 < byteFld m 16 2 → Runs (.faultStatus b) s fun t => t = u.replyTo m 0x03))

/-- Commands that set something at once (14 Table 14-7): REG_WRITE, BERTH_ASSIGN, HOST_NOTIFY, SET_FEC (11 R275), CH_ISOLATE (10 Table 10-6), FAULT_RELEASE (15 R418) and
SET_NGI (17 R464). -/
def Sys2Proof.Claims.CommandsThatSet : Prop :=
  ∀ (s : State) (b : Fin 2) (m : List Byte),
    let u := taken s b
    (AtHead s b 0x0041 m → argsZero m [(16, 2), (24, 8), (32, 8)] = true → byteFld m 16 1 ≤ 6 → byteFld m 17 1 = 1 → byteFld m 24 8 % 8 = 0 →
      byteFld m 24 8 + 8 ≤ 0x400_0000 →
      Runs (.regWrite b) s fun t =>
        t = (u.writeReg u.harbourSender (dieWindow (byteFld m 16 1) + byteFld m 24 8) true (BitVec.ofNat 64 (byteFld m 32 8))).replyTo m 0)
    ∧ (AtHead s b 0x0050 m → argsZero m [(16, 1), (18, 3)] = true → 8 ≤ byteFld m 16 1 → byteFld m 18 2 ≤ 322 ∨ byteFld m 18 2 = 511 → byteFld m 20 1 ≤ 1 →
      ((u.berth (byteFld m 16 1)).msgs = [] →
        Runs (.berthAssign b) s fun t => ∃ v : State, t = v.replyTo m 0
          ∧ v.berth (byteFld m 16 1) = { u.berth (byteFld m 16 1) with owner := byteFld m 18 2, enable := byteFld m 20 1 == 1 }
          ∧ OtherBerths u v (byteFld m 16 1) ∧ v = { u with berths := v.berths })
      ∧ ((u.berth (byteFld m 16 1)).msgs ≠ [] → Runs (.berthAssign b) s fun t => t = u.replyTo m 0x04))
    ∧ (AtHead s b 0x0051 m → argsZero m [(16, 1), (24, 8)] = true → byteFld m 16 1 ≤ 7 → byteFld m 24 8 % 8 = 0 →
      Runs (.hostNotify b) s fun t => ∃ v : State, t = v.replyTo m 0 ∧ v.bridgeSet = true ∧ v.bridgeNode = byteFld m 16 1
        ∧ v.regN .harbour 0x10 = byteFld m 24 8 ∧ Only u v { u with regs := v.regs } [at_ .harbour 0x08, at_ .harbour 0x10])
    ∧ (AtHead s b 0x0012 m → argsZero m [(16, 2)] = true → byteFld m 16 1 ≤ 15 → byteFld m 17 1 ≤ 1 →
      ((s.committed (byteFld m 16 1)).mayTrain (byteFld m 16 1) = true → captured s (.port (byteFld m 16 1)) = [] →
        Runs (.setFec b) s fun t => ∃ v : State, t = v.replyTo m 0 ∧ v.bitAt (.port (byteFld m 16 1)) 0x000 1 = (byteFld m 17 1 == 1)
          ∧ v.portState (byteFld m 16 1) ≠ 2)
      ∧ ((s.committed (byteFld m 16 1)).mayTrain (byteFld m 16 1) = false → Runs (.setFec b) s fun t => t = u.replyTo m 0x04))
    ∧ (AtHead s b 0x0031 m → argsZero m [(16, 2)] = true → byteFld m 16 1 ≤ 191 →
      (byteFld m 17 1 = 1 → s.chState (byteFld m 16 1) = 3 → (s.channel (byteFld m 16 1)).recover = false →
        Runs (.chIsolate b) s fun t => ∃ v : State, t = v.replyTo m 0 ∧ v.chState (byteFld m 16 1) = 2 ∧ v = { u with regs := v.regs })
      ∧ (byteFld m 17 1 = 0 → s.chState (byteFld m 16 1) = 2 →
        Runs (.chIsolate b) s fun t => ∃ v : State, t = v.replyTo m 0 ∧ v.chState (byteFld m 16 1) = 3 ∧ v = { u with regs := v.regs })
      ∧ (byteFld m 17 1 ≤ 1 → s.chState (byteFld m 16 1) ≤ 1 → Runs (.chIsolate b) s fun t => t = u.replyTo m 0x04))
    ∧ (AtHead s b 0x0091 m → argsZero m [(16, 2)] = true → byteFld m 16 2 < 467 →
      (s.domainState (byteFld m 16 2) = 1 ∨ s.domainState (byteFld m 16 2) = 3 →
        Runs (.faultRelease b) s fun t => ∃ v : State, t = v.replyTo m 0 ∧ v.domainState (byteFld m 16 2) = 2
          ∧ v.fldAt .hub (fdOff (byteFld m 16 2) 0) 32 8 = 0 ∧ v = { u with regs := v.regs, channels := v.channels })
      ∧ (s.domainState (byteFld m 16 2) = 0 ∨ s.domainState (byteFld m 16 2) = 2 → Runs (.faultRelease b) s fun t => t = u.replyTo m 0x04))
    ∧ (AtHead s b 0x00A0 m → argsZero m [(16, 4)] = true → byteFld m 16 4 < 2 ^ 18 →
      ((∀ e ∈ s.quays, e.2.state = 0) → (∀ e ∈ s.groups, e.2.state = 0) → s.tray = [] →
          s.named = true ∨ (∀ p : Fin 16, captured s (.port p) = []) →
        Runs (.setNgi b) s fun t => ∃ v : State, t = v.replyTo m 0 ∧ v.regN .router 0x010 = byteFld m 16 4 ∧ v.named = true)
      ∧ ((∃ e ∈ s.quays, e.2.state ≠ 0) → Runs (.setNgi b) s fun t => t = u.replyTo m 0x04))

/-- Commands for a later mark (01 R35, R37, 10 R265, 14 Table 14-7, 17 R457, 18 R476, R484): an accepted SET_POWER_MODE, SET_SLEEP, CH_RETRAIN or FW_ACTIVATE waits for its mark,
the first two answered when taken but for DOZE and DEEP; a refused one is answered with its code. -/
def Sys2Proof.Claims.CommandsForAMark : Prop :=
  ∀ (s : State) (b : Fin 2) (m : List Byte),
    let u := taken s b
    let at16 := byteFld m 16 1
    (AtHead s b 0x0010 m → argsZero m [(16, 2), (24, 8)] = true → byteFld m 17 1 ≤ 1 →
      (at16 ≤ 2 → s.safe = false → u.brakeBlocks at16 = false → byteFld m 17 1 = 1 ∨ u.modeRefused at16 (u.cmdMark m) none = false →
        Runs (.setPowerMode b) s fun t =>
          t = ({ u with harbour := { u.harbour with modes := u.harbour.modes ++
            [{ value := at16, forced := byteFld m 17 1 == 1, mark := u.cmdMark m, msg := m }] } } : State).replyTo m 0)
      ∧ (2 < at16 → Runs (.setPowerMode b) s fun t => t = u.replyTo m 0x03)
      ∧ (at16 ≤ 2 → s.safe = true → Runs (.setPowerMode b) s fun t => t = u.replyTo m 0x07)
      ∧ (at16 ≤ 2 → s.safe = false → u.brakeBlocks at16 = false → byteFld m 17 1 = 0 → u.modeRefused at16 (u.cmdMark m) none = true →
        Runs (.setPowerMode b) s fun t => t = u.replyTo m 0x06))
    ∧ (AtHead s b 0x0011 m → argsZero m [(16, 1), (24, 8)] = true → at16 ≤ 3 →
      let slept : State := { u with harbour := { u.harbour with sleeps := u.harbour.sleeps ++ [{ value := at16, forced := false, mark := u.cmdMark m, msg := m }] } }
      (at16 ≤ 1 → Runs (.setSleep b) s fun t => t = slept.replyTo m 0)
      ∧ (2 ≤ at16 → s.work = [] → s.quays = [] → s.groups = [] → s.ckpt = none → Runs (.setSleep b) s fun t => t = slept)
      ∧ (2 ≤ at16 → s.work ≠ [] ∨ s.ckpt.isSome = true ∨ (∃ e ∈ s.groups, e.2.state = 2) → Runs (.setSleep b) s fun t => t = u.replyTo m 0x07))
    ∧ (AtHead s b 0x0030 m → argsZero m [(16, 2), (24, 8)] = true → at16 ≤ 191 → byteFld m 17 1 ≤ 1 →
      (s.chState at16 = 0 → s.domainState (256 + at16) = 0 → u.otherHeld at16 (byteFld m 24 8) = false → (∀ r ∈ s.harbour.retrains, r.value ≠ at16) →
          byteFld m 17 1 = 0 → u.workAfter (byteFld m 24 8) = false → s.harbour.activations = [] →
        Runs (.chRetrain b) s fun t =>
          t = { u with harbour := { u.harbour with retrains := u.harbour.retrains ++ [{ value := at16, forced := false, mark := byteFld m 24 8, msg := m }] } })
      ∧ (s.chState at16 ≠ 0 ∨ s.domainState (256 + at16) ≠ 0 ∨ (byteFld m 17 1 = 0 ∧ u.workAfter (byteFld m 24 8) = true) →
        Runs (.chRetrain b) s fun t => t = u.replyTo m 0x06))
    ∧ (AtHead s b 0x0071 m → argsZero m [(16, 2), (24, 8)] = true → namedImages m ≠ [] → u.cmdMark m ≤ s.now + 10_000_000_000 → s.inRecovery = false →
        (∀ i ∈ namedImages m, (s.image i).checked (s.image i).spare = true) →
      (evaluateImages (u.setAfter (namedImages m)) ≠ none → u.kindPending at16 = false → u.activationRefusal (namedImages m) (u.cmdMark m) = none →
        Runs (.fwActivate b) s fun t =>
          t = { u with harbour := { u.harbour with activations := u.harbour.activations ++
            [{ value := (namedImages m).headD 0, forced := false, mark := u.cmdMark m, msg := m }] } })
      ∧ (evaluateImages (u.setAfter (namedImages m)) = none → Runs (.fwActivate b) s fun t => t = u.replyTo m 0x0C))

/-- CORE_STATE (04 R116, R117, Table 4-9) for one core: ONLINE, OFFLINE_DRAIN and OFFLINE_ABORT move it, a request that its state does not take is discarded and reported in the
reply's mask. CORE_LOAD (04 R94): the program stands in the core's pilot region and PILOT_PC is set, for a core that is OFFLINE. -/
def Sys2Proof.Claims.CoreCommands : Prop :=
  ∀ (s : State) (b : Fin 2) (m : List Byte) (c : Fin 256), maskCores m = [c.val] →
    let u := taken s b
    let src := byteFld m 48 8
    let len := byteFld m 56 4
    (AtHead s b 0x0020 m → argsZero m [(16, 33)] = true →
      let moves := fun (st : Nat) (more : State → Prop) =>
        Runs (.coreState b) s fun t => ∃ v : State, t = v.replyTo m 0 (List.replicate 32 0) ∧ v.coreState c = st ∧ more v
      (byteFld m 48 1 = 3 → s.coreState c = 2 →
        moves 0 fun v => v.hart c = { pc := BitVec.ofNat 64 (wellBase c + s.fldAt (.core c) 0x018 0 22) } ∧ (∀ q : Fin 6, v.queue c q = {}))
      ∧ (byteFld m 48 1 = 1 → s.coreState c = 0 → moves 1 fun _ => True)
      ∧ (byteFld m 48 1 = 2 → s.coreState c ≤ 1 → moves 2 fun _ => True)
      ∧ ((byteFld m 48 1 = 3 ∧ s.coreState c ≠ 2) ∨ (byteFld m 48 1 = 1 ∧ s.coreState c ≠ 0) ∨ (byteFld m 48 1 = 2 ∧ 2 ≤ s.coreState c) →
        Runs (.coreState b) s fun t => ∃ v : State, t = v.replyTo m 0 (leBytes 32 (2 ^ c.val)) ∧ v.coreState c = s.coreState c ∧ v = { u with regs := v.regs }))
    ∧ (AtHead s b 0x0021 m → argsZero m [(16, 48)] = true → len ≠ 0 → len ≤ 262_144 → len % 4 = 0 → src % 4 = 0 → src + len ≤ hbmEnd → byteFld m 60 4 < 2 ^ 22 →
      (s.coreState c = 2 → s.domainState c ≠ 2 → Live s src len →
        Runs (.coreLoad b) s fun t => ∃ v : State, t = v.replyTo m 0 ∧ (∀ i, i < len → v.byteAt (wellBase c + 0x2C_0000 + i) = s.byteAt (src + i))
          ∧ (∀ a, a < wellBase c + 0x2C_0000 ∨ wellBase c + 0x2C_0000 + len ≤ a → v.byteAt a = s.byteAt a) ∧ v.regN (.core c) 0x018 = byteFld m 60 4)
      ∧ (s.coreState c ≠ 2 → Runs (.coreLoad b) s fun t => t = u.replyTo m 0x04))

/-- A long operation may start with its status word at `a` (14 R393, R394), in channels that are not lost; a message has 64 bytes. -/
def Sys2Proof.Claims.MayStart (u : State) (m : List Byte) (a : Nat) : Prop :=
  m.length = 64 ∧ u.statusOk a = true ∧ u.longAt a = none ∧ u.longBusy m = false ∧ u.harbour.longOps.length < 16 ∧ ∀ x, a ≤ x → x < a + 64 → u.lostAt x = false

/-- The long operation of the command `m` as it starts (14 R394). -/
def Sys2Proof.Claims.started (u : State) (m : List Byte) (a total : Nat) : LongOp :=
  { msg := m, opcode := cmOpcode m, status := a, done := 0, total := total, start := u.now }

/-- From `u` to `v` a long operation is accepted (14 R390, R393, R394): it stands in the list, and its status word shows RUNNING between two equal sequence numbers. -/
def Sys2Proof.Claims.Accepts (u v : State) (m : List Byte) (a total : Nat) : Prop :=
  v.harbour = { u.harbour with longOps := u.harbour.longOps ++ [started u m a total] }
    ∧ v.byteAt a = 1 ∧ v.byteAt (a + 10) = 1 ∧ v.byteAt (a + 11) = 0 ∧ v.byteAt (a + 56) = 1
    ∧ ∀ x, x < a ∨ a + 64 ≤ x → v.byteAt x = u.byteAt x

/-- Long commands (14 R393, R394; 10 R267, 15 R420, 16 R425, R428, R438, 17 R456, R462): an accepted one shows RUNNING and is answered ACCEPTED; REG_COPY, FW_STAGE and
LIFETIME_READ then go on by their status word's updates, CH_RECOVER with the channel's self-test, ATTEST with the report it writes, CHECKPOINT waiting for its start mark, and
RESTORE runs whole. A second of one kind, a seventeenth operation and a status word that is not clear are refused. -/
def Sys2Proof.Claims.LongCommands : Prop :=
  ∀ (s : State) (b : Fin 2) (m : List Byte),
    let u := taken s b
    let accepts := fun (c : Instr) (a total : Nat) (more : State → State) =>
      MayStart u m a → Runs c s fun t => ∃ v : State, Accepts u v m a total ∧ t = more (v.replyTo m 1)
    (AtHead s b 0x0042 m → argsZero m [(16, 1), (24, 20), (48, 8)] = true → byteFld m 16 1 ≤ 6 → byteFld m 24 8 % 8 = 0 → byteFld m 32 8 % 8 = 0 →
        byteFld m 32 8 + byteFld m 40 4 ≤ hbmEnd → byteFld m 40 4 ≠ 0 → byteFld m 40 4 % 8 = 0 → byteFld m 40 4 ≤ 0x100_0000 →
      accepts (.regCopy b) (byteFld m 48 8) (byteFld m 40 4) id
      ∧ (u.statusOk (byteFld m 48 8) = false → Runs (.regCopy b) s fun t => t = u.replyTo m 0x03)
      ∧ (u.statusOk (byteFld m 48 8) = true → u.longBusy m = true → Runs (.regCopy b) s fun t => t = u.replyTo m 0x07)
      ∧ (u.statusOk (byteFld m 48 8) = true → u.longBusy m = false → 16 ≤ s.harbour.longOps.length → Runs (.regCopy b) s fun t => t = u.replyTo m 0x09))
    ∧ (AtHead s b 0x0070 m → argsZero m [(16, 2), (24, 12), (40, 8)] = true → namedImages m ≠ [] → byteFld m 32 4 ≠ 0 → s.inRecovery = false →
        byteFld m 24 8 + byteFld m 32 4 ≤ hbmEnd → u.kindPending (byteFld m 16 1) = false →
      accepts (.fwStage b) (byteFld m 40 8) (2 * byteFld m 32 4) id)
    ∧ (AtHead s b 0x0080 m → argsZero m [(16, 24)] = true → byteFld m 24 4 + byteFld m 28 4 ≤ 0x10_0000 → byteFld m 28 4 ≠ 0 →
        u.reachable (byteFld m 16 8) (byteFld m 28 4) = true →
      accepts (.lifetimeRead b) (byteFld m 32 8) (byteFld m 28 4) id)
    ∧ (AtHead s b 0x0032 m → argsZero m [(16, 1), (24, 8)] = true → byteFld m 16 1 ≤ 191 →
      (s.domainState (256 + byteFld m 16 1) = 1 ∨ s.domainState (256 + byteFld m 16 1) = 3 →
        accepts (.chRecover b) (byteFld m 24 8) 0x6000_0000 fun v => v.releaseDomain (256 + byteFld m 16 1))
      ∧ (s.domainState (256 + byteFld m 16 1) = 0 ∨ s.domainState (256 + byteFld m 16 1) = 2 → Runs (.chRecover b) s fun t => t = u.replyTo m 0x04))
    ∧ (AtHead s b 0x0072 m → argsZero m [(16, 48)] = true → byteFld m 48 8 % 64 = 0 →
        u.reachable (byteFld m 48 8) (50_368 + Config.certLength % 65537) = true →
      accepts (.attest b) (byteFld m 56 8) (50_368 + Config.certLength % 65537) fun v =>
        (v.updateLong { started u m (byteFld m 56 8) (50_368 + Config.certLength % 65537) with data := v.attestReport ((m.drop 16).take 32) }).drawn)
    ∧ (∀ p, AtHead s b 0x0060 m → argsZero m [(16, 24)] = true → u.commandPlan (byteFld m 16 8) false = some p →
      (s.ckpt = none → accepts (.checkpoint b) (byteFld m 32 8) (bodyBytes p * (1 + plDests p)) fun v =>
        { v with ckpt := some { planAt := byteFld m 16 8, status := byteFld m 32 8, mark := byteFld m 24 8, step := v.stepNo } })
      ∧ (s.ckpt.isSome = true → Runs (.checkpoint b) s fun t => t = u.replyTo m 0x07))
    ∧ (AtHead s b 0x0060 m → argsZero m [(16, 24)] = true → u.commandPlan (byteFld m 16 8) false = none → Runs (.checkpoint b) s fun t => t = u.replyTo m 0x03)
    ∧ (∀ p, AtHead s b 0x0061 m → argsZero m [(16, 8), (32, 8)] = true → u.commandPlan (byteFld m 16 8) true = some p →
      (s.ckpt = none → accepts (.restore b) (byteFld m 32 8) (bodyBytes p) fun v =>
        (v.afterRead (byteFld m 16 8) 768).runRestore p (started u m (byteFld m 32 8) (bodyBytes p)))
      ∧ (s.ckpt.isSome = true → Runs (.restore b) s fun t => t = u.replyTo m 0x07))

/-- ABORT_OP marks its operation; STATUS_WORD_UPDATE (14 R394) of a marked one ends it ABORTED, of a checkpoint shows RUNNING, and of LIFETIME_READ writes further bytes of the record;
REPLY_RETRY (14 R390) posts a reply again 100 µs after its last try, and drops and counts it after 10 ms. -/
def Sys2Proof.Claims.LongOperationsAndReplies : Prop :=
  (∀ (s : State) (b : Fin 2) (m : List Byte), AtHead s b 0x00F0 m → argsZero m [(16, 8)] = true →
    let u := taken s b
    (∀ o, s.longAt (byteFld m 16 8) = some o →
      Runs (.abortOp b) s fun t => ∃ v : State, t = v.replyTo m 0 ∧ v.longAt (byteFld m 16 8) = some { o with abort := true } ∧ v = { u with harbour := v.harbour })
    ∧ (s.longAt (byteFld m 16 8) = none → Runs (.abortOp b) s fun t => t = u.replyTo m 0x03))
  ∧ (∀ (s : State) (slot : Nat) (o : LongOp), s.harbour.longOps[slot]? = some o → s.harbour.inReset = false → s.ckpt = none → o.msg.length = 64 →
      s.statusOk o.status = true → (∀ x, o.status ≤ x → x < o.status + 64 → s.lostAt x = false) →
    (o.opcode = 0x0060 ∨ o.opcode = 0x0061 →
      Runs (.statusWordUpdate slot) s fun t =>
        t.byteAt o.status = 1 ∧ t.byteAt (o.status + 10) = 1 ∧ t.byteAt (o.status + 11) = 0 ∧ t.byteAt (o.status + 56) = 1
          ∧ Stores s t { s with regs := t.regs, mem := t.mem, poison := t.poison, channels := t.channels, reports := t.reports } memKeys o.status 64)
    ∧ (o.opcode = 0x0080 → o.abort = true →
      Runs (.statusWordUpdate slot) s fun t => ∃ v : State, t = v.replyTo o.msg 0x0B
        ∧ v.harbour = { s.harbour with longOps := s.harbour.longOps.filter fun x => x.status != o.status }
        ∧ v.byteAt o.status = 1 ∧ v.byteAt (o.status + 10) = 4 ∧ v.byteAt (o.status + 11) = 0x0B ∧ v.byteAt (o.status + 56) = 1
        ∧ ∀ a, a < o.status ∨ o.status + 64 ≤ a → v.byteAt a = s.byteAt a)
    ∧ (o.opcode = 0x0080 → o.abort = false → o.done < o.total →
        let a := byteFld o.msg 16 8 + o.done
        a + (o.total - o.done) ≤ o.status ∨ o.status + 64 ≤ a → Live s a (o.total - o.done) →
      Runs (.statusWordUpdate slot) s fun t => ∃ k, 1 ≤ k ∧ k ≤ o.total - o.done
        ∧ (∀ i, i < k → t.byteAt (a + i) = Tab.get 0 s.life.nvm (byteFld o.msg 24 4 + o.done + i))
        ∧ ∀ x, x < a ∨ a + k ≤ x → x < o.status ∨ o.status + 64 ≤ x → t.byteAt x = s.byteAt x))
  ∧ (∀ (s : State) (slot : Nat) (r : Reply), s.harbour.replies[slot]? = some r → s.harbour.inReset = false →
    let rest := s.harbour.replies.eraseIdx slot
    (s.clock < r.last + 100_000 → Runs (.replyRetry slot) s fun t => t = s)
    ∧ (r.last + 100_000 ≤ s.clock → r.since + 10_000_000 ≤ s.clock →
      Runs (.replyRetry slot) s fun t =>
        t.harbour = { s.harbour with replies := rest } ∧ t.fldAt .harbour 0x00 48 16 = (s.fldAt .harbour 0x00 48 16 + 1) % 2 ^ 16
          ∧ Only s t { s with regs := t.regs, harbour := t.harbour } [at_ .harbour 0x00])
    ∧ (r.last + 100_000 ≤ s.clock → s.clock < r.since + 10_000_000 → r.node = s.trayPos →
      ((s.berth r.berth).enable = true → (s.berth r.berth).msgs.length < 8 → s.ownerLive (s.berth r.berth).owner = true → (s.berth r.berth).clearing = false →
        Runs (.replyRetry slot) s fun t =>
          (t.berth r.berth).msgs = (s.berth r.berth).msgs ++ [r.msg] ∧ OtherBerths s t r.berth ∧ t.harbour = { s.harbour with replies := rest }
            ∧ Signalled t (s.berth r.berth).owner 3
            ∧ Only s t { s with berths := t.berths, harbour := t.harbour, regs := t.regs, harts := t.harts } [at_ (.core (s.berth r.berth).owner) 0x030])
      ∧ ((s.berth r.berth).enable = false ∨ (8 ≤ (s.berth r.berth).msgs.length ∧ s.ownerLive (s.berth r.berth).owner = true ∧ (s.berth r.berth).clearing = false) →
        Runs (.replyRetry slot) s fun t =>
          t.harbour = { s.harbour with replies := rest ++ [{ r with last := s.clock }] } ∧ Only s t { s with harbour := t.harbour } [])))

/-- Berths and bells: posting, taking, clearing, notices and bell words. Where the spec leaves a point open it follows the model's choices of log entries 26 and 83. -/
def Obligations.BerthsAndBells : Prop :=
  Claims.ComposeWritten ∧ Claims.BerthPosts ∧ Claims.BerthTakesAndClears ∧ Claims.AbortNotices ∧ Claims.BellsRing

/-- Harbourmaster commands that are answered at once. Where the spec leaves a point open it follows the model's choices of log entries 46 and 49. -/
def Obligations.CommandsPerformed : Prop :=
  Claims.CommandsTaken ∧ Claims.CommandsThatRead ∧ Claims.CommandsThatSet ∧ Claims.CoreCommands

/-- Harbourmaster commands for a mark, long operations and replies. Where the spec leaves a point open it follows the model's choices of log entries 47, 48, 50 and 52. -/
def Obligations.CommandsThatGoOn : Prop :=
  Claims.CommandsForAMark ∧ Claims.LongCommands ∧ Claims.LongOperationsAndReplies

/-! ## Faults (15) -/

/-- FAULT_REPORT (15 R405, R413, R414): the hub takes the next report, counts it, and acts on the domain it names, here a port that is DOWN or a domain already in
FAULT, SELFTEST or FENCED. -/
def Sys2Proof.Claims.FaultReportActs : Prop :=
  ∀ (s : State) (r : Report), s.reports = [r] → r.source < 64 → sourceClass r.source ≠ 3 → s.bitAt .hub (0x1000 + 8 * r.source) 0 = false →
    let counted := fun (t : State) =>
      t.regN .hub (0x1400 + 8 * r.source) = min (s.regN .hub (0x1400 + 8 * r.source) + 1) (2 ^ 64 - 1) ∧ t.reports = []
    (r.domain = none →
      Runs .faultReport s fun t =>
        counted t ∧ Only s t { s with regs := t.regs, life := t.life, reports := t.reports } [at_ .hub (0x1400 + 8 * r.source)])
    ∧ (∀ p : Fin 16, r.domain = some (448 + p) → s.domainState (448 + p) = 0 → s.portState p = 0 →
      Runs .faultReport s fun t =>
        counted t ∧ t.domainState (448 + p) = 1 ∧ (t.domain (448 + p)).quietFrom = s.clock
          ∧ (t.domain (448 + p)).quietMs = s.quietMs (448 + p) ∧ t.fldAt .hub (fdOff (448 + p) 0) 8 8 = r.source
          ∧ t.regN .hub (fdOff (448 + p) 0x10) = s.now
          ∧ t = { s with regs := t.regs, life := t.life, reports := t.reports, domains := t.domains } ∧ SameBytes s t)
    ∧ (∀ d : Fin 466, r.domain = some d.val → s.domainState d = 1 →
      Runs .faultReport s fun t => counted t ∧ t.domainState d = 1 ∧ (t.domain d).quietFrom = s.clock)
    ∧ (∀ d : Fin 466, r.domain = some d.val → s.domainState d = 2 → Runs .faultReport s fun t => counted t ∧ t.domainState d = 3)
    ∧ (∀ d : Fin 466, r.domain = some d.val → s.domainState d = 3 → Runs .faultReport s fun t => counted t ∧ t.domainState d = 3)

/-- A FAT report takes the node into the safe state (15 R405, R409); a report that names a core in service fences it (15 Table 15-4). -/
def Sys2Proof.Claims.FatalReportEntersSafe : Prop :=
  (∀ (s : State) (r : Report), s.reports = [r] → r.domain = none → sourceClass r.source = 3 → s.bitAt .hub (0x1000 + 8 * r.source) 0 = false →
    Runs .faultReport s fun t => t.safe = true ∧ SameBytes s t)
  ∧ (∀ (s : State) (r : Report) (c : Fin 256), s.reports = [r] → r.domain = some c.val → sourceClass r.source = 2 →
      s.bitAt .hub (0x1000 + 8 * r.source) 0 = false → s.domainState c = 0 →
    Runs .faultReport s fun t => t.coreState c = 3 ∧ t.domainState c = 1)

/-- The sources that a part raises (15 R402, Table 15-2): each appends its report, with its domain, to those on their way to the hub. -/
def Sys2Proof.Claims.SourcesRaised : Prop :=
  ∀ s : State,
    let raises := fun (i : Instr) (source : Nat) (domain : Option Nat) =>
      Runs i s fun t =>
        t.reports = s.reports ++ [{ source := source, domain := domain, detail := 0, tide := s.now }]
          ∧ Only s t { s with reports := t.reports } []
    raises .clkLoss 0x35 (some 467) ∧ raises .meshDown 0x36 (some 467) ∧ raises .hubErr 0x37 (some 467)
      ∧ raises .hmLockstep 0x28 (some 466) ∧ raises .hmWdog 0x29 (some 466)
      ∧ (∀ c : Fin 256, raises (.coreUe c) 0x0A (some c)) ∧ (∀ q : Fin 2, raises (.quayUe q) 0x1D (some (464 + q)))
      ∧ (∀ d : Fin 4, Runs (.droop d) s fun t =>
          t.reports = s.reports ++ [{ source := 0x33, domain := some 467, detail := 0, tide := s.now }]
            ∧ Only s t { s with reports := t.reports, life := t.life } [])
      ∧ (s.power.porN = true → Runs .vrFault s fun t =>
          t.reports = s.reports ++ [{ source := 0x34, domain := some 467, detail := 0, tide := s.now }] ∧ t.power.vrFaultN = false
            ∧ Only s t { s with reports := t.reports, power := t.power } [])
      ∧ (∀ ch : Fin 192, s.chState ch < 2 → Runs (.hbmPhy ch) s fun t =>
          t.chState ch = 3
            ∧ t.reports = s.reports ++ [{ source := 0x06, domain := some (256 + ch), detail := hbmDetail ch 0, tide := s.now }]
            ∧ SameBytes s t)

/-- The thermal sources (10 R258, 15 R402, R403), readings in 0.01 °C above −40 °C: at its threshold a sensor raises its source; a HOT one marks a change to EFF
for the next multiple of 1 000 ns, unless EFF is the target already. -/
def Sys2Proof.Claims.ThermalSources : Prop :=
  (∀ (s : State) (k : Fin 12) (reading : BitVec 16),
    (13_500 ≤ reading.toNat →
      Runs (.hbmHot k reading) s fun t =>
        t.reports = s.reports ++ [{ source := 0x04, domain := none, detail := sensorDetail (7 + k) reading.toNat, tide := s.now }]
          ∧ t.fldAt (.stack k) 0x010 0 16 = reading.toNat
          ∧ t.harbour.modes = s.harbour.modes ++
              (if s.modeTarget = 2 then [] else [{ value := 2, forced := true, mark := (s.now / 1000 + 1) * 1000 }])
          ∧ Only s t { s with regs := t.regs, reports := t.reports, harbour := t.harbour } [at_ (.stack k) 0x010])
    ∧ (14_500 ≤ reading.toNat →
      Runs (.hbmCrit k reading) s fun t =>
        t.reports = s.reports ++ [{ source := 0x05, domain := some 467, detail := sensorDetail (7 + k) reading.toNat, tide := s.now }]
          ∧ Only s t { s with regs := t.regs, reports := t.reports } [at_ (.stack k) 0x010]))
  ∧ (∀ (s : State) (k : Fin 7) (reading : BitVec 16),
    (14_500 ≤ reading.toNat →
      Runs (.dieHot k reading) s fun t =>
        t.reports = s.reports ++ [{ source := 0x31, domain := none, detail := sensorDetail k reading.toNat, tide := s.now }]
          ∧ t.harbour.modes = s.harbour.modes ++
              (if s.modeTarget = 2 then [] else [{ value := 2, forced := true, mark := (s.now / 1000 + 1) * 1000 }])
          ∧ Only s t { s with reports := t.reports, harbour := t.harbour } [])
    ∧ (15_500 ≤ reading.toNat →
      Runs (.dieCrit k reading) s fun t =>
        t.reports = s.reports ++ [{ source := 0x32, domain := some 467, detail := sensorDetail k reading.toNat, tide := s.now }]
          ∧ Only s t { s with reports := t.reports } []))
  ∧ (∀ (s : State) (k : Fin 7) (reading : BitVec 16), reading.toNat ≤ 15_000 → (s.domain 467).open_.contains (0x32, k.val) = true →
    Runs (.thermalClear ⟨k.val, by omega⟩ reading) s fun t =>
      (0x32, k.val) ∉ (t.domain 467).open_ ∧ (t.domain 467).quietFrom = s.clock ∧ Only s t { s with domains := t.domains } [])

/-- The life of a fault domain (15 R413–R415): the end of the quiet period starts the self-test; a failure fences the domain, and ends a channel's recovery; CONDITION_CLEAR of an open condition of
the package starts its quiet period anew. -/
def Sys2Proof.Claims.DomainLife : Prop :=
  (∀ (s : State) (d : Fin 467), s.quietOver d = true →
    Runs (.quietPeriodEnd ⟨d.val, by omega⟩) s fun t =>
      t.domainState d = 2 ∧ Only s t { s with regs := t.regs, channels := t.channels } [at_ .hub (fdOff d 0)])
  ∧ (∀ (s : State) (d : Fin 466), s.domainState d = 2 → s.domainState 467 = 0 →
    Runs (.selftestFail ⟨d.val, by omega⟩) s fun t =>
      t.domainState d = 3 ∧ (256 ≤ d.val → d.val < 448 → (t.channel (d - 256)).recover = false)
        ∧ t = { s with regs := t.regs, channels := t.channels, life := t.life } ∧ SameBytes s t)
  ∧ (∀ (s : State) (src : Fin 64) (k : Nat), 0x33 ≤ src.val → src.val ≤ 0x36 → (src.val, k) ∈ (s.domain 467).open_ →
    Runs (.conditionClear src) s fun t =>
      (∀ j, (src.val, j) ∉ (t.domain 467).open_) ∧ (∀ o, o ∈ (s.domain 467).open_ → o.1 ≠ src.val → o ∈ (t.domain 467).open_)
        ∧ (t.domain 467).quietFrom = s.clock ∧ Only s t { s with domains := t.domains, power := t.power } [])

/-- SELFTEST_PASS of a core's domain (15 R415): RECOV saturates at 0xFFFF; WIN_COUNT starts at 1 in a new window and otherwise counts on; the domain is NORMAL with the
core OFFLINE and its well and banks zero where WIN_COUNT does not exceed REC_LIMIT, and FENCED where it does. -/
def Sys2Proof.Claims.CoreSelftestPass : Prop :=
  ∀ (s : State) (c : Fin 256), s.domainState c = 2 → s.domainState 467 = 0 →
    let st := s.reg .hub (fdOff c 0)
    let fresh := fld st 32 8 = 0 ∨ s.windowS c * 1_000_000_000 < s.now - s.regN .hub (fdOff c 0x18)
    ∀ count, (fresh → count = 1) → (¬ fresh → count = fld st 32 8 + 1) →
    Runs (.selftestPass ⟨c.val, by omega⟩) s fun t =>
      t.fldAt .hub (fdOff c 0) 16 16 = min (fld st 16 16 + 1) 0xFFFF
        ∧ t.fldAt .hub (fdOff c 0) 32 8 = count % 256
        ∧ (fresh → t.regN .hub (fdOff c 0x18) = s.now) ∧ (¬ fresh → t.reg .hub (fdOff c 0x18) = s.reg .hub (fdOff c 0x18))
        ∧ (s.recLimit c < count → t.domainState c = 3 ∧ SameBytes s t)
        ∧ (count ≤ s.recLimit c → t.domainState c = 0 ∧ t.coreState c = 2
            ∧ (∀ a, wellBase c ≤ a → a < wellBase c + 0x30_0000 → t.byteAt a = 0)
            ∧ (∀ a, a < wellBase c ∨ wellBase c + 0x30_0000 ≤ a → t.byteAt a = s.byteAt a))

/-- The lifetime record (15 R420–R423). LIFETIME_WRITE puts the next SEQ into the copy with the older one and leaves the other; SENSOR_SAMPLE counts a second of the
first sensor in its bin; ENERGY_INTEGRATE adds to EN_PKG. -/
def Obligations.LifetimeRecord : Prop :=
  (∀ s : State, s.harbour.inReset = false →
    let c := if s.copySeq 0 ≤ s.copySeq 1 then 0 else 1
    Runs .lifetimeWrite s fun t =>
      t.copySeq c = (max (s.copySeq 0) (s.copySeq 1) + 1) % 2 ^ 32 ∧ t.life.written = s.now
        ∧ (∀ k, (1 - c) * copySize ≤ k → k < (2 - c) * copySize → Tab.get 0 t.life.nvm k = Tab.get 0 s.life.nvm k)
        ∧ Only s t { s with life := t.life } [])
  ∧ (∀ (s : State) (r : BitVec 16),
    Runs (.sensorSample [r]) s fun t =>
      t.lifeCount (0x1000 + 4 * tempBin r.toNat) 4 = min (s.lifeCount (0x1000 + 4 * tempBin r.toNat) 4 + 1) (2 ^ 32 - 1)
        ∧ Only s t { s with life := t.life } [])
  ∧ (∀ (s : State) (parts : List Nat),
    Runs (.energyIntegrate parts) s fun t =>
      t.regN .hub 0x010 = (s.regN .hub 0x010 + sumNat (parts.take 8)) % 2 ^ 64
        ∧ Only s t { s with regs := t.regs, life := t.life } [at_ .hub 0x010])

/-- What a fault report does, and the life of a fault domain. Where the spec leaves a point open it follows the model's choices of log entry 45. -/
def Obligations.FaultDomains : Prop :=
  Claims.FaultReportActs ∧ Claims.FatalReportEntersSafe ∧ Claims.DomainLife ∧ Claims.CoreSelftestPass

/-- Sources that raise fault reports. Where the spec leaves a point open it follows the model's choices of log entries 42 and 43. -/
def Obligations.FaultSources : Prop :=
  Claims.SourcesRaised ∧ Claims.ThermalSources

/-! ## Checkpoints (16) -/

/-- The checkpoint that runs is in its phase, under the harbourmaster's firmware, with a plan of 768 bytes and no abort asked for. -/
def Sys2Proof.Claims.CkptIn (s : State) (k : Checkpoint) (phase : Nat) : Prop :=
  s.ckpt = some k ∧ s.hmRuns = true ∧ k.phase = phase ∧ k.plan.length = 768 ∧ ∀ o, s.longAt k.status = some o → o.abort = false

/-- No completion word of a piece in flight has come (16 R431). -/
def Sys2Proof.Claims.NoneCame (s : State) (k : Checkpoint) : Prop :=
  ∀ x ∈ k.pieces, x.inFlight = true → s.memReadN (x.chain + 64) 8 = 0

/-- The status word of the checkpoint's long operation lies in HBM, in channels that are not lost. -/
def Sys2Proof.Claims.StatusLive (s : State) (k : Checkpoint) (o : LongOp) : Prop :=
  s.longAt k.status = some o ∧ o.msg.length = 64 ∧ Live s k.status 64

/-- CHECKPOINT_BEGIN (16 R425, R428, R430, R434, R435): from its start mark on, a checkpoint whose plan no longer passes its checks ends FAILED; otherwise every destination has its
target generation, of one EXPORT destination the generation that is not committed or has the lower SEQ, its MAGIC is zeroed, the directory stands in STAGE and FORM has begun. Before
the mark nothing changes. -/
def Sys2Proof.Claims.CheckpointBegins : Prop :=
  ∀ (s : State) (k : Checkpoint), s.ckpt = some k → s.hmRuns = true → k.phase = 0 →
    (s.now < k.mark → Runs .checkpointBegin s fun t => t = s)
    ∧ (k.mark ≤ s.now → s.commandPlan k.planAt false = none →
      Runs .checkpointBegin s fun t =>
        t.ckpt = none ∧ ∀ o, StatusLive s k o → t.byteAt (k.status + 10) = 3 ∧ t.byteAt (k.status + 11) = 0x0A)
    ∧ (∀ p, k.mark ≤ s.now → s.commandPlan k.planAt false = some p →
      Runs .checkpointBegin s fun t =>
        ∃ k', t.ckpt = some k' ∧ k'.phase = 2 ∧ k'.plan = p ∧ k'.formFrom = s.clock ∧ k'.pieces = planPieces p ∧ k'.formed = 256
          ∧ k'.dests.length = k.dests.length + plDests p ∧ k'.step = k.step)
    ∧ (∀ p, k.mark ≤ s.now → k.dests = [] → s.commandPlan k.planAt false = some p → plDests p = 1 → dsFld p 0 0 1 = 3 →
        Live s (dsGen p 0 0) 64 → Live s (dsGen p 0 1) 64 → s.linePoison (dsGen p 0 0) 64 = false → s.linePoison (dsGen p 0 1) 64 = false →
        Live s (plStage p) 256 → (∀ g : Fin 2, dsGen p 0 g + 64 ≤ plStage p ∨ plStage p + bodyBytes p ≤ dsGen p 0 g) →
      let r := fun g => s.bytesAt (dsGen p 0 g) 64
      let done := fun g => committedRec p (r g)
      let seq := fun g => byteFld (r g) 12 4
      ∀ target next, (done 0 = false → target = 0) → (done 0 = true → done 1 = false → target = 1) →
        (done 0 = true → done 1 = true → target = if seq 0 ≤ seq 1 then 0 else 1) →
        (done 0 = false → done 1 = false → next = 1) → (done 0 = false → done 1 = true → next = (seq 1 + 1) % 2 ^ 32) →
        (done 0 = true → done 1 = false → next = (seq 0 + 1) % 2 ^ 32) → (done 0 = true → done 1 = true → next = (max (seq 0) (seq 1) + 1) % 2 ^ 32) →
      Runs .checkpointBegin s fun t =>
        (∃ k', t.ckpt = some k' ∧ k'.dests = [{ gen := target, seq := next }] ∧ k'.cause = k.cause)
          ∧ (∀ i, i < 4 → t.byteAt (dsGen p 0 target + i) = 0)
          ∧ ∀ i, i < 256 → t.byteAt (plStage p + i) = (directory p).getD i 0)

/-- FORM (16 R431): FORM_PIECE_ENTER writes the descriptor of the next piece that the core may carry, with a clear completion word, and enters its chain into the core's pump 1;
FORM_POLL takes the pieces whose completion words have come as done and counts their bytes; a piece that no ONLINE core can carry ends the entering. -/
def Sys2Proof.Claims.PiecesFormed : Prop :=
  (∀ (s : State) (k : Checkpoint) (c : Fin 256) (before after : List Piece) (x : Piece),
    let free := fun (y : Piece) => y.core = none ∧ y.done = false ∧ s.mayCarry k y c = true
    let a := chainAt k.plan c
    CkptIn s k 2 → k.noMore = false → NoneCame s k → k.pieces = before ++ x :: after → (∀ y ∈ before, ¬ free y) → free x →
      (∀ y ∈ k.pieces, y.inFlight = true → y.core ≠ some c.val) → s.coreState c = 0 → (s.queue c 5).reserved = none → (s.queue c 5).chains.length < 4 →
      Live s a 72 → a % 64 = 0 →
    Runs (.formPieceEnter c) s fun t =>
      (∃ k', t.ckpt = some k' ∧ k'.pieces = before ++ { x with core := some c.val, chain := a } :: after ∧ k'.formed = k.formed)
        ∧ (t.queue c 5).chains = (s.queue c 5).chains ++ [{ addr := a }]
        ∧ (let d := t.bytesAt a 72
           let from_ := sgAddr k.plan x.segment + x.first * (sgSrc k.plan x.segment).size
           let dst := plStage k.plan + sgOff k.plan x.segment + x.first * (sgStore k.plan x.segment).size
           byteFld d 8 8 = from_ % 2 ^ 64 ∧ byteFld d 16 8 = dst % 2 ^ 64 ∧ byteFld d 24 4 = x.count % 2 ^ 32 ∧ byteFld d 56 8 = (a + 64) % 2 ^ 64
             ∧ byteFld d 64 8 = 0)
        ∧ Stores s t { s with ckpt := t.ckpt, queues := t.queues, harbour := t.harbour, regs := t.regs, mem := t.mem, poison := t.poison, channels := t.channels, reports := t.reports }
            memKeys a 72)
  ∧ (∀ (s : State) (k : Checkpoint), CkptIn s k 2 →
    ((∀ x ∈ k.pieces, x.core.isSome = true) → (∀ x ∈ k.pieces, x.inFlight = true → s.memReadN (x.chain + 64) 8 ≠ 0) →
      Runs .formPoll s fun t =>
        t.ckpt = some { k with
            formed := k.formed + sumNat ((k.pieces.filter Piece.inFlight).map fun x => x.count * (sgStore k.plan x.segment).size)
            pieces := k.pieces.map fun x => { x with done := true } }
          ∧ Only s t { s with ckpt := t.ckpt, harbour := t.harbour } [])
    ∧ (∀ x, k.pieces = [x] → x.core = none → x.done = false → (∀ c : Fin 256, s.coreState c = 0 → s.mayCarry k x c = false) →
      Runs .formPoll s fun t =>
        t.ckpt = some { k with noMore := true, cause := if k.cause = 0 then 2 else k.cause } ∧ Only s t { s with ckpt := t.ckpt, harbour := t.harbour } []))

/-- The end of FORM (16 R430–R432): FORM_END with every piece done rings the plan's bell and begins SHIP, and fails the checkpoint where no more pieces were to be entered and none
is in flight; FORM_LATE after FORM_LIMIT stops the entering, and fails the checkpoint where no piece is in flight. -/
def Sys2Proof.Claims.FormEnds : Prop :=
  (∀ (s : State) (k : Checkpoint), CkptIn s k 2 → (∀ x ∈ k.pieces, x.done = true) →
    (k.noMore = false → (∀ d, d < 4 → dsFld k.plan d 0 1 ≠ 2) → k.dests.length ≤ 4 → (∃ d ∈ k.dests, d.committed = false ∧ d.failed = false) →
      let shipping := fun (t : State) => t.ckpt = some { k with phase := 3, formedAt := s.now, formed := bodyBytes k.plan }
      (plFlag k.plan 0 = false → Runs .formEnd s fun t => shipping t ∧ Only s t { s with ckpt := t.ckpt, harbour := t.harbour } [])
      ∧ (∀ i, plFlag k.plan 0 = true → bellAt (byteFld k.plan 48 8) = .own i →
        Runs .formEnd s fun t => shipping t ∧ t.bell i = s.bell i ||| BitVec.ofNat 64 (byteFld k.plan 56 8)
          ∧ Only s t { s with ckpt := t.ckpt, harbour := t.harbour, bells := t.bells, regs := t.regs, harts := t.harts } [at_ (.core i) 0x030]))
    ∧ (k.noMore = true → Runs .formEnd s fun t => t.ckpt = none))
  ∧ (∀ (s : State) (k : Checkpoint), CkptIn s k 2 → NoneCame s k → (∃ x ∈ k.pieces, x.done = false) →
    let limit := byteFld k.plan 40 8
    (limit = 0 ∨ s.clock < k.formFrom + limit → Runs .formLate s fun t => t.ckpt = some k ∧ Only s t { s with ckpt := t.ckpt, harbour := t.harbour } [])
    ∧ (limit ≠ 0 → k.formFrom + limit ≤ s.clock → (∃ x ∈ k.pieces, x.inFlight = true) →
      Runs .formLate s fun t =>
        t.ckpt = some { k with noMore := true, cause := if k.cause = 0 then 4 else k.cause } ∧ Only s t { s with ckpt := t.ckpt, harbour := t.harbour } [])
    ∧ (limit ≠ 0 → k.formFrom + limit ≤ s.clock → (∀ x ∈ k.pieces, x.inFlight = false) → Runs .formLate s fun t => t.ckpt = none))

/-- SHIP_DONE and COMMIT (16 R430, R434, R436) of an EXPORT destination: the staged body and the header with its digest stand in the target generation; then its commit record, and
with the last destination the checkpoint is COMPLETED. A staged body that reads as poisoned fails a single destination, and with it the checkpoint. -/
def Sys2Proof.Claims.ShardsShipped : Prop :=
  ∀ (s : State) (k : Checkpoint) (i : Fin 4) (d : Destination), CkptIn s k 3 → k.dests[i.val]? = some d → dsFld k.plan i 0 1 = 3 →
    let g := dsGen k.plan i d.gen
    let n := bodyBytes k.plan
    (d.shipped = false → d.failed = false → Live s (plStage k.plan) n → s.linePoison (plStage k.plan) n = false → plStage k.plan % 256 = 0 → Live s g (8192 + n) →
      Runs (.shipDone i) s fun t => ∃ h,
        h.length = 128 ∧ h.take 96 = shardHead k d ∧ h.drop 96 = shake256 (shardHead k d ++ s.bytesAt (plStage k.plan) n) 32
          ∧ t.ckpt = some (k.setDest i { d with shipped := true, header := h })
          ∧ (∀ j, j < 128 → t.byteAt (g + 4096 + j) = h.getD j 0) ∧ (∀ j, j < n → t.byteAt (g + 8192 + j) = s.byteAt (plStage k.plan + j))
          ∧ Stores s t { s with ckpt := t.ckpt, harbour := t.harbour, regs := t.regs, mem := t.mem, poison := t.poison, channels := t.channels, reports := t.reports } memKeys g (8192 + n))
    ∧ (k.dests = [d] → d.shipped = false → d.failed = false → (s.memRead (plStage k.plan) n).poison = true → Runs (.shipDone i) s fun t => t.ckpt = none)
    ∧ (d.shipped = true → d.committed = false → d.failed = false → d.header.length = 128 → Live s g 64 →
      ((∃ j e, k.dests[j]? = some e ∧ j ≠ i.val ∧ e.committed = false ∧ e.failed = false) →
        Runs (.commit i) s fun t =>
          t.ckpt = some (k.setDest i { d with committed := true }) ∧ (∀ j, j < 64 → t.byteAt (g + j) = (commitRecord d.header).getD j 0)
            ∧ Stores s t { s with ckpt := t.ckpt, harbour := t.harbour, regs := t.regs, mem := t.mem, poison := t.poison, channels := t.channels, reports := t.reports } memKeys g 64)
      ∧ ((∀ j e, k.dests[j]? = some e → j ≠ i.val → e.committed = true) →
        ∀ o, StatusLive s k o → k.status + 64 ≤ g ∨ g + 64 ≤ k.status →
        Runs (.commit i) s fun t =>
          t.ckpt = none ∧ t.byteAt (k.status + 10) = 2 ∧ t.byteAt (k.status + 11) = 0
            ∧ ∀ j, j < 64 → t.byteAt (g + j) = (commitRecord d.header).getD j 0))

/-- A checkpoint from its start mark to its last commit record. Where the spec leaves a point open it follows the model's choices of log entries 51 and 52. -/
def Obligations.Checkpoints : Prop :=
  Claims.CheckpointBegins ∧ Claims.PiecesFormed ∧ Claims.FormEnds ∧ Claims.ShardsShipped

/-! ## Start-up, images and power (17, 18) -/

/-- The registers that show the channels ISOLATED and the regions LOST (10 Table 10-6, R263). -/
def Sys2Proof.Claims.isolationKeys : List Nat :=
  (List.range 192).map (fun c => at_ (groupOf c) (chOff c 0x100)) ++ (List.range 6).map fun i => at_ .regionTable (8 * i)

/-- No channel serves an access yet. -/
def Sys2Proof.Claims.AllIsolated (t : State) : Prop :=
  (∀ c : Fin 192, t.chState c = 2) ∧ ∀ r, r < 288 → t.bitAt .regionTable (0x008 + 8 * (r / 64)) (r % 64) = true

/-- What a loss of power or a reset leaves (18 R488, R489), but for the registers listed: the always-on island's registers, the count of starts and the package's energy keep their values, every other register
has its reset value, memory reads zero, no unit runs, and the fuses, the banks of the images and the record's copies are kept. -/
def Sys2Proof.Claims.PoweredOff (s t : State) (keys : List Nat) : Prop :=
  (∀ a, islandKey a = true → t.getReg a = s.getReg a) ∧ t.regN .hub 0x010 = s.regN .hub 0x010
    ∧ (∀ a, islandKey a = false → a ≠ at_ .boot 0x000 → a ≠ at_ .hub 0x010 → a ≠ at_ .power 0x028 → a ≠ at_ (.port 15) 0x000 → a ∉ keys →
        t.getReg a = regDefault a)
    ∧ (∀ a, t.byteAt a = 0) ∧ t.queues = [] ∧ t.quays = [] ∧ t.groups = [] ∧ t.work = [] ∧ t.tray = [] ∧ t.ports = [] ∧ t.berths = [] ∧ t.bells = []
    ∧ t.harbour = {} ∧ t.ckpt = none ∧ t.sched = [] ∧ t.life.nvm = s.life.nvm ∧ t.revoked = s.revoked ∧ t.svnMin = s.svnMin ∧ t.pending = s.pending
    ∧ ∀ i : Fin 9, (t.image i).bankA = (s.image i).bankA ∧ (t.image i).bankB = (s.image i).bankB ∧ (t.image i).active = (s.image i).active ∧ (t.image i).boot = 2 ∧ (t.image i).trial = none

/-- Power and reset (02 R40, 17 R446, 18 R487–R490). VAON_POWER_UP clears the tide and counts a power cycle; POR_RISE samples the straps, shows the brake and alert inputs and starts from stage 2; POR_FALL leaves the
island alone; RESET_N starts again from stage 2. A start leaves every channel ISOLATED (the model's choice, log entry 76). Each acts only where the pins allow it. -/
def Sys2Proof.Claims.PowerAndReset : Prop :=
  ∀ (s : State) (straps : BitVec 5),
    (s.power.porN = false →
      Runs .vaonPowerUp s fun t =>
        t.power.vaon = true ∧ t.now = 0 ∧ (∀ a, t.getReg a = regDefault a) ∧ (∀ a, t.byteAt a = 0) ∧ t.lifeCount 0x018 4 = 1 ∧ t.life.nvm = s.life.nvm
          ∧ t.revoked = s.revoked ∧ t.svnMin = s.svnMin ∧ t.pending = s.pending)
    ∧ (s.power.porN = true → Runs .vaonPowerUp s fun t => t = s)
    ∧ (s.power.vaon = true → s.power.porN = false → s.power.slpDeepN = true →
      Runs (.porRise straps) s fun t =>
        t.power.porN = true ∧ t.power.straps = straps ∧ t.regN .power 0x028 = straps.toNat ∧ t.stage = 2
          ∧ t.fldAt .boot 0x000 32 32 = (s.fldAt .boot 0x000 32 32 + 1) % 2 ^ 32
          ∧ t.bitAt (.port 15) 0x000 5 = (straps.toNat.testBit 4 || s.bitAt (.port 15) 0x000 5)
          ∧ t.bitAt .power 0x000 5 = !s.power.brakeN ∧ t.bitAt .power 0x000 6 = !s.power.alertN ∧ AllIsolated t
          ∧ Only s t { s with power := t.power, regs := t.regs, shadow := t.shadow }
              (at_ .power 0x000 :: at_ .power 0x028 :: at_ .boot 0x000 :: at_ (.port 15) 0x000 :: isolationKeys))
    ∧ (s.power.vaon = false ∨ s.power.porN = true ∨ s.power.slpDeepN = false → Runs (.porRise straps) s fun t => t = s)
    ∧ (s.power.porN = true →
      Runs .porFall s fun t =>
        PoweredOff s t [] ∧ t.power.porN = false ∧ t.power.vaon = s.power.vaon ∧ t.stage = 0 ∧ t.fldAt .boot 0x000 32 32 = s.fldAt .boot 0x000 32 32)
    ∧ (s.power.porN = false → Runs .porFall s fun t => t = s)
    ∧ (s.power.porN = true →
      Runs (.resetN straps) s fun t =>
        PoweredOff s t (at_ .power 0x000 :: isolationKeys) ∧ AllIsolated t ∧ t.power.porN = true ∧ t.power.straps = straps ∧ t.regN .power 0x028 = straps.toNat ∧ t.stage = 2
          ∧ t.fldAt .boot 0x000 32 32 = (s.fldAt .boot 0x000 32 32 + 1) % 2 ^ 32)
    ∧ (s.power.porN = false → Runs (.resetN straps) s fun t => t = s)

/-- The start-up stages (17 R446, R447, R449, R450, R464, R465). BOOT_ROM runs the active bank of instance 0 if it passes its check, the other if only that passes, and enters recovery
mode, UNNAMED with the provisional tray routes, where neither does; the pointer to the active bank does not move. FIRMWARE_STAGE of a node without retention words is UNNAMED at its straps' tray position with the provisional tray routes, and takes commands; HBM_STAGE
leaves memory zero and every channel ACTIVE but those that failed. A stage runs only after the one before it. -/
def Sys2Proof.Claims.StartUpStages : Prop :=
  ∀ (s : State),
    let routed := fun (t : State) => t.named = false ∧ t.selfNgi = s.power.straps.toNat % 8 ∧ t.bitAt .router 0x000 0 = false
      ∧ ∀ u : Fin 8, t.fldAt .routeTable ((t.selfNgi / 8 * 8 + u) / 2 * 8) (32 * (u % 2)) 32 = provisional (t.selfNgi % 8) u
    (s.power.porN = true → s.stage = 2 →
      let b := s.image 0
      let ok := fun k => !(b.image k).isEmpty && s.verifyImage (b.image k) 0 == 0
      let first := if b.active = 1 then 1 else 0
      let pick := if ok first then first else if ok (1 - first) then 1 - first else 2
      Runs .bootRom s fun t =>
        t.stage = 4 ∧ (t.image 0).boot = pick ∧ (t.image 0).active = b.active ∧ (pick ≠ 2 → t.inRecovery = s.inRecovery)
          ∧ (pick = 2 → t.inRecovery = true ∧ (s.fldAt .boot 0x000 8 8 = 0 → t.fldAt .boot 0x000 8 8 = 4) ∧ routed t) ∧ SameBytes s t)
    ∧ (s.power.porN = false ∨ s.stage ≠ 2 → Runs .bootRom s fun t => t = s)
    ∧ (s.power.porN = true → s.stage = 4 → s.inRecovery = false →
      Runs .firmwareStage s fun t =>
        t.stage = 5 ∧ t.bitAt .harbour 0x00 0 = true ∧ t.harbour.orphans = []
          ∧ (evaluateImages (t.imageSet none) = none ↔ t.limited = true)
          ∧ (s.power.retention = [] → t.named = false ∧ t.selfNgi = s.power.straps.toNat % 8)
          ∧ (s.power.retention ≠ [] → t.named = true ∧ t.selfNgi = byteFld s.power.retention 0 4 % 2 ^ 18 ∧ t.power.retention = [])
          ∧ t.bitAt .router 0x000 0 = false
          ∧ (∀ u : Fin 8, t.fldAt .routeTable ((t.selfNgi / 8 * 8 + u) / 2 * 8) (32 * (u % 2)) 32 = provisional (t.selfNgi % 8) u))
    ∧ (s.power.porN = false ∨ s.stage ≠ 4 ∨ s.inRecovery = true → Runs .firmwareStage s fun t => t = s)
    ∧ (∀ failed : List Nat, s.power.porN = true → s.stage = 5 →
      Runs (.hbmStage failed) s fun t =>
        t.stage = 6 ∧ (∀ a, t.byteAt a = 0) ∧ (∀ a, t.poisonAt a = false) ∧ t.acc = []
          ∧ ∀ c : Fin 192, t.chState c = if failed.contains c.val then 3 else 0)
    ∧ (∀ failed : List Nat, s.power.porN = false ∨ s.stage ≠ 5 → Runs (.hbmStage failed) s fun t => t = s)

/-- Activations (17 R457, R458, Table 17-4): at its mark the inactive bank of the instance runs unconfirmed, and instance 0 holds its commands; INSTANCE_CONFIRM makes a bank that runs the
active one and reverts one that does not; instance 0 unconfirmed for 500 ms reverts with ACT_FAIL. Where the spec leaves a point open it follows the model's choices of log entry 50. -/
def Obligations.Activations : Prop :=
  (∀ (s : State) (i : Fin 9) (a : Marked), s.harbour.inReset = false → s.harbour.hold = false →
      (s.harbour.activations.find? fun a => a.value == i.val) = some a →
    (s.now < a.mark → Runs (.activationMark i) s fun t => t = s)
    ∧ (a.mark ≤ s.now → (s.image i).trial = none → s.inRecovery = false → evaluateImages (s.setAfter [i.val]) ≠ none →
      Runs (.activationMark i) s fun t =>
        t.image i = { s.image i with trial := some (s.image i).spare, trialMark := s.clock } ∧ (∀ k, k ≠ i.val → t.image k = s.image k)
          ∧ (i.val = 0 → t.harbour.hold = true ∧ t.bitAt .harbour 0x00 0 = false)
          ∧ Only s t { s with images := t.images, harbour := t.harbour, regs := t.regs } [at_ .harbour 0x00])
    ∧ (a.mark ≤ s.now → (s.image i).trial = none → s.inRecovery = false → evaluateImages (s.setAfter [i.val]) = none →
      Runs (.activationMark i) s fun t => ∃ v : State, t = v.replyTo a.msg 0x0A [BitVec.ofNat 8 i.val]
        ∧ v = { s with harbour := { s.harbour with activations := s.harbour.activations.filter fun a => a.value != i.val } }))
  ∧ (∀ (s : State) (i : Fin 9) (b : Nat), (s.image i).trial = some b →
    (i.val ≠ 0 → Runs (.instanceConfirm i true) s fun t => (t.image i).active = b ∧ (t.image i).boot = b ∧ (t.image i).trial = none ∧ ∀ k, k ≠ i.val → t.image k = s.image k)
    ∧ (i.val ≠ 0 → Runs (.instanceConfirm i false) s fun t => t.image i = { s.image i with trial := none } ∧ ∀ k, k ≠ i.val → t.image k = s.image k)
    ∧ (i.val = 0 → s.harbour.hold = true →
      Runs (.instanceConfirm i true) s fun t =>
        t.harbour.hold = false ∧ t.bitAt .harbour 0x00 0 = true ∧ Only s t { s with harbour := t.harbour, regs := t.regs } [at_ .harbour 0x00]))
  ∧ (∀ (s : State) (b : Nat), (s.image 0).trial = some b →
    ((s.image 0).trialMark + 500_000_000 ≤ s.clock →
      Runs .activationConfirmTimeout s fun t => t.image 0 = { s.image 0 with trial := none } ∧ t.bitAt .boot 0x000 6 = true ∧ t.harbour.hold = false)
    ∧ (s.clock < (s.image 0).trialMark + 500_000_000 → Runs .activationConfirmTimeout s fun t => t = s))

/-- Sleep and wake (01 Table 1-9, R37, 17 R449, 18 R485, R486). In DOZE the UP ports are in HOLD and every VDD_CD is at 550 mV; DEEP keeps the retention words and the island; a wake
source of the depth returns the node to awake, from DEEP 30 ms after SLP_DEEP_N fell. Where the spec leaves a point open it follows the model's choices of log entry 50. -/
def Obligations.SleepAndWake : Prop :=
  (∀ (s : State) (m : Marked), SleepDue s m →
    (m.value = 1 → s.power.depth = 0 →
      Runs .sleepEntry s fun t => t.power.depth = 1 ∧ t.harbour.sleeps = [] ∧ Only s t { s with power := t.power, harbour := t.harbour } [])
    ∧ (m.value = 0 → s.power.depth = 1 → s.heldActs = [] →
      Runs .sleepEntry s fun t => t.power.depth = 0 ∧ Only s t { s with power := t.power, harbour := t.harbour } [])
    ∧ (m.value = 2 → s.coresIdle = true →
      Runs .sleepEntry s fun t => t.power.depth = 2 ∧ (∀ p : Fin 16, s.portState p = 2 → t.portState p = 3)
        ∧ (∀ n : Fin 4, Tab.get 0 t.power.setpoints n = 550) ∧ SameBytes s t)
    ∧ (m.value = 2 → s.coresIdle = false → s.now < m.mark + 10_000_000 → Runs .sleepEntry s fun t => t = s)
    ∧ (m.value = 3 →
      Runs .sleepEntry s fun t => t.power.depth = 3 ∧ t.power.slpDeepN = false ∧ t.power.deepFrom = s.clock ∧ t.power.retention = s.retained
        ∧ (∀ a, islandKey a = true → t.getReg a = s.getReg a) ∧ ∀ a, t.byteAt a = 0))
  ∧ (∀ (s : State) (w : WakeSource),
    (wakes s.power.depth w = false → Runs (.wake w) s fun t => t = s)
    ∧ (s.power.depth = 1 → w = .bell ∨ w = .berthMessage ∨ w = .engineCompletion ∨ w = .tideMark → s.heldActs = [] →
      Runs (.wake w) s fun t => t.power.depth = 0 ∧ Only s t { s with power := t.power } [])
    ∧ (s.power.depth = 2 → w = .bell ∨ w = .berthMessage ∨ w = .tideMark → s.heldActs = [] →
      Runs (.wake w) s fun t => t.power.depth = 0 ∧ t.acc = [] ∧ (∀ p : Fin 16, s.portState p = 3 → t.portState p = 2)
        ∧ (s.power.brakeN = true → ∀ n : Fin 4, Tab.get 0 t.power.setpoints n = trimmed n (modeMv s.modeTarget)))
    ∧ (s.power.depth = 3 → w = .tideMark ∨ w = .comparator ∨ w = .management →
      Runs (.wake w) s fun t => t.power = { s.power with wakeHeld := true } ∧ Only s t { s with power := t.power } []))
  ∧ (∀ s : State,
    (s.power.depth = 3 → s.power.wakeHeld = true → s.power.deepFrom + 30_000_000 ≤ s.clock →
      Runs .deepWake s fun t => t.power = { s.power with depth := 0, wakeHeld := false, slpDeepN := true } ∧ t.stage = 1
        ∧ Only s t { s with power := t.power, regs := t.regs } [at_ .boot 0x000])
    ∧ (s.power.depth ≠ 3 ∨ s.power.wakeHeld = false ∨ s.clock < s.power.deepFrom + 30_000_000 → Runs .deepWake s fun t => t = s))

/-- POWER_CONTROL_TICK (18 R477): the sample and the mean over at most 100 samples are shown, and outside the hold of a fast cut D falls by one above 98 % of the sustained figure, not
below 4, and rises by one below 95 %, not above 64. -/
def Sys2Proof.Claims.PowerControl : Prop :=
  ∀ s : State, s.power.capped = false → s.power.cutUntil = none → s.power.overRun < 9 → s.duty ≤ 64 →
    let samples := (s.packagePower :: s.power.samples).take 100
    let sum := sumNat samples
    let n := samples.length
    Runs .powerControlTick s fun t =>
      t.fldAt .power 0x010 0 32 = s.packagePower % 2 ^ 32 ∧ t.fldAt .power 0x018 0 32 = (sum / n) % 2 ^ 32
        ∧ (98 * s.sustained * n < 100 * sum → t.duty = max (s.duty - 1) 4)
        ∧ (100 * sum < 95 * s.sustained * n → t.duty = min (s.duty + 1) 64)
        ∧ (100 * sum ≤ 98 * s.sustained * n → 95 * s.sustained * n ≤ 100 * sum → t.duty = s.duty)
        ∧ Only s t { s with power := t.power, regs := t.regs } [at_ .power 0x010, at_ .power 0x018, at_ .power 0x000]

/-- Cuts and stretches (18 R479, R480): an estimate above 900 W over the sustained figure or above 2.5 kW sets D to 16 for 200 µs, the hold ends at its time, and an excursion of more
than 4 % counts the time that it stretches the clock. -/
def Sys2Proof.Claims.FastCuts : Prop :=
  (∀ (s : State) (estimate : Nat),
    (s.power.cutUntil = none → min 2_500_000 (s.sustained + 900_000) < estimate →
      Runs (.fastCut estimate) s fun t =>
        t.duty = 16 ∧ t.bitAt .power 0x000 15 = true ∧ t.bitAt .power 0x008 3 = true ∧ t.power.cutUntil = some (s.clock + 200_000)
          ∧ Only s t { s with power := t.power, regs := t.regs } [at_ .power 0x000, at_ .power 0x008])
    ∧ (estimate ≤ s.sustained → Runs (.fastCut estimate) s fun t => t = { s with power := { s.power with overSince := none } }))
  ∧ (∀ (s : State) (u : Nat), s.power.cutUntil = some u →
    (s.clock < u → Runs .fastCutHoldEnd s fun t => t = s)
    ∧ (u ≤ s.clock →
      Runs .fastCutHoldEnd s fun t =>
        t.power = { s.power with cutUntil := none } ∧ t.bitAt .power 0x000 15 = false ∧ Only s t { s with power := t.power, regs := t.regs } [at_ .power 0x000]))
  ∧ (∀ (s : State) (die : Fin 4) (ns depth : Nat),
    (depth ≤ 400 → Runs (.clockStretch die ns depth) s fun t => t = s)
    ∧ (400 < depth →
      Runs (.clockStretch die ns depth) s fun t =>
        t.regN .power (0x040 + 8 * die) = (s.regN .power (0x040 + 8 * die) + ns) % 2 ^ 64 ∧ t.bitAt .power 0x008 4 = true
          ∧ Only s t { s with regs := t.regs, life := t.life } [at_ .power (0x040 + 8 * die), at_ .power 0x008]))

/-- The node is on its way to a mode (01 R32, 18 R484): the target shows, the CD setpoints are those of the mode, and the arithmetic clock and the PD ceiling are not above the mode's. -/
def Sys2Proof.Claims.Toward (s t : State) (m : Nat) : Prop :=
  t.modeTarget = m ∧ t.power.clock = min s.power.clock (modeClock m) ∧ t.power.ceiling = min s.power.ceiling (modeCeiling m)
    ∧ ∀ n : Fin 4, Tab.get 0 t.power.setpoints n = trimmed n (modeMv m)

/-- Forced changes (18 R481, R482): PWR_BRAKE_N caps D at 16 and forces EFF, its release clears BRAKE, VR_ALERT_N forces EFF; both act only while POR_N is high. -/
def Sys2Proof.Claims.BrakeAndAlert : Prop :=
  ∀ s : State,
    (s.power.porN = true → Runs .pwrBrake s fun t =>
      t.power.brakeN = false ∧ t.power.capped = true ∧ t.bitAt .power 0x000 5 = true ∧ t.bitAt .power 0x008 0 = true ∧ t.duty = min s.duty 16
        ∧ (s.power.depth < 2 → s.modeTarget < 2 → Toward s t 2))
    ∧ (s.power.porN = false → Runs .pwrBrake s fun t => t = { s with power := { s.power with brakeN := false } })
    ∧ (Runs .pwrBrakeRelease s fun t =>
      t.power = { s.power with brakeN := true } ∧ t.bitAt .power 0x000 5 = false ∧ Only s t { s with power := t.power, regs := t.regs } [at_ .power 0x000])
    ∧ (s.power.porN = true →
      Runs .vrAlert s fun t =>
        t.power.alertN = false ∧ t.bitAt .power 0x000 6 = true ∧ t.bitAt .power 0x008 1 = true ∧ (s.power.depth < 2 → s.modeTarget < 2 → Toward s t 2))
    ∧ (s.power.porN = false → Runs .vrAlert s fun t => t = s)

/-- Transitions (01 R32, 18 R474, R481, R484): at its mark an accepted change starts, or is dropped with MODE_DROPPED in the safe state; a read-back within 1 % of every setpoint completes the
transition and ends the brake's cap; AVS_TELEMETRY_READ fills RAIL_TEL. -/
def Sys2Proof.Claims.ModeTransitions : Prop :=
  (∀ (s : State) (m : Marked), s.power.depth < 2 → s.harbour.modes = [m] → m.msg ≠ [] → m.value ≤ 2 →
    (s.now < m.mark → Runs .powerModeMark s fun t => t = s)
    ∧ (m.mark ≤ s.now → s.safe = false → s.brakeBlocks m.value = false → s.modeTarget ≠ m.value →
      Runs .powerModeMark s fun t => t.harbour.modes = [] ∧ Toward s t m.value ∧ (m.forced = false → SameBytes s t))
    ∧ (m.mark ≤ s.now → s.safe = true →
      Runs .powerModeMark s fun t => t.harbour.modes = [] ∧ t.bitAt .power 0x008 5 = true ∧ Only s t { s with harbour := t.harbour, regs := t.regs } [at_ .power 0x008]))
  ∧ (∀ s : State,
    (s.railsSettled = true → s.power.depth < 2 → s.inTransition = true →
      Runs .readbackRound s fun t =>
        t.mode = s.modeTarget ∧ t.inTransition = false ∧ t.power.capped = false ∧ t.power.clock = modeClock s.modeTarget ∧ t.power.ceiling = modeCeiling s.modeTarget
          ∧ t.duty = s.duty ∧ Only s t { s with power := t.power, regs := t.regs } [at_ .power 0x000])
    ∧ (s.railsSettled = false ∨ 2 ≤ s.power.depth → Runs .readbackRound s fun t => t = s))
  ∧ (∀ (s : State) (rails : List RailReading),
    Runs (.avsTelemetryRead rails) s fun t =>
      (∀ (r : Fin 11) x, rails[r.val]? = some x →
        t.fldAt .power (0x080 + 8 * r) 0 16 = x.mv.toNat ∧ t.fldAt .power (0x080 + 8 * r) 16 20 = x.current.toNat ∧ t.fldAt .power (0x080 + 8 * r) 36 8 = x.temp.toNat)
        ∧ Only s t { s with regs := t.regs } ((List.range 11).map fun r => at_ .power (0x080 + 8 * r)))

/-- Power, reset and the start-up stages. Where the spec leaves a point open it follows the model's choices of log entries 4, 12, 44, 50 and 76. -/
def Obligations.StartUp : Prop :=
  Claims.PowerAndReset ∧ Claims.StartUpStages

/-- Power control, cuts, forced changes and mode transitions. Where the spec leaves a point open it follows the model's choices of log entry 43. -/
def Obligations.PowerAndModes : Prop :=
  Claims.PowerControl ∧ Claims.FastCuts ∧ Claims.BrakeAndAlert ∧ Claims.ModeTransitions
end

