-- ==== Sys2Proof/Laws/Field.lean ====
section
/-! SUPPORT. Fields of a register: read after write. -/

namespace Sys2Proof.Machine

theorem bits_testBit (n lo len i : Nat) : (bits n lo len).testBit i = (decide (i < len) && n.testBit (lo + i)) := by
  unfold bits
  rw [Nat.testBit_mod_two_pow, Nat.testBit_shiftRight]

theorem getLsbD_maskOf (lo len i : Nat) (h : i < 64) :
    (BitVec.ofNat 64 (maskOf lo len)).getLsbD i = (decide (lo ≤ i) && decide (i - lo < len)) := by
  simp only [BitVec.getLsbD_ofNat, maskOf, Nat.testBit_shiftLeft, Nat.testBit_two_pow_sub_one, h, decide_true, Bool.true_and]

/-- Bit by bit, what a write to a field leaves. -/
theorem getLsbD_setFld (w : Word) (lo len v i : Nat) (h : i < 64) :
    (setFld w lo len v).getLsbD i = if lo ≤ i ∧ i < lo + len then v.testBit (i - lo) else w.getLsbD i := by
  unfold setFld
  rw [BitVec.getLsbD_or, BitVec.getLsbD_and, BitVec.getLsbD_not, getLsbD_maskOf _ _ _ h, BitVec.getLsbD_ofNat,
    Nat.testBit_shiftLeft, Nat.testBit_mod_two_pow]
  by_cases h1 : lo ≤ i
  · by_cases h2 : i < lo + len
    · have h3 : i - lo < len := by omega
      simp [h, h1, h2, h3]
    · have h3 : ¬ (i - lo < len) := by omega
      simp [h, h1, h2, h3]
  · simp [h, h1]

/-- A field reads as what was written to it. -/
@[simp] theorem fld_setFld_same (w : Word) (lo len v : Nat) (h : lo + len ≤ 64) : fld (setFld w lo len v) lo len = v % 2 ^ len := by
  apply Nat.eq_of_testBit_eq
  intro i
  unfold fld
  rw [bits_testBit, Nat.testBit_mod_two_pow]
  by_cases hi : i < len
  · have h64 : lo + i < 64 := by omega
    have e : (setFld w lo len v).toNat.testBit (lo + i) = (setFld w lo len v).getLsbD (lo + i) := rfl
    rw [e, getLsbD_setFld _ _ _ _ _ h64]
    simp [hi]
  · simp [hi]

/-- A write to a field leaves a field that does not meet it as it was. -/
theorem fld_setFld_other (w : Word) (lo len v lo' len' : Nat) (h : lo' + len' ≤ lo ∨ lo + len ≤ lo') :
    fld (setFld w lo len v) lo' len' = fld w lo' len' := by
  apply Nat.eq_of_testBit_eq
  intro i
  unfold fld
  rw [bits_testBit, bits_testBit]
  by_cases hi : i < len'
  · have e : (setFld w lo len v).toNat.testBit (lo' + i) = (setFld w lo len v).getLsbD (lo' + i) := rfl
    have e' : w.toNat.testBit (lo' + i) = w.getLsbD (lo' + i) := rfl
    rw [e, e']
    by_cases h64 : lo' + i < 64
    · rw [getLsbD_setFld _ _ _ _ _ h64]
      have hn : ¬ (lo ≤ lo' + i ∧ lo' + i < lo + len) := by omega
      simp [hn]
    · rw [BitVec.getLsbD_of_ge _ _ (by omega), BitVec.getLsbD_of_ge _ _ (by omega)]
  · simp [hi]

/-- A bit reads as what was written to it. -/
@[simp] theorem bit_setBit_same (w : Word) (i : Nat) (b : Bool) (h : i < 64) : bit (setBit w i b) i = b := by
  unfold bit setBit
  have e : ∀ x : Word, x.toNat.testBit i = x.getLsbD i := fun _ => rfl
  rw [e, getLsbD_setFld _ _ _ _ _ h]
  cases b <;> simp

/-- A write to a bit leaves every other bit as it was. -/
theorem bit_setBit_other (w : Word) (i j : Nat) (b : Bool) (h : j ≠ i) : bit (setBit w i b) j = bit w j := by
  unfold bit setBit
  have e : ∀ x : Word, x.toNat.testBit j = x.getLsbD j := fun _ => rfl
  rw [e, e]
  by_cases h64 : j < 64
  · rw [getLsbD_setFld _ _ _ _ _ h64]
    rw [if_neg (by omega)]
  · rw [BitVec.getLsbD_of_ge _ _ (by omega), BitVec.getLsbD_of_ge _ _ (by omega)]

end Sys2Proof.Machine
end

