-- ==== Sys2Proof/Laws/Frames.lean ====
section
/-! SUPPORT. Received frames: what their CRC makes of them (11 R273, R276). -/

namespace Sys2Proof.Machine

/-- A byte enters the CRC register before the others. -/
theorem crcFrom_cons (c : Nat) (b : Byte) (bs : List Byte) : crcFrom c (b :: bs) = crcFrom (crcByte c b) bs := by
  rw [crcFrom]
  split <;> simp_all

/-- Leading zero bytes leave the CRC as it is. -/
theorem crc16_zeros (n : Nat) (bs : List Byte) : crc16 (List.replicate n 0 ++ bs) = crc16 bs := by
  induction n with
  | zero => rfl
  | succ n ih =>
    rw [List.replicate_succ, List.cons_append, crc16, crcFrom_cons, show crcByte 0 0 = 0 by decide]
    exact ih

/-- Leading IDLE slots leave the CRC of a frame as it is. -/
theorem frameCrc_idle (n : Nat) (slots : List (List Byte)) (low : Nat) :
    frameCrc (List.replicate n (List.replicate 32 0) ++ slots) low = frameCrc slots low := by
  induction n with
  | zero => rfl
  | succ n ih =>
    rw [← ih]
    simp only [frameCrc, List.replicate_succ, List.cons_append, List.flatten_cons, List.append_assoc]
    exact crc16_zeros 32 _

/-- A frame beyond correction, or whose CRC fails, is a bad frame. -/
theorem frameReceive_bad {p : Nat} {f : Frame} {s : State} (up : s.portUp p = true)
    (bad : (codewordBad (s.bitAt (.port p) 0x008 3) f.symErrs0 || codewordBad (s.bitAt (.port p) 0x008 3) f.symErrs1
      || !frameCrcOk f.body) = true) : frameReceive p f s = badFrame p f.body s := by
  simp only [frameReceive, up, Bool.not_true, Bool.false_eq_true, if_false, bad, if_true]

/-- A frame that is corrected and whose CRC holds is taken, or with retry passed over where it is out of sequence. -/
theorem frameReceive_good {p : Nat} {f : Frame} {s : State} (up : s.portUp p = true)
    (good : (codewordBad (s.bitAt (.port p) 0x008 3) f.symErrs0 || codewordBad (s.bitAt (.port p) 0x008 3) f.symErrs1
      || !frameCrcOk f.body) = false) :
    frameReceive p f s =
      (let t := s.addWrap (.port p) 0x050 0 64 ((if f.symErrs0 = 0 then 0 else 1) + (if f.symErrs1 = 0 then 0 else 1))
       if (t.portRetry p && frameSeq f.body != (s.port p).rxFrames % 4096) = true then t.setPort p { s.port p with badRun := 0 }
       else takeFrame p f.body t) := by
  simp only [frameReceive, up, Bool.not_true, Bool.false_eq_true, if_false, good]

end Sys2Proof.Machine
end

