-- ==== Sys2Proof/Laws/Groups.lean ====
section
/-! SUPPORT. What the connections of a group and the arrival of a message at a berth do. -/

namespace Sys2Proof.Machine

/-! ## Connections of a group -/

@[simp] theorem GroupRun.link_setLink_same (r : GroupRun) (k : Nat) (c : GroupConn) : (r.setLink k c).link k = c := by
  simp [GroupRun.link, GroupRun.setLink]

theorem GroupRun.link_setLink_other (r : GroupRun) (j k : Nat) (c : GroupConn) (h : j ≠ k) : (r.setLink k c).link j = r.link j := by
  unfold GroupRun.link GroupRun.setLink
  exact Tab.get_set_other _ _ r.conns k j c h

@[simp] theorem GroupRun.setLink_context (r : GroupRun) (k : Nat) (c : GroupConn) : (r.setLink k c).context = r.context := rfl
@[simp] theorem GroupRun.setLink_op (r : GroupRun) (k : Nat) (c : GroupConn) : (r.setLink k c).op = r.op := rfl
@[simp] theorem GroupRun.setLink_staging (r : GroupRun) (k : Nat) (c : GroupConn) : (r.setLink k c).staging = r.staging := rfl
@[simp] theorem GroupRun.setLink_ready (r : GroupRun) (k : Nat) (c : GroupConn) : (r.setLink k c).ready = r.ready := rfl
@[simp] theorem GroupRun.setLink_inFlight (r : GroupRun) (k : Nat) (c : GroupConn) : (r.setLink k c).inFlight = r.inFlight := rfl
@[simp] theorem GroupRun.setLink_held (r : GroupRun) (k : Nat) (c : GroupConn) : (r.setLink k c).held = r.held := rfl

/-! ## A message at a berth -/

/-- A berth that is disabled, or full with a live owner, takes no message and does not change. -/
theorem State.nodePost_refused {s : State} {b : Nat} (m : List Byte)
    (h : (s.berth b).enable = false ∨ (s.ownerLive (s.berth b).owner = true ∧ (s.berth b).clearing = false ∧ 8 ≤ (s.berth b).msgs.length)) :
    s.nodePost b m = (s, false) := by
  unfold State.nodePost
  rw [if_pos]
  rcases h with h | ⟨h1, h2, h3⟩
  · simp [h]
  · simp [h1, h2, h3]

/-- A message that is taken stands last in its berth. -/
theorem State.nodePost_put {s : State} {b : Nat} (m : List Byte) (he : (s.berth b).enable = true)
    (hl : s.ownerLive (s.berth b).owner = true) (hc : (s.berth b).clearing = false) (hn : (s.berth b).msgs.length < 8) :
    s.nodePost b m = (s.putMsg b m, true) := by
  unfold State.nodePost
  rw [if_neg, if_neg] <;> simp [he, hl, hc, hn]

/-- A message for an owner that is not live counts as posted and is discarded. -/
theorem State.nodePost_discard {s : State} {b : Nat} (m : List Byte) (he : (s.berth b).enable = true)
    (h : s.ownerLive (s.berth b).owner = false ∨ (s.berth b).clearing = true) :
    s.nodePost b m = ((s.setBerth b { s.berth b with posted := ((s.berth b).posted + 1) % 2 ^ 32 }).discardMsg b 2 m, true) := by
  unfold State.nodePost
  rw [if_neg, if_pos] <;> rcases h with h | h <;> simp [he, h]

end Sys2Proof.Machine
end

