-- ==== Sys2Proof/Laws/Regs.lean ====
section
/-! SUPPORT. Registers: read after write, at addresses and at blocks. -/

namespace Sys2Proof.Machine

variable (s t : State)

@[simp] theorem State.getReg_setReg_same (a : Nat) (v : Word) : (s.setReg a v).getReg a = v := by
  simp [State.getReg, State.setReg]

theorem State.getReg_setReg_other {a b : Nat} (v : Word) (h : b ≠ a) : (s.setReg a v).getReg b = s.getReg b := by
  simp [State.getReg, State.setReg, Tab.get_set_other, h]

/-- Registers depend on the register table alone. -/
theorem State.getReg_of_regs {s t : State} (h : t.regs = s.regs) (a : Nat) : t.getReg a = s.getReg a := by
  simp [State.getReg, h]

theorem State.reg_of_regs {s t : State} (h : t.regs = s.regs) (b : Block) (o : Nat) : t.reg b o = s.reg b o :=
  State.getReg_of_regs h _

@[simp] theorem State.reg_putReg_same (b : Block) (o : Nat) (v : Word) : (s.putReg b o v).reg b o = v := by
  simp [State.reg, State.putReg]

theorem State.reg_putReg_other {b b' : Block} {o o' : Nat} (v : Word) (h : blockBase b' + o' ≠ blockBase b + o) :
    (s.putReg b o v).reg b' o' = s.reg b' o' := by
  simp [State.reg, State.putReg, State.getReg_setReg_other, h]

@[simp] theorem State.reg_putFld_same (b : Block) (o l n v : Nat) :
    (s.putFld b o l n v).reg b o = setFld (s.reg b o) l n v := by simp [State.putFld]

theorem State.reg_putFld_other {b b' : Block} {o o' l n v : Nat} (h : blockBase b' + o' ≠ blockBase b + o) :
    (s.putFld b o l n v).reg b' o' = s.reg b' o' := by simp [State.putFld, State.reg_putReg_other, h]

@[simp] theorem State.fldAt_putFld_same (b : Block) (o l n v : Nat) (h : l + n ≤ 64) :
    (s.putFld b o l n v).fldAt b o l n = v % 2 ^ n := by simp [State.fldAt, h]

theorem State.fldAt_putFld_field (b : Block) (o l n v l' n' : Nat) (h : l' + n' ≤ l ∨ l + n ≤ l') :
    (s.putFld b o l n v).fldAt b o l' n' = s.fldAt b o l' n' := by
  simp [State.fldAt, fld_setFld_other, h]

theorem State.fldAt_putFld_other {b b' : Block} {o o' l n v : Nat} (l' n' : Nat) (h : blockBase b' + o' ≠ blockBase b + o) :
    (s.putFld b o l n v).fldAt b' o' l' n' = s.fldAt b' o' l' n' := by
  simp [State.fldAt, State.reg_putFld_other, h]

@[simp] theorem State.bitAt_putBit_same (b : Block) (o i : Nat) (v : Bool) (h : i < 64) :
    (s.putBit b o i v).bitAt b o i = v := by simp [State.bitAt, State.putBit, h]

theorem State.bitAt_putBit_other {b b' : Block} {o o' : Nat} (i j : Nat) (v : Bool) (h : blockBase b' + o' ≠ blockBase b + o) :
    (s.putBit b o i v).bitAt b' o' j = s.bitAt b' o' j := by
  simp [State.bitAt, State.putBit, State.reg_putReg_other, h]

/-- A register other than the one written keeps its value. -/
theorem State.getReg_putReg_other {b : Block} {o a : Nat} (v : Word) (h : a ≠ blockBase b + o) :
    (s.putReg b o v).getReg a = s.getReg a := State.getReg_setReg_other s v h

end Sys2Proof.Machine
end

