-- ==== Sys2Proof/Laws/Route.lean ====
section
/-! SUPPORT. Routing where one port leads to the node: the free flow hash chooses nothing (11 R300). -/

namespace Sys2Proof.Machine

/-- A packet with one UP candidate port is sent there, whatever RMODE. -/
theorem State.routePkt_one {s : State} {k : Packet} {bank p : Nat} (ttl : (s.phased k).ttl ≠ 0)
    (valid : (s.routeEntry bank (s.phased k).target).testBit 27 = true)
    (remote : (s.routeEntry bank (s.phased k).target).testBit 26 = false) (vc : (s.phased k).vc ≠ 7)
    (one : s.upPorts (s.routeEntry bank (s.phased k).target) = [p]) :
    s.routePkt k bank = .send (s.phased k) p := by
  unfold State.routePkt
  simp only [ttl, valid, remote, vc, one, if_false, Bool.not_true, Bool.false_eq_true, List.isEmpty_cons, List.length_cons,
    List.length_nil, Nat.zero_add, Nat.mod_one, List.getElem?_cons_zero]
  split
  · rename_i h; split at h <;> simp_all [State.mostCredits, leastBy]
  · rename_i h; split at h <;> simp_all [State.mostCredits, leastBy]

/-- A tray request to a node that one UP port leads to leaves by it. -/
theorem State.trayRoute_one {s : State} {node p : Nat} (valid : (s.routeEntry s.bank (s.trayNgi node)).testBit 27 = true)
    (one : s.upPorts (s.routeEntry s.bank (s.trayNgi node)) = [p]) : s.trayRoute node = some p := by
  unfold State.trayRoute
  simp [valid, one, Nat.mod_one]

end Sys2Proof.Machine
end

