-- ==== Sys2Proof/WellFormed.lean ====
section
/-! DEFINITION. Which commands are well-formed: their operands are those that the spec gives the event they stand for. The step
does not ask: a command that is not well-formed still answers a next state. -/

namespace Sys2Proof

/-- A sender code of 14 Table 14-1: endpoints 0–322. -/
def Sender.ok (s : Sender) : Bool := decide (s.endpoint.val ≤ 322)

/-- An address of the node's 48 bits, aligned to an access (00 R12). -/
def aligned (addr bytes : Nat) : Bool := decide (addr < 2 ^ 48) && addr % bytes == 0

/-- The bytes lie in HBM (10 R245), and an access is at most a line. -/
def inHbm (addr bytes : Nat) : Bool :=
  decide (1 ≤ bytes) && decide (addr % 64 + bytes ≤ 64) && decide (addr + bytes ≤ Machine.hbmEnd)

/-- Sectors of 32 bytes that an access touches: each has its ECC outcome (10 R260). -/
def sectorCount (addr bytes : Nat) : Nat := (addr + bytes + 31) / 32 - addr / 32

/-- A tray access of 12 R336: at most a line, and an AMO's operand fits its width. -/
def TrayOp.ok : TrayOp → Bool
  | .load n => decide (1 ≤ n) && decide (n ≤ 64)
  | .store d _ => decide (1 ≤ d.length) && decide (d.length ≤ 64)
  | .amo _ wide x y => wide || (decide (x.toNat < 2 ^ 32) && decide (y.toNat < 2 ^ 32))

/-- A command is well-formed. -/
def Instr.wellFormed (i : Instr) : Bool :=
  match i with
  | .registerWrite s a w _ => s.ok && aligned a (if w then 8 else 4)
  | .cfgCommit s b => s.ok && decide (b < 2 ^ 48)
  | .commitBoundary b => decide (b < 2 ^ 48)
  | .busErrorAccess s _ a n => s.ok && decide (a < 2 ^ 48) && decide (1 ≤ n) && decide (n ≤ 64)
  | .tideOrderedSetSend _ => true
  | .tideOrderedSetReceive _ t => decide (t.quality.toNat < 5)
  | .ptpMessage m => decide (m.time < 2 ^ 80) && decide (m.correction.natAbs < 2 ^ 63)
  | .ppsEdge => true
  | .holdoverEntry => true
  | .adriftEntry => true
  | .parentReturn _ _ => true
  | .lockAchieved => true
  | .stepWrite _ _ _ => true
  | .stepMark => true
  | .scheduleEntryWrite _ _ _ _ _ => true
  | .startChain _ => true
  | .addTrigger _ => true
  | .ringBell _ => true
  | .powerMode _ => true
  | .checkpointAction _ => true
  | .routeBank _ => true
  | .tideMarkComparatorHit _ => true
  | .vtcCrossing _ _ => true
  | .qTailWrite _ _ _ => true
  | .qChainWrite _ _ _ => true
  | .reservedSlotEnter _ _ => true
  | .descriptorStart _ _ => true
  | .resume _ _ => true
  | .skip _ _ => true
  | .flush _ _ => true
  | .wfi _ => true
  | .pilotWake _ => true
  | .pumpDescriptor _ _ => true
  | .pumpComplete _ _ => true
  | .pumpConvRead _ _ => true
  | .offlineDrain _ => true
  | .coreDrainDone _ => true
  | .offlineAbort _ => true
  | .online _ => true
  | .mxeDescriptor _ _ => true
  | .mxeComplete _ _ => true
  | .mxConvRead _ _ => true
  | .fleChain _ => true
  | .fleComplete _ => true
  | .flConvRead _ => true
  | .kadd _ _ _ _ _ => true
  | .ksub _ _ _ _ _ => true
  | .kmul _ _ _ _ _ => true
  | .kfma _ _ _ _ _ => true
  | .kmax _ _ _ _ _ => true
  | .kmin _ _ _ _ _ => true
  | .kdiv _ _ _ _ _ => true
  | .kcvt _ _ _ _ _ => true
  | .kgath _ _ _ _ _ => true
  | .kscat _ _ _ _ _ => true
  | .kdot _ _ _ _ _ => true
  | .ksum _ _ _ _ _ => true
  | .kamax _ _ _ _ _ => true
  | .xkmlvInterruptStop _ _ _ _ _ _ n c => decide (n ≤ 16_777_216) && decide (c < 64)
  | .xkmlvCsrWrite _ _ _ => true
  | .cboClean _ _ => true
  | .cboFlush _ _ => true
  | .cboInval _ _ => true
  | .cboZero _ _ => true
  | .svBatchStart _ => true
  | .segmentClaim _ => true
  | .segmentComplete _ => true
  | .stopMark _ => true
  | .moveReqPoll _ => true
  | .svQueryWrite _ _ _ _ => true
  | .ringTailWrite _ _ _ => true
  | .dispatcherEnter _ _ => true
  | .dispatcherClose _ => true
  | .batchRefused _ _ => true
  | .hbmRead a n w => inHbm a n && w.errors.length == sectorCount a n
  | .hbmWrite a d _ w => inHbm a d.length && w.errors.length == sectorCount a d.length
  | .refresh _ => true
  | .patrolScrub _ _ => true
  | .channelRetrainStart _ => true
  | .channelRetrainEnd _ _ => true
  | .channelRefillDone _ => true
  | .go _ _ => true
  | .abort _ => true
  | .tgDone _ _ _ => true
  | .chCeRead _ => true
  | .chUeRead _ => true
  | .portTraining _ => true
  | .portUp _ o => o.caps.length == 8
  | .retrain _ => true
  | .retune _ _ => true
  | .laneDrop _ _ => true
  | .laneRejoin _ _ => true
  | .portDown _ _ => true
  | .frameReceive _ f => f.body.slots.length == 40 && f.body.slots.all fun x => x.length == 32
  | .credit _ _ _ _ f => f.length == 8
  | .audit _ _ _ l => l.length == 8
  | .fence _ _ => true
  | .hello _ _ => true
  | .egressPacketStart _ => true
  | .unicast _ _ => true
  | .multicast _ _ => true
  | .escape _ _ => true
  | .basinFill _ _ => true
  | .rtrBankWrite _ _ _ => true
  | .routeTableWrite _ _ _ _ => true
  | .tagFilterWrite _ _ _ _ => true
  | .dropCountRead _ => true
  | .basinOccRead _ _ => true
  | .enable _ => true
  | .drain _ => true
  | .queueDrainDone _ => true
  | .reset _ => true
  | .qctlResume _ => true
  | .queueBellSqTail _ _ => true
  | .queueBellCqHead _ _ => true
  | .queueBellRqHead _ _ => true
  | .stagingWindowWrite _ o d _ => aligned o d.length && (d.length == 8 || d.length == 64) && decide (o + d.length ≤ 4096)
  | .put _ => true
  | .get _ => true
  | .send _ => true
  | .atomic _ => true
  | .ctrAdd _ => true
  | .nopWorkRequest _ => true
  | .operationComplete _ => true
  | .putReceive _ => true
  | .getReqReceive _ => true
  | .getRespReceive _ => true
  | .sendReceive _ => true
  | .atomicReceive _ => true
  | .atomicRespReceive _ => true
  | .ackReceive _ => true
  | .nakReceive _ => true
  | .grantReceive _ => true
  | .ctrAddReceive _ => true
  | .errorReceive _ => true
  | .retransmitTimeout _ => true
  | .gapNak _ => true
  | .ackTimer _ => true
  | .grantTimer _ => true
  | .calendarPeriodStart _ => true
  | .rankFlush _ => true
  | .trayRequest s a o => s.ok && decide (2 ^ 47 ≤ a) && decide (a < 2 ^ 48) && o.ok
  | .trayLd _ => true
  | .traySt _ => true
  | .trayAmo _ => true
  | .trayResp _ => true
  | .trayErr _ => true
  | .trayDead _ _ => true
  | .triggerAdd => true
  | .trigDropsRead _ => true
  | .clStrayRead _ => true
  | .arm _ => true
  | .groupActivate _ => true
  | .quiesce _ => true
  | .disable _ => true
  | .groupBellSqTail _ _ => true
  | .groupBellCqHead _ _ => true
  | .allreduce _ => true
  | .reduceScatter _ => true
  | .allgather _ => true
  | .broadcast _ => true
  | .alltoall _ => true
  | .gather _ => true
  | .scatter _ => true
  | .alltoallv _ => true
  | .gatherv _ => true
  | .scatterv _ => true
  | .chunk _ => true
  | .cAck _ => true
  | .cGrant _ => true
  | .cCount _ => true
  | .stepWindowEnd _ => true
  | .collectiveComplete _ => true
  | .groupStatWriteback _ => true
  | .postCompose s _ _ _ => s.ok
  | .post s _ m => s.ok && (match m with | .word _ => true | .whole b => b.length == 64)
  | .bTake s _ => s.ok
  | .berthClear _ => true
  | .aborted => true
  | .orBellWrite _ _ => true
  | .bellRead _ => true
  | .hostBellWrite _ _ => true
  | .hostRequest => true
  | .queryVersion _ => true
  | .nop _ => true
  | .setPowerMode _ => true
  | .setSleep _ => true
  | .setFec _ => true
  | .coreState _ => true
  | .coreLoad _ => true
  | .chRetrain _ => true
  | .chIsolate _ => true
  | .chRecover _ => true
  | .regRead _ => true
  | .regWrite _ => true
  | .regCopy _ => true
  | .berthAssign _ => true
  | .hostNotify _ => true
  | .checkpoint _ => true
  | .restore _ => true
  | .fwStage _ => true
  | .fwActivate _ => true
  | .attest _ => true
  | .lifetimeRead _ => true
  | .faultStatus _ => true
  | .faultRelease _ => true
  | .setNgi _ => true
  | .abortOp _ => true
  | .replyRetry _ => true
  | .statusWordUpdate _ => true
  | .faultReport => true
  | .hbmHot _ _ => true
  | .hbmCrit _ _ => true
  | .dieHot _ _ => true
  | .dieCrit _ _ => true
  | .thermalClear _ _ => true
  | .droop _ => true
  | .vrFault => true
  | .clkLoss => true
  | .meshDown => true
  | .hubErr => true
  | .hmLockstep => true
  | .hmWdog => true
  | .coreUe _ => true
  | .quayUe _ => true
  | .hbmPhy _ => true
  | .quietPeriodEnd _ => true
  | .selftestPass _ => true
  | .selftestFail _ => true
  | .lifetimeWrite => true
  | .sensorSample l => l.length == 19
  | .energyIntegrate l => l.length == 8
  | .checkpointBegin => true
  | .formPieceEnter _ => true
  | .formPoll => true
  | .formEnd => true
  | .formLate => true
  | .shipDone _ => true
  | .commit _ => true
  | .porRise _ => true
  | .porFall => true
  | .resetN _ => true
  | .bootRom => true
  | .firmwareStage => true
  | .hbmStage l => l.all fun c => decide (c < 192)
  | .activationMark _ => true
  | .activationConfirmTimeout => true
  | .sleepEntry => true
  | .wake _ => true
  | .deepWake => true
  | .powerControlTick => true
  | .fastCut _ => true
  | .fastCutHoldEnd => true
  | .clockStretch _ n d => decide (1 ≤ n) && decide (d ≤ 10_000)
  | .pwrBrake => true
  | .vrAlert => true
  | .powerModeMark => true
  | .readbackRound => true
  | .avsTelemetryRead l => l.length == 11
  | .controlSlotSend _ => true
  | .vaonPowerUp => true
  | .conditionClear _ => true
  | .instanceConfirm _ _ => true
  | .pwrBrakeRelease => true

end Sys2Proof
end

