-- ==== Sys2Proof/Tests/Slice0.lean ====
section
/-! SUPPORT. Tests: ill-formed commands that the checks refuse, and for every statement with hypotheses a state and operands that meet
them. Expected results are worked out by hand from the spec. -/

namespace Sys2Proof.Tests

open Sys2Proof Sys2Proof.Machine Sys2Proof.Claims

set_option Elab.async false

/-! ## Helpers -/

/-- The state that a command leaves. -/
def nx (c : Instr) (s : State) : State :=
  match exec c s with
  | .next t => t
  | .fault _ => s
  | .refused _ => s

/-- The node right after reset with one register at a value. -/
def withReg (b : Block) (off n : Nat) : State := State.reset.putN b off n

/-- A requester: a core's pilot, and the harbourmaster. -/
def pilot0 : Sender := { endpoint := 0 }
def master : Sender := { endpoint := 320 }

/-- What a state shows of an entry of the schedule with one word 0 and argument. -/
def entry0 (w0 w2 : Nat) : SchedEntry := { w0 := BitVec.ofNat 64 w0, w2 := BitVec.ofNat 64 w2 }

/-- What a result holds, and the error of one. -/
def good {ε α : Type} [DecidableEq α] (r : Except ε α) (x : α) : Bool :=
  match r with
  | .ok y => decide (y = x)
  | .error _ => false
def bad {ε α : Type} [DecidableEq ε] (r : Except ε α) (e : ε) : Bool :=
  match r with
  | .ok _ => false
  | .error x => decide (x = e)

/-- A range of live HBM, checked byte by byte. -/
def liveB (s : State) (a n : Nat) : Bool := decide (a + n ≤ hbmEnd) && (List.range n).all fun i => !s.lostAt (a + i)

theorem live_of_liveB {s : State} {a n : Nat} (h : liveB s a n = true) : Live s a n := by
  simp only [liveB, Bool.and_eq_true, decide_eq_true_eq, List.all_eq_true, List.mem_range, Bool.not_eq_true'] at h
  refine ⟨h.1, fun x hx hn => ?_⟩
  have := h.2 (x - a) (by omega)
  rwa [Nat.add_sub_cancel' hx] at this

/-! ## Ill-formed commands, one for each check -/

theorem test_illFormed_sender : (Instr.registerWrite { endpoint := 323 } 0x0E00_1420_0200 true 0).wellFormed = false := by decide +kernel
theorem test_illFormed_alignment : (Instr.registerWrite master 0x0E00_1420_0204 true 0).wellFormed = false := by decide +kernel
theorem test_illFormed_address : (Instr.cfgCommit master (2 ^ 48)).wellFormed = false := by decide +kernel
theorem test_illFormed_boundaryAddress : (Instr.commitBoundary (2 ^ 48)).wellFormed = false := by decide +kernel
theorem test_illFormed_noBytes : (Instr.busErrorAccess master true 0 0).wellFormed = false := by decide +kernel
theorem test_illFormed_quality :
    (Instr.tideOrderedSetReceive 0
      { quality := 5, hops := 0, seq := 0, txTide := 0, gmNgi := 0, echoSeq := 0, dwell := 0, txSub := 0, rxSub := 0 }).wellFormed = false := by
  decide +kernel
theorem test_illFormed_second :
    (Instr.ptpMessage { transport := .udpIpv4, domain := 0, kind := .sync, twoStep := true, seq := 0, time := 2 ^ 80, correction := 0 }).wellFormed = false := by decide +kernel
theorem test_illFormed_stop : (Instr.xkmlvInterruptStop 0 0 0 0 0 0 16_777_217 7).wellFormed = false := by decide +kernel
theorem test_illFormed_cause : (Instr.xkmlvInterruptStop 0 0 0 0 0 0 0 64).wellFormed = false := by decide +kernel
theorem test_illFormed_beyondHbm : (Instr.hbmRead 0x48_0000_0000 1 { errors := [[]] }).wellFormed = false := by decide +kernel
theorem test_illFormed_crossesLine : (Instr.hbmRead 63 2 { errors := [[], []] }).wellFormed = false := by decide +kernel
theorem test_illFormed_eccPerSector : (Instr.hbmWrite 31 [1, 2] false { errors := [[]] }).wellFormed = false := by decide +kernel
theorem test_illFormed_caps :
    (Instr.portUp 0 { lanes := 255, rttNs := 10, hello := none, caps := [] }).wellFormed = false := by decide +kernel
theorem test_illFormed_frame :
    (Instr.frameReceive 0 { symErrs0 := 0, symErrs1 := 0, body := { fcw := 0, slots := [List.replicate 32 0] } }).wellFormed = false := by
  decide +kernel
theorem test_illFormed_slot :
    (Instr.frameReceive 0 { symErrs0 := 0, symErrs1 := 0, body := { fcw := 0, slots := List.replicate 40 [] } }).wellFormed = false := by
  decide +kernel
theorem test_illFormed_freed : (Instr.credit 0 false false 0 []).wellFormed = false := by decide +kernel
theorem test_illFormed_sent : (Instr.audit 0 false 0 []).wellFormed = false := by decide +kernel
theorem test_illFormed_stagingWidth : (Instr.stagingWindowWrite 0 0 [1, 2, 3, 4] false).wellFormed = false := by decide +kernel
theorem test_illFormed_stagingEnd : (Instr.stagingWindowWrite 0 4096 (List.replicate 8 0) false).wellFormed = false := by decide +kernel
theorem test_illFormed_trayAddress : (Instr.trayRequest pilot0 0 (.load 8)).wellFormed = false := by decide +kernel
theorem test_illFormed_trayBytes : (Instr.trayRequest pilot0 (2 ^ 47) (.load 65)).wellFormed = false := by decide +kernel
theorem test_illFormed_trayOperand : (Instr.trayRequest pilot0 (2 ^ 47) (.amo 0 false (2 ^ 32) 0)).wellFormed = false := by decide +kernel
theorem test_illFormed_post : (Instr.post { endpoint := 400 } 0 (.word 0)).wellFormed = false := by decide +kernel
theorem test_illFormed_message : (Instr.post pilot0 0 (.whole [])).wellFormed = false := by decide +kernel
theorem test_illFormed_compose : (Instr.postCompose { endpoint := 400 } 0 0 0).wellFormed = false := by decide +kernel
theorem test_illFormed_take : (Instr.bTake { endpoint := 400 } 0).wellFormed = false := by decide +kernel
theorem test_illFormed_readings : (Instr.sensorSample []).wellFormed = false := by decide +kernel
theorem test_illFormed_parts : (Instr.energyIntegrate []).wellFormed = false := by decide +kernel
theorem test_illFormed_channel : (Instr.hbmStage [192]).wellFormed = false := by decide +kernel
theorem test_illFormed_stretch : (Instr.clockStretch 0 0 0).wellFormed = false := by decide +kernel
theorem test_illFormed_depth : (Instr.clockStretch 0 1 10_001).wellFormed = false := by decide +kernel
theorem test_illFormed_rails : (Instr.avsTelemetryRead []).wellFormed = false := by decide +kernel
theorem test_wellFormed_write : (Instr.registerWrite master 0x0E00_1420_0200 true 0).wellFormed = true := by decide +kernel

/-! ## Registers and the tide: a state for every clause of a statement -/

/-- The register at an address of a block. -/
def regOf (b : Block) (off : Nat) : RegAt :=
  (regAt (blockBase b + off)).getD { block := b, off := off, row := { off := off }, idx := 0 }

theorem wit_StepRunsFrontCommand : ({ State.reset with pending := [.ppsEdge] } : State).pending = [Instr.ppsEdge] := by decide +kernel
theorem wit_EmptyQueueTick : State.reset.pending = [] ∧ State.reset.power.vaon = false := by decide +kernel
theorem wit_StepKeepsRestOfQueue : (nx .ppsEdge { State.reset with pending := [.stepMark] }).pending = [Instr.stepMark] := by decide +kernel
theorem wit_StepKeepsMemoryForm : Memory.wf (State.reset.putByte 5 7) = true := by decide +kernel

/-- RW: TMC_MARK_15, the last of its row, by its upper half. -/
theorem wit_RegisterWriteRw :
    Plain (at_ .tide 0x27C) false (regOf .tide 0x278) ∧ (regOf .tide 0x278).row.rws = false ∧ (regOf .tide 0x278).row.w1c = 0
      ∧ (let new := written (regOf .tide 0x278) (State.reset.getReg (regOf .tide 0x278).key) (at_ .tide 0x27C) false 0xFFFF_FFFF_FFFF_FFFF
         encodingOk .tide 0x278 new = true ∧ (State.reset.getReg (regOf .tide 0x278).key ^^^ new) &&& State.reset.busyMask .tide 0x278 = 0
           ∧ (nx (.registerWrite pilot0 (at_ .tide 0x27C) false 0xFFFF_FFFF_FFFF_FFFF) State.reset).getReg (regOf .tide 0x278).key = new) := by
  unfold Plain; decide +kernel

/-- RWS: HOLDOVER_LIMIT at its highest value. -/
theorem wit_RegisterWriteRws :
    Plain (at_ .tide 0x048) true (regOf .tide 0x048) ∧ (regOf .tide 0x048).row.rws = true ∧ (regOf .tide 0x048).row.w1c = 0
      ∧ (let new := written (regOf .tide 0x048) (State.reset.getShadow (regOf .tide 0x048).key) (at_ .tide 0x048) true 10_000
         encodingOk .tide 0x048 new = true ∧ (State.reset.getShadow (regOf .tide 0x048).key ^^^ new) &&& State.reset.busyMask .tide 0x048 = 0
           ∧ (nx (.registerWrite pilot0 (at_ .tide 0x048) true 10_000) State.reset).getShadow (regOf .tide 0x048).key = 10_000) := by
  unfold Plain; decide +kernel

/-- W1C: TIDE_ERR, and the capture of SCHED_ERR. -/
theorem wit_RegisterWriteW1c :
    Plain (at_ .tide 0x018) true (regOf .tide 0x018) ∧ (regOf .tide 0x018).row.w1c ≠ 0
      ∧ (nx (.registerWrite pilot0 (at_ .tide 0x018) true 2) (withReg .tide 0x018 3)).regN .tide 0x018 = 1
      ∧ Plain (at_ .tide 0x058) true (regOf .tide 0x058) ∧ (regOf .tide 0x058).row.w1c = 2 ^ 63
      ∧ (nx (.registerWrite pilot0 (at_ .tide 0x05C) false 0x8000_0000) (withReg .tide 0x058 (2 ^ 63 + 9))).regN .tide 0x058 = 0 := by
  unfold Plain; decide +kernel

/-- HOLDOVER_LIMIT one beyond its range, a comparator's mark while it is enabled, and an offset without a register. -/
theorem wit_RegisterWriteDiscarded :
    Plain (at_ .tide 0x048) true (regOf .tide 0x048) ∧ (regOf .tide 0x048).row.w1c = 0
      ∧ encodingOk .tide 0x048 (written (regOf .tide 0x048) 100 (at_ .tide 0x048) true 10_001) = false
      ∧ State.reset.getShadow (regOf .tide 0x048).key = 100
      ∧ Plain (at_ .tide 0x200) true (regOf .tide 0x200) ∧ (regOf .tide 0x200).row.w1c = 0
      ∧ ((withReg .tide 0x280 1).getReg (regOf .tide 0x200).key ^^^ written (regOf .tide 0x200) 0 (at_ .tide 0x200) true 5)
          &&& (withReg .tide 0x280 1).busyMask .tide 0x200 ≠ 0
      ∧ inControl (at_ .tide 0x060) = true ∧ regAligned (at_ .tide 0x060) 8 = true ∧ regAt (at_ .tide 0x060 / 8 * 8) = none
      ∧ bit ((nx (.registerWrite pilot0 (at_ .tide 0x048) true 10_001) State.reset).getReg (rejectAddr .tide)) 0 = true := by
  unfold Plain; decide +kernel

theorem wit_BusErrorAccessWritesNothing :
    refusesAccess (at_ .tide 0x048) 2 = true ∧ refusesAccess 0x0F00_0000_0000 8 = true
      ∧ (nx (.busErrorAccess pilot0 false 0x0F00_0000_0000 8) State.reset).answer.status = 1
      ∧ ((nx (.busErrorAccess pilot0 false 0x0F00_0000_0000 8) State.reset).hart 0).mtval = 0x0F00_0000_0000
      ∧ 320 ≤ master.endpoint.val ∧ pilot0.endpoint.val < 320 := by decide +kernel

/-- A commit of HOLDOVER_LIMIT waits, and is in force after its boundary. -/
def committing : State :=
  nx (.cfgCommit pilot0 (at_ .tide 0x0F8)) (nx (.registerWrite pilot0 (at_ .tide 0x048) true 200) State.reset)

theorem wit_CfgCommitCaptures :
    blockAt (at_ .tide 0x0F8) = some (.tide, 0x0F8) ∧ commitOff .tide ≠ none
      ∧ State.reset.commitPending .tide = false ∧ State.reset.commitOk .tide = true
      ∧ committing.commitPending .tide = true
      ∧ (Tab.get (0, []) committing.commits (commitAddr .tide)).2.contains (at_ .tide 0x048, 200) = true
      ∧ (Tab.get (0, []) committing.commits (commitAddr .tide)).2.contains (at_ .tide 0x030, 0) = true
      ∧ bit ((nx (.cfgCommit pilot0 (at_ .tide 0x0F8)) committing).getReg (rejectAddr .tide)) 0 = true := by decide +kernel

/-- The hub, whose boundary is always there. -/
def hubCommit : State :=
  nx (.cfgCommit pilot0 (at_ .hub 0x0F8)) (nx (.registerWrite pilot0 (at_ .hub 0x1008) true 1) State.reset)

theorem wit_CommitBoundaryApplies :
    blockAt (at_ .hub 0x0F8) = some (.hub, 0x0F8) ∧ hubCommit.commitPending .hub = true ∧ hubCommit.atBoundary .hub = true
      ∧ (((Tab.get (0, []) hubCommit.commits (commitAddr .hub)).2).map (·.1)).Nodup
      ∧ (nx (.commitBoundary (at_ .hub 0x0F8)) hubCommit).regN .hub 0x1008 = 5
      ∧ State.reset.commitPending .hub = false ∧ committing.atBoundary .tide = false := by decide +kernel

theorem wit_TideCommit :
    let s := committing.putN .tide 0x000 1000
    blockAt (at_ .tide 0x0F8) = some (.tide, 0x0F8) ∧ s.commitPending .tide = true
      ∧ nextMultiple (s.commitTide .tide) 1000 ≤ s.now ∧ (((Tab.get (0, []) s.commits (commitAddr .tide)).2).map (·.1)).Nodup
      ∧ at_ .tide 0x008 ∉ ((Tab.get (0, []) s.commits (commitAddr .tide)).2).map (·.1)
      ∧ (nx (.commitBoundary (at_ .tide 0x0F8)) s).regN .tide 0x048 = 200 := by decide +kernel

/-- A node LOCKED at a tide, with port 0 UP. -/
def locked : State := ((State.reset.putN .tide 0x000 1_000_000).putN .tide 0x008 2).putN (.port 0) 0x008 2

theorem wit_TideOrderedSetSent :
    locked.tidePort 0 = true ∧ locked.power.depth ≠ 3 ∧ (locked.port 0).nextSlot ≤ locked.clock ∧ locked.portState 0 ≠ 4
      ∧ byteFld ((nx (.tideOrderedSetSend 0) locked).port 0).control 4 8 = 1_000_000
      ∧ byteFld ((nx (.tideOrderedSetSend 0) locked).port 0).control 1 1 = 2 := by decide +kernel

/-- The follower's parent is port 0, by commit. -/
def follower : State := { locked with tide := { locked.tide with committed := true } }

/-- A LOCKED follower 500 ns and 1 ns off its parent's tide, and one in ACQUIRE. -/
theorem wit_TideOrderedSetFollowed :
    let set : TideSet := { quality := 2, hops := 3, seq := 9, txTide := 1_000_001, gmNgi := 77, echoSeq := 0, dwell := 0, txSub := 0, rxSub := 0 }
    let acquiring := follower.putN .tide 0x008 1
    follower.tidePort 0 = true ∧ follower.tide.committed = true ∧ follower.role = 0 ∧ follower.fldAt .tide 0x010 4 4 = 0
      ∧ follower.lockState = 2 ∧ acquiring.lockState = 1 ∧ follower.now < 2 ^ 62
      ∧ (follower.measureDelay 0 (follower.clock * 65536) set).offsetOf 0 set = 65536
      ∧ (nx (.tideOrderedSetReceive 0 set) follower).hops = 4
      ∧ (nx (.tideOrderedSetReceive 0 set) follower).now = 1_000_000
      ∧ (nx (.tideOrderedSetReceive 0 set) follower).tide.slew = some 65536
      ∧ (nx (.tideOrderedSetReceive 0 { set with txTide := 1_000_500 }) acquiring).now = 1_000_500
      ∧ (nx (.tideOrderedSetReceive 0 { set with txTide := 1_000_500 }) follower).lockState = 1 := by decide +kernel

/-- One nanosecond is left to correct, and the tide has not been slewed for 10 000 ns. -/
theorem wit_TideSlewRate :
    let s : State := { follower with power := { follower.power with vaon := true }, tide := { follower.tide with slew := some (-65536) } }
    s.pending = [] ∧ s.power.vaon = true ∧ s.lockState = 2 ∧ s.now < 2 ^ 62 ∧ s.groups = [] ∧ s.heldActs = [] ∧ s.ckpt = none ∧ s.harbour.hold = false
      ∧ (match step s with | .next t => t.now == 1_000_000 && t.clock == 1_000_001 && t.tide.slew == some 0 | _ => false) = true := by decide +kernel

/-- A grandmaster by its strap. -/
def grandmaster : State :=
  { locked with power := { locked.power with straps := 8 }, tide := { locked.tide with second := 1 } }

/-- A two-step exchange over UDP: the local time is 0.6 s behind the master's. -/
theorem wit_GrandmasterTime :
    let m : PtpMsg := { transport := .udpIpv4, domain := 0, kind := .sync, twoStep := true, seq := 7, time := 0, correction := 0 }
    let s1 := nx (.ptpMessage m) grandmaster
    let s2 := nx (.ptpMessage { m with kind := .followUp, time := 601_000_000 }) s1
    grandmaster.role ≠ 0 ∧ grandmaster.harbour.inReset = false ∧ m.transport ≠ .other ∧ m.domain = 0
      ∧ s1.tide.ptp.sync = some (7, 1_000_000) ∧ s2.tide.ptp.down = some (-600_000_000) ∧ s2.tide.ptp.asked = some (0, 1_000_000)
      ∧ (nx (.ptpMessage { m with kind := .delayResp, seq := 0, time := 601_000_000 }) s2).tide.second = 0
      ∧ (nx (.ptpMessage { m with kind := .delayResp, seq := 0, time := 2_601_000_000 }) s2).tide.second = 1
      ∧ grandmaster.tide.second ≠ 0 ∧ grandmaster.lockState = 2
      ∧ Tab.get (0, []) grandmaster.commits (commitAddr .power) = (0, []) ∧ grandmaster.now < 2 ^ 62
      ∧ (nx .ppsEdge grandmaster).tide.second = 2 := by decide +kernel

/-- A batch with a deadline, admitted at 2 200 MHz. -/
def work0 : EngineWork := { status := 0, deadline := 10_000_000, clock := 2200, tAdmit := 0, crew := 1, lanes := 1, period := 1, lead := 1, tail := 1 }

theorem wit_TideLockStates :
    let fresh := fun (lock : Nat) => (follower.setPort 0 { validAt := 1_000_000 }).putN .tide 0x008 lock
    follower.sourceLost = true ∧ follower.lockState = 2 ∧ (nx .holdoverEntry follower).lockState = 3
      ∧ (let s := { follower.putN .tide 0x008 3 with tide := { follower.tide with growFrom := some 0, estBase := 101 } }
         s.lockState = 3 ∧ s.fldAt .tide 0x048 0 16 < min s.grownEst 0xFFFF ∧ (nx .adriftEntry s).lockState = 4)
      ∧ (let s := fresh 4
         s.role = 0 ∧ s.parents.contains 0 = true ∧ s.freshPort 0 = true ∧ s.lockState ≠ 2 ∧ s.deadlined = false
           ∧ (nx (.parentReturn 0 (-7)) s).now = 999_993)
      ∧ (let s := { fresh 3 with work := [work0] }
         s.deadlined = true ∧ offsetAbs (-100) ≤ 10_000 ∧ offsetAbs (-100) ≤ s.fldAt .tide 0x048 0 16
           ∧ (nx (.parentReturn 0 (-100)) s).tide.slew = some (-100 * 65536)
           ∧ (nx (.parentReturn 0 10_001) s).lockState = 1 ∧ (nx (.parentReturn 0 10_001) s).now = 1_010_001)
      ∧ (let s := { fresh 4 with work := [work0] }
         s.lockState ≠ 3 ∧ offsetAbs 10_000 ≤ 10_000 ∧ (nx (.parentReturn 0 10_000) s).tide.slew = some (65536 * 10_000))
      ∧ (let s := { fresh 1 with tide := { follower.tide with slew := some 131_072 } }
         s.lockReady = true ∧ (nx .lockAchieved s).lockState = 2) := by decide +kernel

/-- The harbourmaster runs, and an accepted change of depth waits for its mark. -/
def sleepy (depth : Nat) : State :=
  { locked.putN .harbour 0x00 1 with harbour := { sleeps := [{ value := depth, forced := false, mark := 1_000_000 }] } }

theorem wit_StepWriteRule :
    SleepDue (sleepy 3) { value := 3, forced := false, mark := 1_000_000 }
      ∧ (nx .sleepEntry ((sleepy 3).putBit .tide 0x008 12 true)).stepValid = false
      ∧ (let s := { locked with power := { locked.power with depth := 3 } }
         s.power.depth = 3 ∧ s.stepValid = false ∧ (nx .deepWake s).stepValid = false)
      ∧ locked.stepPeriod = 0 ∧ (nx (.stepWrite false true 0xFFFF_FFFF) locked).stepBase = 1_000_000
      ∧ (locked.putN .tide 0x040 1).stepPeriod ≠ 0 := by
  unfold SleepDue; decide +kernel

/-- A step mark exactly met, one passed by two periods and a half, and one without a period. -/
theorem wit_StepMarkRule :
    let s := (locked.putN .tide 0x038 1_000_000).putN .tide 0x040 200
    let u := (locked.putN .tide 0x038 999_500).putN .tide 0x040 200
    let v := locked.putN .tide 0x038 999_999
    s.stepMark ≠ 0 ∧ s.stepMark ≤ s.now ∧ s.stepPeriod ≠ 0 ∧ (nx .stepMark s).stepMark = 1_000_200
      ∧ u.stepMark < u.now ∧ (nx .stepMark u).stepNo = 2 ∧ (nx .stepMark u).stepMark = 1_000_100
      ∧ v.stepPeriod = 0 ∧ (nx .stepMark v).stepMark = 0 := by decide +kernel

/-! ## The tide schedule -/

/-- Entry 5 is not ARMED: a write without VALID, one with a reserved action, a good one, and a change to EFF that a deadline refuses. -/
theorem wit_ScheduleEntryWriteChecked :
    let new := fun (v : Nat) => (State.reset.entry 5).setWord 0 (setFld (mergeHalf 0 true false (BitVec.ofNat 64 v)) 16 8 0)
    let w : State := { State.reset.setEntry 5 { w2 := 2 } with work := [work0] }
    (State.reset.entry 5).state ≠ 1 ∧ (new 2).valid = false
      ∧ (new 0x107).valid = true ∧ (new 0x107).ok = false ∧ State.reset.bitAt .tide 0x058 63 = false
      ∧ (new 0x102).valid = true ∧ (new 0x102).ok = true ∧ (new 0x102).action ≠ 4
      ∧ ((nx (.scheduleEntryWrite 5 0 true false 0x107) State.reset).entry 5).state = 5
      ∧ ((nx (.scheduleEntryWrite 5 0 true false 0x104) w).entry 5).state = 6
      ∧ ((nx (.scheduleEntryWrite 5 0 true false 0x102) State.reset).entry 5).state = 1 := by decide +kernel

/-- A node whose entry 9 is ARMED and due now. -/
def due (action w2 w3 : Nat) : State :=
  locked.setEntry 9 { w0 := BitVec.ofNat 64 (0x1_0100 + action), w1 := 1_000_000, w2 := BitVec.ofNat 64 w2, w3 := BitVec.ofNat 64 w3, seen := 1_000_000 }

theorem wit_ScheduleEntryWriteOther :
    (let s := (due 2 0 0).putN .tide 0x000 999_999
     (s.entry 9).state = 1 ∧ s.isDue (s.entry 9) = false ∧ ((nx (.scheduleEntryWrite 9 0 true false 2) s).entry 9).state = 0
       ∧ (nx (.scheduleEntryWrite 9 0 false true 1) s).bitAt .tide 0x018 4 = true) ∧
    (State.reset.entry 9).state ≠ 1 ∧ ((due 2 0 0).entry 9).state = 1 ∧ mergeHalf (((due 2 0 0).entry 9).word 3) true false 1 ≠ ((due 2 0 0).entry 9).word 3
      ∧ (nx (.scheduleEntryWrite 9 3 true false 1) (due 2 0 0)).bitAt .tide 0x018 4 = true
      ∧ ((nx (.scheduleEntryWrite 9 3 true false 1) State.reset).entry 9).w3 = 1 := by decide +kernel

/-- Queue 3 of core 255, ONLINE, with three chains waiting; and OFFLINE. -/
theorem wit_StartChainDispatched :
    let s := due 1 0x3_00FF 0x1000
    let u := (s.putN (.core 255) 0x008 0).setQueue 255 3 { chains := [{ addr := 0 }, { addr := 0 }, { addr := 0 }] }
    Fires s 9 1 ∧ Fires u 9 1 ∧ (s.entry 9).arg 0 2 = 255 ∧ (s.entry 9).arg 2 1 = 3 ∧ s.coreState 255 ≠ 0 ∧ s.bitAt .tide 0x058 63 = false
      ∧ u.coreState 255 = 0 ∧ (u.queue 255 3).chains.length < 4
      ∧ ((nx (.startChain 9) u).queue 255 3).chains.length = 4 ∧ ((nx (.startChain 9) s).entry 9).state = 7 := by
  unfold Fires; decide +kernel

theorem wit_ScheduleActions :
    (Fires (due 2 0x5_0000_0001 0) 9 2 ∧ (nx (.addTrigger 9) (due 2 0x5_0000_0001 0)).adds = [{ counter := 1, inc := 5, source := 0 }])
      ∧ (Fires (due 3 8 0x0E90_0020_8A00) 9 3 ∧ ((due 3 8 0x0E90_0020_8A00).entry 9).arg 8 8 = 0x0E90_0020_8000 + 8 * 320
          ∧ (nx (.ringBell 9) (due 3 8 0x0E90_0020_8A00)).bell 320 = 8)
      ∧ (Fires (due 4 2 0) 9 4 ∧ ((due 4 2 0).entry 9).forced = false ∧ (due 4 2 0).safe = false ∧ (due 4 2 0).modeHurts 2 = false
          ∧ (due 4 2 0).brakeBlocks 2 = false ∧ ((due 4 2 0).entry 9).arg 0 1 ≤ 2 ∧ (nx (.powerMode 9) (due 4 2 0)).modeTarget = 2)
      ∧ (Fires (due 5 64 0) 9 5 ∧ (due 5 64 0).ckpt = none ∧ (due 5 64 0).harbour.requests = []
          ∧ (nx (.checkpointAction 9) (due 5 64 0)).harbour.requests = [(64, 1_000_000, 0)])
      ∧ (Fires (due 6 1 0) 9 6 ∧ (nx (.routeBank 9) (due 6 1 0)).fldAt .router 0x000 0 1 = 1) := by
  unfold Fires; decide +kernel

theorem wit_ComparatorsHit :
    (let s := (locked.putN .tide 0x280 (2 ^ 15)).putN .tide 0x278 1_000_000
     s.bitAt .tide 0x280 15 = true ∧ s.regN .tide (0x200 + 8 * 15) ≤ s.now ∧ s.tide.reached.toNat.testBit 15 = false
       ∧ s.bitAt .tide 0x280 31 = false ∧ (nx (.tideMarkComparatorHit 15) s).bitAt .tide 0x288 15 = true)
      ∧ (let s := { locked.putN .tide 0x280 0x1_0001 with power := { locked.power with depth := 3 } }
         s.bitAt .tide 0x280 0 = true ∧ s.regN .tide 0x200 ≤ s.now ∧ s.tide.reached.toNat.testBit 0 = false ∧ s.bitAt .tide 0x280 16 = true
           ∧ s.power.depth = 3 ∧ (nx (.tideMarkComparatorHit 0) s).power.wakeHeld = true)
      ∧ (let s := locked.putN .tide 0x318 0x64_0030
         s.bitAt .tide 0x318 5 = true ∧ s.vtcMet 3 101 = true ∧ s.bitAt .tide 0x318 6 = false
           ∧ (nx (.vtcCrossing 3 101) s).bitAt .tide 0x320 3 = true) := by decide +kernel

/-! ## Core queues, pumps and engines -/

/-- A structure of n bytes with fields (offset, bytes, value), the rest zero. -/
def bytesOf (n : Nat) (fs : List (Nat × Nat × Nat)) : List Byte :=
  fs.foldl (fun d f => setByteFld d f.1 f.2.1 f.2.2) (List.replicate n 0)

/-- Core 0 ONLINE. -/
def online0 : State := State.reset.putN (.core 0) 0x008 0

/-- A queue of core 0 with what it runs. -/
def withQueue (q : Nat) (v : QueueRun) : State := online0.setQueue 0 q v

/-- A ring of 16 slots: a tail that fills it, and one more. -/
theorem wit_QTailWriteRule :
    let s := online0.putN (.core 0) (qOff 5 0x108) 4
    s.coreState 0 = 0 ∧ (16 + 65536 - s.qHead 0 5) % 65536 ≤ s.ringSize 0 5 ∧ s.ringSize 0 5 < (17 + 65536 - s.qHead 0 5) % 65536
      ∧ State.reset.coreState 0 ≠ 0
      ∧ (nx (.qTailWrite 0 5 16) s).qTail 0 5 = 16 ∧ (nx (.qTailWrite 0 5 17) s).bitAt (.core 0) (qOff 5 0x120) 6 = true := by decide +kernel

theorem wit_ChainFifoOfFour :
    let e : ChainEntry := { addr := 0 }
    online0.coreState 0 = 0 ∧ ((withQueue 1 { chains := [e, e, e] }).queue 0 1).chains.length < 4
      ∧ 4 ≤ ((withQueue 1 { chains := [e, e, e, e] }).queue 0 1).chains.length ∧ State.reset.coreState 0 ≠ 0
      ∧ (nx (.qChainWrite 0 1 64) (withQueue 1 { chains := [e, e, e, e] })).bitAt (.core 0) (qOff 1 0x120) 7 = true
      ∧ ((withQueue 1 { chains := [e, e, e], reserved := some 128 }).queue 0 1).reserved = some 128
      ∧ ((nx (.reservedSlotEnter 0 1) (withQueue 1 { chains := [e, e, e], reserved := some 128 })).queue 0 1).chains = [e, e, e, { addr := 128 }] := by
  decide +kernel

/-- A pump descriptor in HBM at 4096: one INT8 element from 64 to 128, LAST, FENCE. -/
def pumpDesc : List Byte := bytesOf 64 [(0, 8, 0x304), (8, 8, 64), (16, 8, 128), (24, 4, 1), (40, 2, 10), (42, 2, 10)]

/-- Core 0 with the chain waiting at pump 1, and byte 64 holding 9. -/
def pumpChain (d : List Byte) : State := ((withQueue 5 { chains := [{ addr := 4096 }] }).putBytes 4096 d).putByte 64 9

theorem wit_DescriptorStarts :
    let s := pumpChain pumpDesc
    s.coreRuns 0 = true ∧ (s.queue 0 5).halted = none ∧ s.headOf 0 5 = some ({ addr := 4096 }, false)
      ∧ good (s.fetchDesc 0 5 4096) pumpDesc = true ∧ headerOk 5 pumpDesc = true ∧ hdrFence pumpDesc = true ∧ (s.queue 0 5).running = []
      ∧ s.waitOk 0 pumpDesc = true ∧ (s.queue 0 5).again = none ∧ s.hbmWaits 4096 64 = false ∧ NoneFailed s 0 5
      ∧ (nx (.descriptorStart 0 5) s).queueState 0 5 = 1 := by
  unfold NoneFailed; decide +kernel

/-- A descriptor of another kind in front of the FLE starts: the engine refuses it itself. -/
theorem wit_DescriptorStarts_refused :
    let d := bytesOf 256 [(0, 8, 0x104)]
    let s := (withQueue 2 { chains := [{ addr := 4096 }] }).putBytes 4096 d
    s.coreRuns 0 = true ∧ (s.queue 0 2).halted = none ∧ (s.queue 0 2).again = none ∧ s.headOf 0 2 = some ({ addr := 4096 }, false)
      ∧ s.hbmWaits 4096 256 = false ∧ good (s.fetchDesc 0 2 4096) d = true ∧ headerOk 2 d = false
      ∧ ((nx (.descriptorStart 0 2) s).queue 0 2).running = [{ addr := 4096, desc := d, ring := false }] := by decide +kernel

/-- A FENCE behind a descriptor in progress, a counter wait, an address outside, and a header of another kind. -/
theorem wit_DescriptorStartHalts :
    (let s := (pumpChain pumpDesc).setQueue 0 5 { chains := [{ addr := 4096 }], running := [{ addr := 0, desc := [], ring := false }] }
     s.headOf 0 5 = some ({ addr := 4096 }, false) ∧ good (s.fetchDesc 0 5 4096) pumpDesc = true ∧ headerOk 5 pumpDesc = true
       ∧ s.coreRuns 0 = true ∧ (s.queue 0 5).halted = none ∧ (s.queue 0 5).again = none ∧ s.hbmWaits 4096 64 = false
       ∧ hdrFence pumpDesc = true ∧ (s.queue 0 5).running ≠ [])
      ∧ (let d := setByteFld pumpDesc 0 8 (0x104 + 2 ^ 20 + 2 ^ 32)
         good ((pumpChain d).fetchDesc 0 5 4096) d = true ∧ headerOk 5 d = true ∧ (pumpChain d).waitOk 0 d = false)
      ∧ (let s := withQueue 5 { chains := [{ addr := hbmEnd }] }
         s.coreRuns 0 = true ∧ (s.queue 0 5).halted = none ∧ (s.queue 0 5).running = [] ∧ s.headOf 0 5 = some ({ addr := hbmEnd }, false)
           ∧ bad (s.fetchDesc 0 5 hbmEnd) 2 = true ∧ (s.queue 0 5).again = none ∧ s.hbmWaits hbmEnd 64 = false ∧ (nx (.descriptorStart 0 5) s).queueState 0 5 = 3)
      ∧ (let d := setByteFld pumpDesc 0 8 0x301
         good ((pumpChain d).fetchDesc 0 5 4096) d = true ∧ headerOk 5 d = false ∧ (nx (.descriptorStart 0 5) (pumpChain d)).queueState 0 5 = 3) := by
  decide +kernel

theorem wit_HaltedQueueGoesOn :
    let h : Halted := { addr := 4096, fetched := true, ring := true, last := true }
    let s := (pumpChain pumpDesc).setQueue 0 5 { halted := some h }
    let d := setByteFld pumpDesc 0 8 (0x104 + 2 ^ 20 + 2 ^ 32)
    let w := (pumpChain d).setQueue 0 5 { halted := some h }
    let far := (pumpChain d).setQueue 0 5 { halted := some { h with addr := hbmEnd } }
    (s.queue 0 5).halted = some h ∧ s.coreRuns 0 = true ∧ s.hbmWaits h.addr 64 = false ∧ good (s.fetchDesc 0 5 h.addr) pumpDesc = true
      ∧ headerOk 5 pumpDesc = true ∧ s.waitOk 0 pumpDesc = true ∧ NoneFailed s 0 5
      ∧ (nx (.resume 0 5) s).queueState 0 5 = 1 ∧ (nx (.skip 0 5) s).qHead 0 5 = 1
      ∧ good (w.fetchDesc 0 5 h.addr) d = true ∧ headerOk 5 d = true ∧ w.waitOk 0 d = false
      ∧ ((nx (.resume 0 5) w).queue 0 5).again = some h
      ∧ (far.queue 0 5).halted = some { h with addr := hbmEnd } ∧ far.coreRuns 0 = true ∧ far.hbmWaits hbmEnd 64 = false
      ∧ bad (far.fetchDesc 0 5 hbmEnd) 2 = true ∧ (nx (.resume 0 5) far).queueState 0 5 = 3 := by
  unfold NoneFailed; decide +kernel

/-- A descriptor of pump 1 in progress. -/
def pumping (done : Option Nat) (d : List Byte) : State := (pumpChain d).setQueue 0 5 { running := [{ addr := 4096, desc := d, ring := false, done := done }] }

theorem wit_FlushEmptiesQueue :
    ((pumping none pumpDesc).queue 0 5).running = [{ addr := 4096, desc := pumpDesc, ring := false }]
      ∧ (nx (.flush 0 5) (pumping none pumpDesc)).fldAt (.core 0) (qOff 5 0x120) 8 8 = 4
      ∧ (nx (.flush 0 5) (pumping none pumpDesc)).queueState 0 5 = 0 := by decide +kernel

theorem wit_PilotWaitsAndWakes :
    let s := (online0.putN (.core 0) 0x028 1).putN (.core 0) 0x030 1
    online0.hartRuns 0 = true ∧ online0.mayWake 0 = false ∧ s.hartRuns 0 = true ∧ s.mayWake 0 = true
      ∧ (s.putBit (.core 0) 0x008 3 true).coreRuns 0 = true ∧ (s.putBit (.core 0) 0x008 3 true).bitAt (.core 0) 0x008 3 = true
      ∧ ((nx (.pilotWake 0) (s.putBit (.core 0) 0x008 3 true)).hart 0).pc = 4
      ∧ (nx (.wfi 0) online0).bitAt (.core 0) 0x008 3 = true := by decide +kernel

theorem wit_CoreStateRequests :
    online0.coreState 0 = 0 ∧ (nx (.offlineDrain 0) online0).coreState 0 = 1 ∧ State.reset.coreState 0 = 2
      ∧ (let s := online0.putN (.core 0) 0x008 1
         s.coreState 0 = 1 ∧ s.coreEmpty 0 = true ∧ s.writesOut 0 = false ∧ (nx (.coreDrainDone 0) s).coreState 0 = 2)
      ∧ (nx (.offlineAbort 0) online0).coreState 0 = 2 ∧ (nx (.online 0) State.reset).coreState 0 = 0 := by decide +kernel

theorem wit_PumpCompleteRetires :
    let s := pumping (some 0) pumpDesc
    s.coreRuns 0 = true ∧ (s.queue 0 5).halted = none ∧ (s.queue 0 5).again = none ∧ pmPost pumpDesc = 0
      ∧ (s.queue 0 5).running = [{ addr := 4096, desc := pumpDesc, ring := false, done := some 0 }]
      ∧ (nx (.pumpComplete 0 1) s).regN (.core 0) (qOff 5 0x128) = 1 := by decide +kernel

theorem wit_PumpCopiesElement :
    let s := pumping none pumpDesc
    s.coreRuns 0 = true ∧ (s.queue 0 5).halted = none ∧ s.pumpMalformed pumpDesc = false ∧ pmShape pumpDesc = 0 ∧ pmConvert pumpDesc = false
      ∧ pmScale pumpDesc = false ∧ pmInner pumpDesc = 1 ∧ pmRows pumpDesc = 1
      ∧ pmSrc pumpDesc + (pmSrcFmt pumpDesc).size ≤ hbmEnd ∧ pmDst pumpDesc + (pmSrcFmt pumpDesc).size ≤ hbmEnd
      ∧ s.lostAt (pmSrc pumpDesc) = false ∧ s.lostAt (pmDst pumpDesc) = false ∧ s.linePoison (pmSrc pumpDesc) 1 = false
      ∧ (s.queue 0 5).again = none ∧ (s.queue 0 5).running = [{ addr := 4096, desc := pumpDesc, ring := false }]
      ∧ s.hbmWaits (pmSrc pumpDesc) 1 = false ∧ s.hbmWaits (pmDst pumpDesc) 1 = false
      ∧ (nx (.pumpDescriptor 0 1) s).byteAt 128 = 9
      ∧ (let d := setByteFld pumpDesc 24 4 0
         (pumping none d).pumpMalformed d = true ∧ (nx (.pumpDescriptor 0 1) (pumping none d)).queueState 0 5 = 3) := by decide +kernel

/-- RC registers, at their highest indices. -/
theorem wit_ReadClearsCounts :
    (nx (.pumpConvRead 255 1) (withReg (.core 255) 0x288 7)).answer.data = leBytes 8 7
      ∧ (nx (.pumpConvRead 255 1) (withReg (.core 255) 0x288 7)).regN (.core 255) 0x288 = 0
      ∧ (nx (.chUeRead 191) (withReg (groupOf 191) (chOff 191 0x110) 7)).regN (groupOf 191) (chOff 191 0x110) = 0
      ∧ (nx (.basinOccRead 15 7) (withReg (.port 15) 0x1F8 (5 + 9 * 2 ^ 32))).regN (.port 15) 0x1F8 = 5 + 5 * 2 ^ 32 := by decide +kernel

/-! ## Matrix and flow engines -/

/-- M = N = K = 1 in FP32 without an output: A at 0 is 3.0, B at 64 is 0.5, into row 5. -/
def mxDesc : List Byte := bytesOf 128 [(0, 8, 0x101), (12, 4, 64), (50, 2, 5)]

def mxRun (d : List Byte) : State :=
  ((withQueue 1 { running := [{ addr := 0, desc := d, ring := false }] }).putBytes (wellBase 0) (leBytes 4 0x4040_0000)).putBytes
    (wellBase 0 + 64) (leBytes 4 0x3F00_0000)

theorem wit_MxeDescriptorEnds :
    (mxRun mxDesc).coreRuns 0 = true ∧ ((mxRun mxDesc).queue 0 1).halted = none ∧ ((mxRun mxDesc).queue 0 1).again = none ∧ (mxRun mxDesc).mxRefusal 0 mxDesc = 0
      ∧ (let d := setByteFld mxDesc 12 4 32
         (mxRun d).mxRefusal 0 d = 1 ∧ (nx (.mxeDescriptor 0 1) (mxRun d)).queueState 0 1 = 3) := by decide +kernel

theorem wit_MxeSingleProduct :
    mxM mxDesc = 1 ∧ mxN mxDesc = 1 ∧ mxK mxDesc = 1 ∧ mxCtrl mxDesc 2 = false ∧ mxCtrl mxDesc 3 = false ∧ mxCtrl mxDesc 4 = false
      ∧ mxCtrl mxDesc 5 = false ∧ ((mxRun mxDesc).mxElemA 0 mxDesc 0 0).poison = false ∧ ((mxRun mxDesc).mxElemB 0 mxDesc 0 0).poison = false
      ∧ (nx (.mxeDescriptor 0 1) (mxRun mxDesc)).accAt 0 1 5 0 = 0x3FC0_0000 := by decide +kernel

/-- A descriptor of engine 1 that has ended, with a trigger. -/
theorem wit_EngineCompletes :
    let d := setByteFld mxDesc 56 8 (2 ^ 31 + 7 + 3 * 2 ^ 32)
    let s := withQueue 1 { running := [{ addr := 0, desc := d, ring := false, done := some 0 }] }
    let f := bytesOf 256 [(0, 8, 0x102)]
    let u := withQueue 2 { running := [{ addr := 0, desc := f, ring := false, done := some 0 }] }
    s.coreRuns 0 = true ∧ (s.queue 0 1).halted = none ∧ (s.queue 0 1).again = none ∧ (u.queue 0 2).again = none ∧ (nx (.mxeComplete 0 1) s).adds = [{ counter := 7, inc := 3, source := 1 }]
      ∧ (u.queue 0 2).halted = none ∧ (nx (.fleComplete 0) u).regN (.core 0) (qOff 2 0x128) = 1 := by decide +kernel

/-- A chain of one INT8 element: LOAD stream 0 at well offset 0, STORE stream 1 at the first byte of the FLE carve-out. -/
def flDesc : List Byte :=
  bytesOf 256 [(0, 8, 0x102), (8, 4, 1), (12, 4, 1), (16, 4, 1), (20, 4, 1), (24, 4, 1), (52, 2, 10), (80, 4, 0xC_0000), (84, 2, 10),
    (208, 6, 0xFFF_0001), (214, 6, 0xFF0_0108)]

def flRunning (d : List Byte) : State := (withQueue 2 { running := [{ addr := 0, desc := d, ring := false }] }).putByte (wellBase 0) 7

theorem wit_FleChainEnds :
    (flRunning flDesc).coreRuns 0 = true ∧ ((flRunning flDesc).queue 0 2).halted = none ∧ ((flRunning flDesc).queue 0 2).again = none ∧ ((flRunning flDesc).flRefusal 0 flDesc).1 = 0
      ∧ (nx (.fleChain 0) (flRunning flDesc)).byteAt (wellBase 0 + 0xC_0000) = 7
      ∧ (let d := setByteFld flDesc 80 4 0xB_FFFF
         (flRunning d).flRefusal 0 d = (2, 1) ∧ (nx (.fleChain 0) (flRunning d)).queueState 0 2 = 3
           ∧ (nx (.fleChain 0) (flRunning d)).fldAt (.fle 0) 0x08 16 4 = 1) := by decide +kernel

/-! ## Harts -/

/-- Hart 0 with the vector extension on, one element, INT32 everywhere, x1 and x2 at 64 and 128 of HBM, where 5 and 7 stand. -/
def hart0 : Hart :=
  { x := [(1, 64), (2, 128), (3, 256)], mstatus := 0x8000, lvl := 1, lvfmt := 0x0008_0008_0008, lvstr0 := 0x4_0000_0004, lvstr1 := 4
    mtvec := 0x1000 }

def harted (h : Hart) : State := ((online0.setHart 0 h).putByte 64 5).putByte 128 7

/-- KADD of one INT32 element, and one of a vector of length 0. -/
theorem wit_LongVectorElement :
    let c := lvCtx (harted hart0) 0 0 4 3 1 2
    let z := { hart0 with lvl := 0 }
    LvReady (harted hart0) 0 0 4 3 1 2 ∧ ((harted hart0).hart 0).lvstart = 0 ∧ fld ((harted hart0).hart 0).lvl 0 25 = 1
      ∧ (match (lvStart (harted hart0) 0 c).lvReads 0 c 0 with
         | .ok ((a, b, _), s2) =>
           (match s2.lvWrite 0 (c.addrD 0 b.code) c.fmtD (c.result (s2.draw16 0) a.code b.code 0).code false with
            | .ok s3 => decide ((s3.hart 0).lvev = 0) && decide ((s3.hart 0).lvstart = 0) && decide ((s3.hart 0).pc = 0)
                && decide ((s3.hart 0).mstatus = ((lvStart (harted hart0) 0 c).hart 0).mstatus)
            | .error _ => false)
         | .error _ => false) = true
      ∧ (nx (.kadd 0 4 3 1 2) (harted hart0)).byteAt 256 = 12 ∧ ((nx (.kadd 0 4 3 1 2) (harted hart0)).hart 0).pc = 4
      ∧ LvReady (harted z) 0 0 4 3 1 2 ∧ fld ((harted z).hart 0).lvl 0 25 = 0 := by
  unfold LvReady; decide +kernel

/-- KSUM of one INT32 element. -/
theorem wit_LongVectorReduction :
    let c := lvCtx (harted hart0) 0 11 4 0 1 0
    LvReady (harted hart0) 0 11 4 0 1 0 ∧ ((harted hart0).hart 0).lvstart = 0 ∧ fld ((harted hart0).hart 0).lvl 0 25 = 1
      ∧ (match State.lvTerms 0 c 1 0 (lvStart (harted hart0) 0 c) {} with
         | .ok (_, s2) => decide (s2.hart 0 = (lvStart (harted hart0) 0 c).hart 0)
         | .error _ => false) = true
      ∧ ((nx (.ksum 0 4 0 1 0) (harted hart0)).hart 0).reg 4 = 5 := by
  unfold LvReady; decide +kernel

theorem wit_LongVectorSumOfOne :
    let c := lvCtx (harted hart0) 0 11 4 0 1 0
    LvReady (harted hart0) 0 11 4 0 1 0 ∧ c.wordA = 8 ∧ c.wordD = 8 ∧ ((harted hart0).hart 0).priv = 3
      ∧ bit ((harted hart0).hart 0).mstatus 17 = false ∧ (∀ i, i < 18 → Tab.get 0 ((harted hart0).hart 0).pmp i = 0)
      ∧ c.a + 4 ≤ hbmEnd ∧ (harted hart0).hbmWaits c.a 4 = false
      ∧ (harted hart0).lostAt c.a = false ∧ (harted hart0).linePoison c.a 4 = false := by
  unfold LvReady; decide +kernel

/-- XS Off, and a KADD whose D has a stride of 0. -/
theorem wit_LongVectorRefused :
    let o := harted { hart0 with mstatus := 0 }
    let z := harted { hart0 with lvstr0 := 0x4_0000_0000 }
    (0, Instr.kadd) ∈ elementOps ++ reduceOps ∧ o.hartRuns 0 = true ∧ (o.hart 0).priv = 3 ∧ fld (o.hart 0).mstatus 15 2 = 0
      ∧ z.hartRuns 0 = true ∧ fld (z.hart 0).mstatus 15 2 ≠ 0 ∧ (lvCtx z 0 0 4 3 1 2).refusal (lvInstr 0 4 3 1 2) = 5
      ∧ ((nx (.kadd 0 4 3 1 2) o).hart 0).mcause = 2 ∧ ((nx (.kadd 0 4 3 1 2) z).hart 0).mcause = 24
      ∧ ((nx (.kadd 0 4 3 1 2) z).hart 0).mtval = 5 := by
  refine ⟨by simp [elementOps], ?_⟩
  decide +kernel

theorem wit_LongVectorInterrupted :
    LvReady (harted hart0) 0 0 4 3 1 2 ∧ ((harted hart0).hart 0).priv = 3 ∧ 0 ≤ fld ((harted hart0).hart 0).lvstart 0 25
      ∧ ((nx (.xkmlvInterruptStop 0 0 4 3 1 2 0 7) (harted hart0)).hart 0).mcause = BitVec.ofNat 64 (7 + 2 ^ 63)
      ∧ (harted hart0).hartRuns 0 = true ∧ ((nx (.xkmlvInterruptStop 0 13 4 3 1 2 0 7) (harted hart0)).hart 0).mcause = 2
      ∧ ((nx (.xkmlvInterruptStop 0 31 4 3 1 2 0 7) (harted hart0)).hart 0).mcause = 2 := by
  unfold LvReady; decide +kernel

/-- CSRs of the extension: lvl clipped, an lvstart of 2^25, a read of lvl and of lvinfo, and a write and a read with XS Off. -/
theorem wit_LongVectorCsrWrite :
    let o := harted { hart0 with mstatus := 0 }
    let s := harted { hart0 with x := [(1, 64), (5, 16_777_217), (6, 2 ^ 25)] }
    s.hartRuns 0 = true ∧ fld (s.hart 0).mstatus 15 2 ≠ 0 ∧ o.hartRuns 0 = true ∧ fld (o.hart 0).mstatus 15 2 = 0
      ∧ (o.hart 0).priv = 3
      ∧ ((nx (.xkmlvCsrWrite 0 (.csr .write 0x800 7 (some 5)) 0) s).hart 0).lvl = 16_777_216
      ∧ ((nx (.xkmlvCsrWrite 0 (.csr .write 0x800 7 (some 5)) 0) s).hart 0).reg 7 = 1
      ∧ ((nx (.xkmlvCsrWrite 0 (.csr .write 0x801 0 (some 6)) 0) s).hart 0).lvstart = 0
      ∧ ((nx (.xkmlvCsrWrite 256 (.csr .set 0xCC0 7 (some 0)) 0) (State.reset.setHart 256 hart0)).hart 256).reg 7 = 0x140_0100_0000
      ∧ ((nx (.xkmlvCsrWrite 0 (.csr .write 0x800 0 none) 1) o).hart 0).mcause = 2
      ∧ ((nx (.xkmlvCsrWrite 0 (.csr .set 0xCC0 7 (some 0)) 1) o).hart 0).mcause = 2 := by decide +kernel

/-- The word funct2 0, rs3 = 12, funct3 3, rs2 = 11, rs1 = 10, rd = 10 of custom-1: KFMA; funct2 1 and funct3 5 give code 13. -/
theorem wit_HartBasics :
    let w : BitVec 32 := BitVec.ofNat 32 (0x2B + 10 * 2 ^ 7 + 3 * 2 ^ 12 + 10 * 2 ^ 15 + 11 * 2 ^ 20 + 12 * 2 ^ 27)
    let u : BitVec 32 := BitVec.ofNat 32 (0x2B + 10 * 2 ^ 7 + 5 * 2 ^ 12 + 10 * 2 ^ 15 + 11 * 2 ^ 20 + 1 * 2 ^ 25 + 12 * 2 ^ 27)
    let s := harted { hart0 with x := [(1, 64), (2, 128), (3, BitVec.ofNat 64 (2 ^ 64 - 5))] }
    decodeLong w = some (3, 10, 10, 11, 12) ∧ decodeLong u = some (13, 10, 10, 11, 12) ∧ s.hartRuns 0 = true ∧ (s.hart 0).priv = 3
      ∧ ((nx (.xkmlvCsrWrite 0 (.int .sra true 4 3 (some 1)) 0) s).hart 0).reg 4 = BitVec.ofNat 64 (2 ^ 64 - 5)
      ∧ ((nx (.xkmlvCsrWrite 0 (.int .mulhu false 4 3 (some 1)) 0) s).hart 0).reg 4 = 63
      ∧ ((nx (.xkmlvCsrWrite 0 (.int .div false 4 3 none) 2) s).hart 0).reg 4 = BitVec.ofNat 64 (2 ^ 64 - 2)
      ∧ ((nx (.xkmlvCsrWrite 0 (.int .divu false 4 3 none) 0) s).hart 0).reg 4 = BitVec.ofNat 64 (2 ^ 64 - 1)
      ∧ ((nx (.xkmlvCsrWrite 0 (.branch .ltu 1 2) 40) s).hart 0).pc = 40 ∧ ((nx (.xkmlvCsrWrite 0 (.branch .lt 2 3) 40) s).hart 0).pc = 4
      ∧ ((nx (.xkmlvCsrWrite 0 (.csr .set 0xC01 4 (some 0)) 0) (s.putN .tide 0 77)).hart 0).reg 4 = 77
      ∧ ((nx (.xkmlvCsrWrite 0 .ecall 0) s).hart 0).mcause = 11 ∧ ((nx (.xkmlvCsrWrite 0 .unlisted 0) s).hart 0).pc = 0x1000 := by
  decide +kernel

theorem wit_HartAtomics :
    let s := harted { hart0 with x := [(1, 64), (2, 128)] }
    s.hartRuns 0 = true ∧ (s.hart 0).priv = 3 ∧ bit (s.hart 0).mstatus 17 = false ∧ (∀ i, i < 18 → Tab.get 0 (s.hart 0).pmp i = 0)
      ∧ s.hbmWaits 64 8 = false ∧ s.lostAt 64 = false ∧ s.linePoison 64 8 = false
      ∧ (nx (.xkmlvCsrWrite 0 (.atomic (.amo 0) true 4 1 2) 0) s).byteAt 64 = 133
      ∧ ((nx (.xkmlvCsrWrite 0 (.atomic (.amo 0) true 4 1 2) 0) s).hart 0).reg 4 = 5
      ∧ ((nx (.xkmlvCsrWrite 0 (.atomic .lr true 4 1 0) 0) s).hart 0).mcause = 5
      ∧ isMem 65 = true ∧ ((nx (.xkmlvCsrWrite 0 (.load 3 true false 4 1) 1) s).hart 0).mcause = 4 := by decide +kernel

/-- e8, m1: 100 + 100 clips to 127; vtype of SEW 64 with LMUL 1/2 is not supported; a load past the end of HBM. -/
theorem wit_HartFloats :
    let o : Hart := { hart0 with mstatus := 0x2000, x := [(1, 7)], f := [(1, boxed 4 0x4000_0000), (2, boxed 4 0xBFC0_0000)] }
    let s := harted o
    s.hartRuns 0 = true ∧ (s.hart 0).fsOn = true ∧ (s.hart 0).priv = 3 ∧ (State.reset.setHart 256 o).hartRuns 256 = true
      ∧ Tab.get 0 ((nx (.xkmlvCsrWrite 0 (.fp .sqrt false 0 3 1 0 0) 0) s).hart 0).f 3 = boxed 4 0x3FB5_04F3
      ∧ ((nx (.xkmlvCsrWrite 0 (.fp .sqrt false 0 3 1 0 0) 0) s).hart 0).fcsr = 1
      ∧ ((nx (.xkmlvCsrWrite 0 (.toInt false true false 1 4 2) 0) s).hart 0).reg 4 = BitVec.ofNat 64 (2 ^ 64 - 1)
      ∧ ((nx (.xkmlvCsrWrite 0 (.classify false 4 2) 0) s).hart 0).reg 4 = 2
      ∧ ((nx (.xkmlvCsrWrite 0 (.fp .sqrt true 0 3 1 0 0) 0) s).hart 0).mcause = 2
      ∧ hasShortForm (.int .add false 1 1 none) = true
      ∧ ((nx (.xkmlvCsrWrite 0 (.compressed (.int .add false 1 1 none)) 5) s).hart 0).pc = 2
      ∧ ((nx (.xkmlvCsrWrite 0 (.compressed (.int .add false 1 1 none)) 5) s).hart 0).reg 1 = 12 := by decide +kernel

theorem wit_HartVectors :
    let o : Hart := { hart0 with mstatus := 0x200, vl := 1, vtype := 0, v := [(2, 100), (3, 100)], x := [(1, BitVec.ofNat 64 hbmEnd), (2, 600)] }
    let s := harted o
    s.hartRuns 0 = true ∧ (s.hart 0).vsOn = true ∧ vtypeOk 0 = true ∧ vtypeOk 0x1F = false
      ∧ ((nx (.xkmlvCsrWrite 0 (.vset 4 (some 2) 0) 0) s).hart 0).vl = BitVec.ofNat 64 (vlenOf 0 / 8)
      ∧ ((nx (.xkmlvCsrWrite 0 (.vset 4 (some 2) 0x1F) 0) s).hart 0).vl = 0
      ∧ o.vecIllegal .sadd false 4 (.vec 3) 2 = false ∧ sewOf o.vtype = 8
      ∧ ((nx (.xkmlvCsrWrite 0 (.vec .sadd false 4 (.vec 3) 2) 0) s).hart 0).velem (vlenOf 0) 4 8 0 = 127
      ∧ bit ((nx (.xkmlvCsrWrite 0 (.vec .sadd false 4 (.vec 3) 2) 0) s).hart 0).vcsr 0 = true
      ∧ (s.hart 0).priv = 3 ∧ bit (s.hart 0).vtype 63 = false ∧ 64 * lmul8 (s.hart 0).vtype / sewOf (s.hart 0).vtype ≠ 0
      ∧ groupOk (64 * lmul8 (s.hart 0).vtype / sewOf (s.hart 0).vtype) 8 = true
      ∧ (match s.scalarLoad 0 hbmEnd 8 with | .ok _ => false | .error c => decide (c = 5)) = true ∧ mustWait ≠ 5
      ∧ ((nx (.xkmlvCsrWrite 0 (.vmem false 3 false 8 1 none) 0) s).hart 0).mcause = 5 := by decide +kernel

/-- A PD hart, and block 2 of HBM held dirty with a 9 in front. -/
def cached : State := State.reset.setBlock 2 { data := 9 :: List.replicate 63 0, dirty := true, valid := true }

theorem wit_CacheBlockOperations :
    cached.hartRuns 256 = true ∧ good (cached.cboTarget 256 130 false) 128 = true ∧ good (cached.cboTarget 256 130 true) 128 = true ∧ cached.hbmWaits 128 64 = false
      ∧ 64 * (128 / 64) + 64 ≤ hbmEnd ∧ (∀ x, x < 64 → cached.lostAt (128 + x) = false)
      ∧ (cached.block 2).valid = true ∧ (cached.block 2).dirty = true ∧ (cached.block 2).data.length = 64
      ∧ (cached.hart 256).cboEnabled (fun w => bit w 6) = true ∧ (cached.hart 256).cboEnabled (fun w => fld w 4 2 != 0) = true
      ∧ (cached.hart 256).cboEnabled (fun w => bit w 7) = true ∧ (cached.hart 256).cboFlushes = false
      ∧ (nx (.cboFlush 0 130) cached).byteAt 128 = 9 ∧ (nx (.cboInval 0 130) cached).byteAt 128 = 0
      ∧ ((nx (.cboZero 0 130) State.reset).block 2).valid = true := by decide +kernel

/-- A supervisor for whom cbo.inval acts as cbo.flush, with a PMP entry over the whole address space. -/
def supervisor : State :=
  cached.setHart 256 { priv := 1, menvcfg := 0x10, pmp := [(0, 0x3F_FFFF_FFFF_FFFF), (16, 0x1F)] }

theorem wit_CacheBlockFlushing :
    supervisor.hartRuns 256 = true ∧ supervisor.hbmWaits 128 64 = false ∧ good (supervisor.cboTarget 256 130 false) 128 = true ∧ (supervisor.hart 256).cboEnabled (fun w => fld w 4 2 != 0) = true
      ∧ (supervisor.hart 256).cboFlushes = true ∧ (nx (.cboInval 0 130) supervisor).byteAt 128 = 9 := by decide +kernel

/-! ## The solver engine -/

/-- A batch of two LU problems with N = 1 for core 0: records at 0x10000, results at 0x20000, status word at 0x30000. -/
def svBatch (deadline : Nat) : List Byte :=
  bytesOf 128 [(0, 8, 0x103), (8, 1, 1), (9, 1, 0x20), (10, 2, 1), (16, 4, 2), (20, 4, 256), (24, 8, 0x1_0000), (32, 8, 0x2_0000),
    (40, 8, 0x3_0000), (48, 8, deadline), (56, 8, 1)]

/-- Core 0 runs it, its counters off: their counts are free values. -/
def solving (d : List Byte) : State := (withQueue 3 { running := [{ addr := 0, desc := d, ring := false }] }).putN (.sv 0) 0x00 0xC00

/-- The batch has been admitted, with one lane: ADMIT_LIMIT 2, ADMITTED, ADMIT_GATE. -/
def admitted (d : List Byte) : State :=
  (((solving d).putByte 0x3_0008 2).putByte 0x3_002C 1).putByte (0x3_0040 + 28) 1 |>.setSvRun 0 { lanes := 1 }

theorem wit_SvBatchStarts :
    let d := svBatch 0
    let bad := setByteFld d 9 1 0
    let gated := (solving d).putByte (0x3_0040 + 28) 1
    (solving d).coreRuns 0 = true ∧ (solving d).svDesc 0 = some { addr := 0, desc := d, ring := false } ∧ liveB (solving d) (svStatus d) 128 = true
      ∧ ((solving d).svRun 0).lanes = 0 ∧ ((solving d).queue 0 3).halted = none
      ∧ ((solving d).queue 0 3).again = none ∧ (solving d).batchWaits d 0 0 = false ∧ gated.batchWaits d 0 0 = false
      ∧ (solving bad).batchWaits bad 0 0 = false ∧ liveB gated (svStatus d) 128 = true
      ∧ (solving d).svRefusal 0 { addr := 0, desc := d, ring := false } = 0 ∧ (solving d).ctl d 28 4 = 0 ∧ svDeadline d = 0
      ∧ gated.ctl d 28 4 ≠ 0 ∧ ((nx (.svBatchStart 0) gated).svRun 0).waiting = true
      ∧ (solving bad).svRefusal 0 { addr := 0, desc := bad, ring := false } = 1
      ∧ ((solving bad).queue 0 3).running.head? = some { addr := 0, desc := bad, ring := false }
      ∧ (nx (.svBatchStart 0) (solving bad)).queueState 0 3 = 3
      ∧ (nx (.svBatchStart 0) (solving d)).admitLimit d = 2 := by decide +kernel

theorem wit_SegmentClaimed :
    let d := svBatch 0
    let s := admitted d
    let u := s.setSvRun 0 { lanes := 1, overlap := true, holding := true, first := 7, segment := [{ status := 0, x := [] }] }
    u.svDesc 0 = some { addr := 0, desc := d, ring := false } ∧ (u.svRun 0).ahead = none ∧ (u.svRun 0).noMore = false
      ∧ u.batchWaits d 0 0 = false ∧ u.batchWaits d 0 1 = false ∧ u.ctl d 0 8 < u.admitLimit d
      ∧ ((nx (.segmentClaim 0) u).svRun 0).first = 7 ∧ ((nx (.segmentClaim 0) u).svRun 0).ahead.isSome = true
      ∧ (s.svRun 0).noMore = false ∧ s.batchWaits d 0 0 = false ∧ s.batchWaits d 0 1 = false ∧ s.coreRuns 0 = true ∧ s.svDesc 0 = some { addr := 0, desc := d, ring := false } ∧ liveB s (svStatus d) 128 = true
      ∧ s.coreState 0 = 0 ∧ (s.svRun 0).lanes ≠ 0 ∧ (s.svRun 0).holding = false ∧ (s.svRun 0).waiting = false ∧ s.ctl d 16 8 = 0
      ∧ s.ctl d 0 8 < s.admitLimit d ∧ (nx (.segmentClaim 0) s).ctl d 0 8 = 1
      ∧ ((nx (.segmentClaim 0) s).svRun 0).segment.length = 1 := by decide +kernel

/-- A core that holds its second problem, solved. -/
def holding (d : List Byte) : State :=
  (admitted d).setSvRun 0 { lanes := 1, holding := true, first := 1, segment := [{ status := 1, x := [5], poison := true }] }

theorem wit_SegmentEnds :
    let d := svBatch 1_000_000
    let u := (holding d).putBytes (0x3_0048) (leBytes 8 1_000_000)
    let s := u.putN .tide 0x000 999_900
    let v := u.setSvRun 0 { u.svRun 0 with ahead := some { first := 2, segment := [{ status := 0, x := [] }] } }
    s.coreRuns 0 = true ∧ s.svDesc 0 = some { addr := 0, desc := d, ring := false } ∧ liveB s (svStatus d) 128 = true
      ∧ (s.svRun 0).holding = true ∧ (s.svRun 0).stopped = false ∧ s.stopMarkAt d (s.svRun 0).lanes = some 999_628 ∧ 999_628 ≤ s.now
      ∧ (s.svRun 0).segment.any (·.poison) = true
      ∧ u.coreRuns 0 = true ∧ u.svDesc 0 = some { addr := 0, desc := d, ring := false } ∧ liveB u (svStatus d) 128 = true
      ∧ u.batchWaits d 0 0 = false ∧ u.batchWaits d 1 2 = false ∧ (u.svRun 0).holding = true
      ∧ ((nx (.segmentComplete 0) u).svRun 0).poison = true ∧ (nx (.segmentComplete 0) u).byteAt (0x2_0000 + 64) = 1
      ∧ (v.svRun 0).holding = true ∧ v.batchWaits d 0 0 = false ∧ v.batchWaits d 1 2 = false
      ∧ ((nx (.segmentComplete 0) v).svRun 0).first = 2 ∧ s.batchWaits d 0 0 = false
      ∧ ((nx (.stopMark 0) s).svRun 0).stopped = true := by decide +kernel

theorem wit_MoveRequestPolled :
    let d := svBatch 1_000_000
    let s := (admitted d).putBytes 0x3_0048 (leBytes 8 1_000_000)
    let u := s.putBytes 0x3_0050 (leBytes 8 999_999)
    u.svDesc 0 = some { addr := 0, desc := d, ring := false } ∧ u.batchWaits d 0 0 = false ∧ s.batchWaits d 0 0 = false
      ∧ liveB u (svStatus d) 128 = true ∧ (u.svRun 0).lanes ≠ 0 ∧ u.ctl d 16 8 ≠ 0 ∧ u.ctl d 16 8 < u.ctl d 8 8
      ∧ (nx (.moveReqPoll 0) u).ctl d 8 8 = 999_999
      ∧ liveB s (svStatus d) 128 = true ∧ s.ctl d 16 8 = 0 ∧ u.coreRuns 0 = true
      ∧ (s.putBytes 0x3_0050 (leBytes 8 1_000_000)).ctl d 8 8 ≤ (s.putBytes 0x3_0050 (leBytes 8 1_000_000)).ctl d 16 8 := by decide +kernel

theorem wit_SolverRegisterWrites :
    let s := State.reset.putN (.svd 3) (ringOff 7 0x108) 4
    (16 + 65536 - s.ringIdx 3 7 0x120) % 65536 ≤ s.svRingSize 3 7 ∧ s.svRingSize 3 7 < (17 + 65536 - s.ringIdx 3 7 0x120) % 65536
      ∧ (nx (.ringTailWrite 3 7 16) s).ringIdx 3 7 0x110 = 16 ∧ (nx (.ringTailWrite 3 7 17) s).bitAt (.svd 3) (ringOff 7 0x128) 2 = true
      ∧ (nx (.svQueryWrite 0 true false 0x1_0000_0001) State.reset).regN (.sv 0) 0x10 = 0x1_0000_0001
      ∧ bit ((nx (.svQueryWrite 0 true false 0x1_0000_0008) State.reset).getReg (rejectAddr (.sv 0))) 0 = true
      ∧ bit ((nx (.svQueryWrite 0 false false 0) State.reset).getReg (rejectAddr (.sv 0))) 0 = true := by decide +kernel

/-- A ring of 16 slots at 0x40000 with one batch in front of the dispatcher of CD 0, and a crew of the ONLINE core 0 and core 1. -/
def ringed : State :=
  (((online0.putN (.svd 0) (ringOff 0 0x108) 4).putN (.svd 0) (ringOff 0 0x110) 1).putN (.svd 0) (ringOff 0 0x100) 0x4_0000).putBytes 0x4_0000
    (setByteFld (svBatch 0) 56 8 3)

theorem wit_DispatcherEntersCrew :
    let d := setByteFld (svBatch 0) 56 8 3
    ringed.safe = false ∧ ringed.power.depth < 2 ∧ Tab.get [] (ringed.dispatcher 0).slots 0 = [] ∧ ringed.svRingSize 0 0 ≠ 0
      ∧ ringed.ringIdx 0 0 0x118 ≠ ringed.ringIdx 0 0 0x110 ∧ (ringed.memRead 0x4_0000 128).data = d ∧ ringed.onlineCrew 0 d = [0]
      ∧ liveB ringed (svStatus d) 128 = true ∧ ringed.slotWaits 0 0 = false
      ∧ ((nx (.dispatcherEnter 0 0) ringed).queue 0 3).chains = [{ addr := 0x4_0000, dispatcher := true }] := by decide +kernel

theorem wit_DispatcherEndsBatches :
    let d := svBatch 0
    let s := (admitted d).setDispatcher 0 { closes := [d] }
    let u := s.putByte 0x3_0040 2
    let bad := setByteFld d 9 1 0
    let x : SolverSlot := { addr := 0x4_0000, desc := bad, entered := [0], waiting := [], refused := [0] }
    let v := State.reset.setDispatcher 3 { slots := [(7, [x])] }
    s.batchWaits d 0 0 = false ∧ u.batchWaits d 0 0 = false ∧ (s.dispatcher 0).closes = [d] ∧ s.safe = false ∧ liveB s (svStatus d) 128 = true ∧ s.stFlag d 0 = true ∧ s.ctl d 0 8 < s.admitLimit d
      ∧ u.admitLimit d ≤ u.ctl d 0 8 ∧ u.stFlag d 0 = true ∧ (u.dispatcher 0).closes = [d] ∧ liveB u (svStatus d) 128 = true
      ∧ ((nx (.dispatcherClose 0) u).dispatcher 0).closes = []
      ∧ Tab.get [] (v.dispatcher 3).slots 7 = [x] ∧ svMalformed x.desc = true ∧ x.waiting = [] ∧ (∀ c ∈ x.entered, c ∈ x.refused)
      ∧ x.complete = false ∧ (nx (.batchRefused 3 7) v).bitAt (.svd 3) (ringOff 7 0x128) 3 = true := by decide +kernel

/-! ## HBM -/

/-- The last 4 bytes of HBM, and the state in which their channel is in state v. -/
def lastWord : Nat := hbmEnd - 4
def channelIn (v : Nat) : State :=
  let ch := (State.reset.decodeHbm lastWord).1
  State.reset.putFld (groupOf ch) (chOff ch 0x100) 0 2 v

/-- The reset table maps the last byte and back. -/
theorem test_channelFunction :
    State.reset.hbmAddress (State.reset.decodeHbm (hbmEnd - 1)).1 (State.reset.decodeHbm (hbmEnd - 1)).2 = some (hbmEnd - 1) := by decide +kernel

/-- A byte of memory changes nothing in the table, where region r of a CD stands at its own place. -/
theorem places : ∀ r : Fin 288,
    let e := (State.reset.putByte 7 7).reg .regionTable (0x1000 + 8 * r)
    bit e 0 = false ∧ fld e 8 9 = r % 72 ∧ fld e 2 2 = r / 72 := by decide +kernel

theorem wit_ChannelFunctionInverse : TableValid (State.reset.putByte 7 7) ∧ hbmEnd - 1 < hbmEnd := by
  refine ⟨⟨by decide +kernel, fun r h b => ?_, fun r q hr hq => ?_⟩, by decide⟩
  · have := (places ⟨r, h⟩).1; simp_all
  · have x := places ⟨r, hr⟩
    have y := places ⟨q, hq⟩
    simp only at x y
    intro _ _ _ c d
    rw [x.1, x.2.2, y.2.2] at c
    rw [x.2.1, y.2.1] at d
    simp at c
    omega

theorem wit_HbmReadDelivers :
    State.reset.hbmWaits lastWord 4 = false ∧ liveB State.reset lastWord 4 = true ∧ (channelIn 3).hbmWaits lastWord 4 = false
      ∧ (∀ i, i < 4 → (channelIn 3).lostAt (lastWord + i) = true)
      ∧ (nx (.hbmRead lastWord 4 (clean true)) (State.reset.putByte (hbmEnd - 1) 9)).answer.data = [0, 0, 0, 9]
      ∧ (nx (.hbmRead lastWord 4 (clean false)) (channelIn 3)).answer.data = [0xFF, 0xFF, 0xFF, 0xFF] := by decide +kernel

theorem wit_HbmReadErrors :
    State.reset.hbmWaits lastWord 4 = false ∧ lastWord % 32 + 4 ≤ 32 ∧ State.reset.lostAt lastWord = false ∧ State.reset.poisonAt lastWord = false
      ∧ (nx (.hbmRead lastWord 4 { errors := [[(3, 0x80)]] }) State.reset).reports.map (·.source) = [0x01]
      ∧ (nx (.hbmRead lastWord 4 { errors := [[(3, 0x80), (35, 1)]] }) State.reset).answer.poison = true := by decide +kernel

theorem wit_HbmWriteStores :
    State.reset.hbmWaits lastWord 4 = false ∧ liveB State.reset lastWord 4 = true ∧ (channelIn 2).hbmWaits lastWord 4 = false
      ∧ (∀ i, i < 4 → (channelIn 2).lostAt (lastWord + i) = true)
      ∧ (nx (.hbmWrite lastWord [1, 2, 3, 4] true (clean false)) State.reset).poisonAt (hbmEnd - 1) = true
      ∧ (nx (.hbmWrite lastWord [1, 2, 3, 4] true (clean false)) State.reset).byteAt (hbmEnd - 1) = 4
      ∧ (nx (.hbmWrite lastWord [1, 2, 3, 4] true (clean false)) (channelIn 2)).byteAt (hbmEnd - 1) = 0 := by decide +kernel

/-- A region table waits for its boundary. -/
def tableWaits : State := { State.reset with commits := [(commitAddr .regionTable, 1, [])] }

theorem wit_HbmAccessWaits :
    let ch := (State.reset.decodeHbm lastWord).1
    let r : HeldAccess := { write := false, addr := lastWord, bytes := 4 }
    lastWord + 4 ≤ hbmEnd ∧ tableWaits.commitPending .regionTable = true
      ∧ (channelIn 1).commitPending .regionTable = false ∧ (channelIn 1).heldOn r = some ch ∧ (channelIn 1).heldFull ch r = false
      ∧ ((nx (.hbmRead lastWord 4 (clean false)) (channelIn 1)).channel ch).held = [r]
      ∧ (nx (.hbmRead lastWord 4 (clean false)) tableWaits).atDecoder = [r]
      ∧ (let u := (channelIn 1).setChannel ch { (channelIn 1).channel ch with held := List.replicate 64 r }
         u.heldOn r = some ch ∧ u.heldFull ch r = true ∧ (nx (.hbmRead lastWord 4 (clean false)) u).answer.status = 5) := by
  decide +kernel

theorem wit_RefreshAndScrub :
    State.reset.power.depth < 2 ∧ ((nx (.refresh 191) State.reset).channel 191).refreshes = 1
      ∧ State.reset.chState 191 = 0 ∧ State.reset.regs = [] ∧ fld (State.reset.mcCfg 191) 8 8 ≠ 0
      ∧ ((nx (.patrolScrub 191 []) State.reset).channel 191).scrub = 32
      ∧ (match State.reset.hbmAddress 0 0 with
         | some a => !State.reset.lostAt a && !State.reset.poisonAt a && (nx (.patrolScrub 0 [(0, 1), (1, 1)]) State.reset).poisonAt a
         | none => false) = true := by decide +kernel

def retraining (v : Nat) (l : List Marked) : State :=
  { State.reset.putFld (groupOf 191) (chOff 191 0x100) 0 2 v with harbour := { retrains := l } }

theorem wit_ChannelRetraining :
    let s := retraining 0 [{ value := 191, forced := false, mark := 0 }]
    let u := retraining 1 []
    s.chState 191 = 0 ∧ (s.retrainDue 191).isSome = true ∧ u.chState 191 = 1 ∧ (u.channel 191).held = [] ∧ u.retrainDue 191 = none
      ∧ (nx (.channelRetrainStart 191) s).chState 191 = 1 ∧ (nx (.channelRetrainEnd 191 false) u).chState 191 = 3
      ∧ (nx (.channelRetrainEnd 191 true) u).chState 191 = 0 := by decide +kernel

theorem wit_ChannelRefilled :
    let s := (State.reset.putN (groupOf 191) (chOff 191 0x100) 7).setDomState 447 2
    s.bitAt (groupOf 191) (chOff 191 0x100) 2 = true ∧ s.domainState (256 + 191) = 2 ∧ s.domainState 467 = 0
      ∧ s.fldAt .hub (fdOff (256 + 191) 0) 32 8 + 1 ≤ s.recLimit (256 + 191) ∧ 1 ≤ s.recLimit (256 + 191) ∧ s.harbour.longOps = []
      ∧ (nx (.channelRefillDone 191) s).chState 191 = 0 ∧ (nx (.channelRefillDone 191) s).domainState 447 = 0 := by decide +kernel

/-- GO on an ISOLATED channel and on an ACTIVE one. -/
theorem wit_TrafficGenerator :
    let s := State.reset.putFld (groupOf 191) (chOff 191 0x100) 0 2 2
    let r := nx (.go 191 0x101) s
    s.tgState 191 ≠ 1 ∧ fld 0x101 1 3 ≤ 4 ∧ s.chState 191 = 2
      ∧ s.fldAt (groupOf 191) (tgOff 191 0x1008) 0 31 ≤ s.fldAt (groupOf 191) (tgOff 191 0x1010) 0 31
      ∧ State.reset.chState 191 ≠ 2 ∧ r.tgState 191 = 1 ∧ r.bitAt (groupOf 191) (tgOff 191 0x1000) 5 = false
      ∧ r.fldAt (groupOf 191) (tgOff 191 0x1008) 0 8 = 0
      ∧ fld 0x109 1 3 = 4 ∧ (nx (.go 191 0x10B) s).tgState 191 ≠ 1 := by decide +kernel

theorem wit_PoisonedLines :
    hbmEnd ≤ wellBase 255 + 64 ∧ (wellBase 255 + 64) % 64 + 64 ≤ 64 ∧ State.reset.reachable (wellBase 255 + 64) 64 = true
      ∧ (State.reset.memWrite (wellBase 255 + 127) [1] true).poisonAt (wellBase 255 + 64) = true
      ∧ ((State.reset.memWrite (wellBase 255 + 127) [1] true).memWrite (wellBase 255 + 64) (List.replicate 64 0) false).poisonAt (wellBase 255 + 64)
          = false := by decide +kernel

/-- Regions 0 and 1 exchange their places. -/
def exchanged : State :=
  nx (.cfgCommit master (at_ .regionTable 0x0F8))
    ((State.reset.setShadow (at_ .regionTable 0x1000) 0x100).setShadow (at_ .regionTable 0x1008) 0)

theorem wit_RegionTableCommit :
    let vs := (Tab.get (0, []) exchanged.commits (commitAddr .regionTable)).2
    blockAt (at_ .regionTable 0x0F8) = some (.regionTable, 0x0F8) ∧ exchanged.commitPending .regionTable = true
      ∧ exchanged.atBoundary .regionTable = true ∧ exchanged.atDecoder = [] ∧ (vs.map (·.1)).Nodup
      ∧ vs.map (·.1) = [at_ .regionTable 0x1000, at_ .regionTable 0x1008] := by decide +kernel

/-! ## Links and the router -/

/-- A port with PORT_STATUS, PORT_CTRL and what stands behind them. -/
def portAs (p status ctrl : Nat) (r : PortRun := {}) : State :=
  let s := (State.reset.setImage 7 { bankA := [1], boot := 0 }).setImage 8 { bankA := [1], boot := 0 }
  ((s.putN (.port p) 0x008 status).putN (.port p) 0x000 ctrl).setPort p r

/-- PORT_STATUS of an UP port with 8 lanes, with retry in use and without; PORT_CTRL with ENABLE, MIN_WIDTH 4 and every lane. -/
def upRetry : Nat := 2 + 2 ^ 4 + 8 * 2 ^ 8 + 0xFF * 2 ^ 16
def upPlain : Nat := 2 + 8 * 2 ^ 8 + 0xFF * 2 ^ 16
def allLanes : Nat := 1 + 4 * 2 ^ 8 + 0xFF * 2 ^ 16

/-- A down port that has CREDIT_SPLIT waiting in its block's commit, tried exactly 100 ms ago. -/
def downPort : State :=
  nx (.cfgCommit master (at_ (.port 15) 0x0F8))
    ((((portAs 15 0 allLanes { tried := some 5 }).putN .tide 0x000 100_000_005).setShadow (at_ (.port 15) 0x000) (BitVec.ofNat 64 allLanes)).setShadow
      (at_ (.port 15) 0x020) 0x0408_080C_0C0C_0004)

theorem wit_PortTrains :
    let vs := captured downPort (.port 15)
    downPort.portState 15 = 0 ∧ (downPort.committed 15).mayTrain 15 = true ∧ downPort.mayRetry 15 = true
      ∧ (downPort.putN .tide 0x000 100_000_004).mayRetry 15 = false
      ∧ (vs.map (·.1)).Nodup ∧ at_ (.port 15) 0x008 ∉ vs.map (·.1) ∧ at_ (.port 15) 0x038 ∉ vs.map (·.1) ∧ at_ .tide 0x000 ∉ vs.map (·.1)
      ∧ vs.map (·.1) = [at_ (.port 15) 0x000, at_ (.port 15) 0x020, at_ (.port 15) 0x028, at_ (.port 15) 0x030]
      ∧ (nx (.portTraining 15) downPort).portState 15 = 1 ∧ (nx (.portTraining 15) downPort).regN (.port 15) 0x020 = 0x0408_080C_0C0C_0004
      ∧ ((portAs 15 0 0).committed 15).mayTrain 15 = false ∧ (portAs 15 1 allLanes).portState 15 ≠ 0 := by decide +kernel

/-- A neighbour of the same tray that runs at the highest level. -/
def peer : Hello := { ngi := 1, port := 3, light := false, long := false, level := 0xFFFF }

/-- A round trip of exactly 700 µs; LIGHT that both ask for, and LIGHT that only the peer asks for. -/
theorem wit_PortTrained :
    let s := portAs 3 1 allLanes
    let u := portAs 3 1 (allLanes + 2)
    let o : Training := { lanes := 0x0F, rttNs := 700_000, hello := some peer, caps := [1, 1, 1, 1, 1, 1, 1, 1] }
    let near : Training := { o with rttNs := 3000, hello := some { peer with light := true } }
    s.portState 3 = 1 ∧ s.fldAt (.port 3) 0x000 8 4 ≤ popcount8 (o.lanes.toNat &&& s.fldAt (.port 3) 0x000 16 8)
      ∧ popcount8 (o.lanes.toNat &&& s.fldAt (.port 3) 0x000 16 8) ≠ 0
      ∧ (nx (.portUp 3 o) s).portState 3 = 2 ∧ (nx (.portUp 3 o) s).credits 3 7 = 256 ∧ (nx (.portUp 3 o) s).portRetry 3 = false
      ∧ (nx (.portUp 3 near) u).bitAt (.port 3) 0x008 3 = true ∧ (nx (.portUp 3 near) u).bitAt (.port 3) 0x048 2 = false
      ∧ (nx (.portUp 3 near) s).bitAt (.port 3) 0x008 3 = false ∧ (nx (.portUp 3 near) s).bitAt (.port 3) 0x048 2 = true
      ∧ (nx (.portUp 3 near) s).portRetry 3 = true
      ∧ (nx (.portUp 3 { o with rttNs := 700_001 }) s).portState 3 = 0
      ∧ (nx (.portUp 3 { o with rttNs := 700_001 }) s).bitAt (.port 3) 0x048 3 = true
      ∧ (nx (.portUp 3 { o with hello := none }) s).portState 3 = 0 ∧ State.reset.portState 3 ≠ 1 := by decide +kernel

/-- A unicast packet of a VC for the node with a name, and one of a multicast. -/
def uni (vc dst : Nat) : Packet := { htype := 1, vc := vc, ovc := vc, rmode := 0, src := 0, dst := dst, phase := 1, ttl := 63, tag := 1, tkind := 7 }

/-- A packet that came in at port 3. -/
def waits (k : Packet) (deep : Nat := 0) : Waiting := { pkt := k, port := 3, since := 0, inVc := k.vc, inBasin := deep }

theorem wit_PortLeavesService :
    let s := portAs 3 upRetry allLanes { replay := [{ starts := 2 }], credits := [(2, 7)], badRun := 8 }
    let t := nx (.portDown 3 .badFrames) s
    let off := nx (.cfgCommit master (at_ (.port 3) 0x0F8)) (s.setShadow (at_ (.port 3) 0x000) 0)
    (s.port 3).egress = [] ∧ captured s (.port 3) = [] ∧ s.portUp 3 = true ∧ causeHolds 3 .badFrames s = true
      ∧ causeHolds 3 .badFrames (s.setPort 3 { s.port 3 with badRun := 7 }) = false
      ∧ t.portState 3 = 0 ∧ (t.port 3).replay = [] ∧ t.reports.map (·.source) = [0x11]
      ∧ (nx (.retrain 3) s).portState 3 = 1 ∧ (nx (.fence 3 9) s).portState 3 = 5 ∧ (nx (.fence 3 9) (portAs 3 1 allLanes)).portState 3 = 5
      ∧ (nx (.fence 3 9) (portAs 3 4 allLanes)).portState 3 = 4 ∧ (portAs 3 0 allLanes).portState 3 = 0
      ∧ (nx (.hello 3 peer) s).bitAt (.port 3) 0x038 63 = true
      ∧ (decide (peer.level.toNat < s.minOp) || (s.port 3).zeroCap) = s.portLimited 3
      ∧ (let u := s.setPort 3 { s.port 3 with limited := true }
         (decide (peer.level.toNat < u.minOp) || (u.port 3).zeroCap) ≠ u.portLimited 3 ∧ (nx (.hello 3 peer) u).portState 3 = 1)
      ∧ (captured downPort (.port 15)).map (·.1) = [at_ (.port 15) 0x000, at_ (.port 15) 0x020, at_ (.port 15) 0x028, at_ (.port 15) 0x030] ∧ (downPort.port 15).egress = []
      ∧ (nx (.retrain 15) downPort).regN (.port 15) 0x020 = 0x0408_080C_0C0C_0004
      ∧ (off.committed 3).mayTrain 3 = false ∧ (nx (.retrain 3) off).portState 3 = 0 ∧ (nx (.retrain 3) off).bitAt (.port 3) 0x000 0 = false := by
  decide +kernel

/-- A port whose basin is lost goes down from HOLD. -/
theorem wit_PortLeavesService_basin :
    let s := (((portAs 3 3 (allLanes + 4)).putN (.port 3) 0x030 1).putN (.regionTable) 0x008 1)
    s.portState 3 = 3 ∧ causeHolds 3 .basinLost s = true ∧ (nx (.portDown 3 .basinLost) s).portState 3 = 0
      ∧ s.portUp 3 = false ∧ (nx (.portDown 3 .lockLost) s).portState 3 = 3 := by decide +kernel

theorem wit_LanesLeaveAndRejoin :
    let s := portAs 3 upRetry (1 + 7 * 2 ^ 8 + 0xFF * 2 ^ 16)
    let t := nx (.retune 3 7) s
    (s.lanes 3).testBit 7 = true ∧ s.fldAt (.port 3) 0x000 8 4 ≤ popcount8 (s.lanes 3 - 2 ^ 7) ∧ s.portState 3 = 2
      ∧ t.portWidth 3 = 7 ∧ t.portState 3 = 2 ∧ (t.port 3).retuning.contains 7 = true
      ∧ (t.fldAt (.port 3) 0x000 16 8).testBit 7 = true ∧ (t.lanes 3).testBit 7 = false
      ∧ (nx (.laneRejoin 3 7) t).portWidth 3 = 8 ∧ popcount8 (t.lanes 3 - 2 ^ 6) < t.fldAt (.port 3) 0x000 8 4
      ∧ (nx (.laneDrop 3 6) t).portState 3 = 0 ∧ (nx (.retune 3 6) t).portState 3 = 0 ∧ (nx (.laneDrop 3 6) t).bitAt (.port 3) 0x048 0 = true
      ∧ (((nx (.retune 3 6) (nx (.retune 3 7) (portAs 3 upRetry allLanes {}))).port 3).retuning = [6, 7])
      ∧ (nx (.retune 3 7) t).port 3 = t.port 3
      ∧ ((portAs 3 0 0).lanes 3).testBit 7 = false ∧ ((portAs 3 0 0).fldAt (.port 3) 0x000 16 8).testBit 7 = false
      ∧ (s.port 3).retuning.contains 7 = false := by decide +kernel

/-- No operation is booked where no queue and no group has one. -/
theorem wit_LanesLeaveAndRejoin_free : NothingBooked (portAs 3 upRetry (1 + 7 * 2 ^ 8 + 0xFF * 2 ^ 16)) 3 := by
  have a : (portAs 3 upRetry (1 + 7 * 2 ^ 8 + 0xFF * 2 ^ 16)).quays = [] := by decide +kernel
  have b : (portAs 3 upRetry (1 + 7 * 2 ^ 8 + 0xFF * 2 ^ 16)).groups = [] := by decide +kernel
  exact ⟨by rw [a]; simp, by rw [b]; simp⟩

/-- An admitted operation of queue 9 on port 3 whose bytes stand in the egress, and whose queue owns no slot of the calendar. -/
def bookedOp : State :=
  (portAs 3 upRetry (1 + 7 * 2 ^ 8 + 0xFF * 2 ^ 16)
      { egress := [{ pkt := { uni 2 1 with sq := 9, guar := true, psn := 5 }, port := 16, since := 0 }] }).setQuayQueue 9
    { ops := [{ index := 0, request := [], start := 0, admitted := true, port := 3, firstPsn := 5, endPsn := 6 }] }

/-- A fall of the width voids a promise that fits no more, with cause WIDTH; the operation goes on (12 R331, Table 12-8). -/
theorem test_widthVoids :
    let t := nx (.laneDrop 3 7) bookedOp
    (t.quayQueue 9).ops.map (·.void) = [2] ∧ (t.quayQueue 9).ops.map (·.status) = [none] ∧ t.regN (.quay 0) 0x128 = 1
      ∧ ((nx (.laneDrop 3 7) (bookedOp.setPort 3 {})).quayQueue 9).ops.map (·.void) = [0] := by decide +kernel

/-- A frame whose last slots are given, the others IDLE, with its CRC, and 15 wrong symbols; and one whose first codeword has 16. -/
def frameOf (seq first crc : Nat) (xs : List (List Byte)) : Frame :=
  { symErrs0 := 15, symErrs1 := 0
    body := { fcw := BitVec.ofNat 40 (seq + first * 2 ^ 12 + crc * 2 ^ 24)
              slots := List.replicate (40 - xs.length) (List.replicate 32 0) ++ xs } }
def badOf (f : Frame) : Frame := { f with symErrs0 := 16 }

/-- The CRC of such a frame, from its last slots. -/
theorem crcOk_frameOf {seq first crc : Nat} {xs : List (List Byte)}
    (h : (frameCrc xs ((frameOf seq first crc xs).body.fcw.toNat % 2 ^ 24) == bits (frameOf seq first crc xs).body.fcw.toNat 24 16) = true) :
    frameCrcOk (frameOf seq first crc xs).body = true := by
  have e : (frameOf seq first crc xs).body.slots = List.replicate (40 - xs.length) (List.replicate 32 0) ++ xs := rfl
  unfold frameCrcOk
  rw [e, frameCrc_idle]
  exact h

/-- What a command does with a frame that is taken. -/
theorem nx_frame {p : Fin 16} {f : Frame} {s : State} (up : s.portUp p = true)
    (low : (codewordBad (s.bitAt (.port p) 0x008 3) f.symErrs0 || codewordBad (s.bitAt (.port p) 0x008 3) f.symErrs1) = false)
    (crc : frameCrcOk f.body = true) :
    nx (.frameReceive p f) s =
      (let t := s.addWrap (.port p) 0x050 0 64 ((if f.symErrs0 = 0 then 0 else 1) + (if f.symErrs1 = 0 then 0 else 1))
       if (t.portRetry p && frameSeq f.body != (s.port p).rxFrames % 4096) = true then t.setPort p { s.port p with badRun := 0 }
       else takeFrame p f.body t) :=
  frameReceive_good up (by simp [low, crc])

/-- A packet in the last two slots, and one around the control slot in slot 30 of frame 3 of three lanes. -/
def goodFrame : Frame := frameOf 4095 38 24959 (uni 2 1).flits
def aroundControl : List (List Byte) :=
  (uni 2 1).flits.take 1 ++ [List.replicate 32 0xFF] ++ (uni 2 1).flits.drop 1 ++ List.replicate 8 (List.replicate 32 0)
def threeLanes : Frame := frameOf 3 29 15277 aroundControl

theorem crc_goodFrame : frameCrcOk goodFrame.body = true := crcOk_frameOf (by decide +kernel)
theorem crc_threeLanes : frameCrcOk threeLanes.body = true := crcOk_frameOf (by decide +kernel)

theorem wit_FramesReceived :
    let s := portAs 3 upRetry allLanes { rxFrames := 4095, badRun := 2 }
    let f := goodFrame
    let t := nx (.frameReceive 3 f) s
    s.portUp 3 = true ∧ s.portRetry 3 = true ∧ frameSeq f.body = (s.port 3).rxFrames % 4096 ∧ s.portCfg 3 2 = false
      ∧ (f.body.slots.all fun x => x.length == 32) = true ∧ (s.port 3).spills = []
      ∧ codewordBad (s.bitAt (.port 3) 0x008 3) f.symErrs0 = false ∧ codewordBad (s.bitAt (.port 3) 0x008 3) f.symErrs1 = false
      ∧ (t.port 3).input.map (·.pkt) = [uni 2 1] ∧ (t.port 3).rxFrames = 4096 ∧ Tab.get 0 (t.port 3).received 2 = 2 := by
  intro s f t
  rw [show t = _ from nx_frame (by decide +kernel) (by decide +kernel) crc_goodFrame]
  decide +kernel

theorem wit_FramesReceived_control :
    let s := portAs 3 (2 + 3 * 2 ^ 8 + 7 * 2 ^ 16) allLanes { rxFrames := 3 }
    s.portUp 3 = true ∧ ((nx (.frameReceive 3 threeLanes) s).port 3).input.map (·.pkt) = [uni 2 1] := by
  intro s
  rw [nx_frame (by decide +kernel) (by decide +kernel) crc_threeLanes]
  decide +kernel

/-- A frame out of sequence, and a bad frame, with retry; one bit more breaks the CRC. -/
theorem wit_FramesReceived_retry :
    let s := portAs 3 upRetry allLanes { rxFrames := 4094, badRun := 2 }
    (frameCrc (uni 3 1).flits (goodFrame.body.fcw.toNat % 2 ^ 24) == 24959) = false
      ∧ frameSeq goodFrame.body ≠ (s.port 3).rxFrames % 4096 ∧ codewordBad (s.bitAt (.port 3) 0x008 3) (badOf goodFrame).symErrs0 = true
      ∧ ((nx (.frameReceive 3 (badOf goodFrame)) s).port 3).nak = true ∧ State.reset.portUp 3 = false
      ∧ (nx (.frameReceive 3 goodFrame) s).port 3 = { s.port 3 with badRun := 0 } := by
  intro s
  refine ⟨by decide +kernel, by decide +kernel, by decide +kernel, by decide +kernel, by decide +kernel, ?_⟩
  rw [nx_frame (by decide +kernel) (by decide +kernel) crc_goodFrame]
  decide +kernel

/-- A packet of transport kind 0, whose second flit is empty. -/
def blank : Packet := { uni 2 1 with tkind := 0 }
def frame9 : Frame := frameOf 9 38 3890 (uni 2 1).flits
def frame10 : Frame := frameOf 10 38 17945 (List.replicate 32 0xFF :: (uni 2 1).flits)

theorem crc_frame9 : frameCrcOk frame9.body = true := crcOk_frameOf (by decide +kernel)
theorem crc_frame10 : frameCrcOk frame10.body = true := crcOk_frameOf (by decide +kernel)

/-- Without retry: a packet goes on from one frame into the next, with what its header met; a bad frame loses the packet that was partly received
and the one that begins in it; and a later good one is taken from its first header on. -/
theorem wit_FramesReceived_plain :
    let u := portAs 3 upPlain allLanes { rxFrames := 9, partial_ := blank.bytes.take 32, header := (1, none), received := [(2, 1)] }
    let t := nx (.frameReceive 3 (badOf frame9)) u
    u.portUp 3 = true ∧ u.portRetry 3 = false ∧ (u.port 3).spills = [] ∧ codewordBad (u.bitAt (.port 3) 0x008 3) (badOf frame9).symErrs0 = true
      ∧ (t.port 3).resync = true ∧ t.regN (.port 3) 0x068 = 2
      ∧ ((nx (.frameReceive 3 frame9) u).port 3).input.map (fun w => (w.pkt, w.bank)) = [(blank, 1), (uni 2 1, 0)]
      ∧ ((nx (.frameReceive 3 frame10) t).port 3).input.map (·.pkt) = [uni 2 1]
      ∧ ((nx (.frameReceive 3 frame10) t).port 3).resync = false := by
  intro u t
  refine ⟨by decide +kernel, by decide +kernel, by decide +kernel, by decide +kernel, by decide +kernel, by decide +kernel, ?_, ?_⟩
  · rw [nx_frame (by decide +kernel) (by decide +kernel) crc_frame9]
    decide +kernel
  · rw [nx_frame (s := t) (by decide +kernel) (by decide +kernel) crc_frame10]
    decide +kernel

theorem wit_ControlSlotsTaken :
    let s := portAs 3 upRetry allLanes { replay := [{ fseq := 4095 }, { fseq := 0 }], seen := [(2, 65535)], credits := [(2, 1)] }
    let u := portAs 3 (upPlain + 1) allLanes { received := [(2, 65541)] }
    s.portState 3 = 2 ∧ s.portRetry 3 = true ∧ u.portState 3 = 3 ∧ u.portRetry 3 = false
      ∧ (nx (.credit 3 true false 4095 [0, 0, 3]) s).credits 3 2 = 5
      ∧ ((nx (.credit 3 true false 4095 [0, 0, 3]) s).port 3).replay = [{ fseq := 0 }]
      ∧ ((nx (.credit 3 true false 4095 [0, 0, 3]) s).port 3).resend = [{ fseq := 0 }]
      ∧ (nx (.credit 3 false true 0 [0, 0, 3]) s).credits 3 2 = 768
      ∧ Tab.get 0 ((nx (.audit 3 false 0 [0, 0, 7]) u).port 3).freed 2 = 2
      ∧ (nx (.audit 3 false 0 [0, 0, 7]) u).bitAt (.port 3) 0x048 4 = true
      ∧ State.reset.portState 3 ≠ 2 ∧ State.reset.portState 3 ≠ 3 := by decide +kernel

/-- CREDIT, AUDIT, a HELLO in the place of an AUDIT, FENCE, and HELLO and SYNC in TRAINING; the slot before the control slot is IDLE. -/
theorem wit_ControlSlotsSent :
    let s := portAs 3 upRetry allLanes { rxFrames := 4096, freed := [(2, 65538)] }
    let u := portAs 3 (upPlain + 1) allLanes { sent := [(2, 65537)], auditDue := true, filling := { slots := [[]] }, txFrames := 1 }
    let kind := fun (s : State) => byteFld ((nx (.controlSlotSend 3) s).port 3).control 0 1
    s.portState 3 = 2 ∧ (s.port 3).filling.slots.length < 40 ∧ s.portWidth 3 ≠ 0 ∧ u.portState 3 = 3
      ∧ kind s = 1 ∧ byteFld ((nx (.controlSlotSend 3) s).port 3).control 2 2 = 4095
      ∧ byteFld ((nx (.controlSlotSend 3) s).port 3).control 8 2 = 2 ∧ (nx (.controlSlotSend 3) s).slotNumber 3 = 1
      ∧ kind u = 2 ∧ byteFld ((nx (.controlSlotSend 3) u).port 3).control 8 2 = 1 ∧ (nx (.controlSlotSend 3) u).slotNumber 3 = 81
      ∧ kind (u.setPort 3 { u.port 3 with helloDue := true }) = 5
      ∧ kind (portAs 3 4 allLanes) = 4 ∧ kind (portAs 3 1 allLanes { helloDue := true }) = 5 ∧ kind (portAs 3 1 allLanes) = 1
      ∧ byteFld ((nx (.controlSlotSend 3) (portAs 3 1 allLanes)).port 3).control 1 1 = 2 ∧ State.reset.portState 3 = 0 := by decide +kernel

/-- A replay; VC0 before VC2 while its bucket is not empty; a packet without credit; one that may not cross. -/
theorem wit_EgressStarts :
    (let s := portAs 3 upRetry allLanes { resend := [{ fseq := 4 }], egress := [waits (uni 2 1)], credits := [(2, 2)] }
     s.portUp 3 = true ∧ (s.port 3).resend = [{ fseq := 4 }] ∧ ((nx (.egressPacketStart 3) s).port 3).wire.isSome = true
       ∧ ((nx (.egressPacketStart 3) s).port 3).resend = [])
    ∧ (let s := portAs 3 upRetry allLanes { egress := [waits (uni 2 1), waits (uni 0 1)], credits := [(0, 2), (2, 2)], txFrames := 4095 }
       let t := nx (.egressPacketStart 3) s
       (s.chooseEgress 3).map (·.pkt) = some (waits (uni 0 1)) ∧ s.firstOf 3 0 (fun _ => true) = some (waits (uni 0 1)) ∧ 0 < s.bucketNow 3
         ∧ (s.port 3).resend = [] ∧ (s.crossing (uni 0 1) 3).isSome = true
         ∧ (t.port 3).onWire = some { uni 0 1 with ttl := 62 } ∧ t.credits 3 0 = 0 ∧ t.credits 3 2 = 2
         ∧ (t.port 3).filling.slots = ({ uni 0 1 with ttl := 62 }).flits ∧ Tab.get 0 (t.port 3).freed 0 = 2
         ∧ ((nx (.egressPacketStart 3) t).port 3).onWire = some { uni 2 1 with ttl := 62 })
    ∧ (let s := portAs 3 upRetry allLanes { egress := [waits (uni 2 1)], credits := [(2, 1)] }
       s.chooseEgress 3 = none ∧ (s.port 3).resend = [] ∧ State.reset.portUp 3 = false)
    ∧ (let k := { uni 7 9 with escDown := true }
       let s := portAs 3 upRetry (allLanes + 16) { egress := [waits k], credits := [(7, 2)] }
       (s.chooseEgress 3).map (·.pkt) = some (waits k) ∧ s.crossing k 3 = none ∧ ((nx (.egressPacketStart 3) s).port 3).egress = []
         ∧ (nx (.egressPacketStart 3) s).fldAt .router 0x058 0 32 = 1) := by decide +kernel

/-- A long-haul port with one MiB of basin for VC2 and its first packet spilled to live HBM, poisoned or not. -/
def basinPort (bad : Bool) (r : PortRun := { input := [waits (uni 2 1) 2] }) : State :=
  let s := portAs 3 upPlain (allLanes + 4) { r with spilled := [(2, 2)], basin := [(2, 2)] }
  let s := (s.putN (.port 3) 0x030 1).putN (.port 3) 0x020 0x01_0101_0101_0101
  s.memWrite (s.basinFlit 3 2 0) [1] bad

theorem wit_BasinFills :
    (let s := basinPort false
     (s.port 3).spills = [] ∧ Tab.get 0 (s.port 3).basin 2 ≠ 0 ∧ Tab.get 0 (s.port 3).onDie 2 < s.onDieCap 3 2
       ∧ s.hbmWaits (s.basinFlit 3 2 0) 32 = false ∧ (s.memRead (s.basinFlit 3 2 0) 32).poison = false
       ∧ fillHead 2 (fun w => [{ w with inBasin := w.inBasin - 1 }]) (s.port 3).input = some (waits (uni 2 1) 2, [waits (uni 2 1) 1])
       ∧ ((nx (.basinFill 3 2) s).port 3).input = [waits (uni 2 1) 1]
       ∧ ((nx (.basinFill 3 2) (nx (.basinFill 3 2) s)).port 3).input = [waits (uni 2 1)])
    ∧ ((basinPort true).memRead ((basinPort true).basinFlit 3 2 0) 32).poison = true
    ∧ fillHead 2 (fun _ => []) ((basinPort true).port 3).input = some (waits (uni 2 1) 2, [])
    ∧ ((nx (.basinFill 3 2) (basinPort true)).port 3).input = [] ∧ (nx (.basinFill 3 2) (basinPort true)).regN (.port 3) 0x068 = 1
    ∧ (let s := basinPort true { partial_ := List.replicate 64 0, partDeep := 2 }
       fillHead 2 (fun w => [{ w with inBasin := w.inBasin - 1 }]) (s.port 3).input = none
         ∧ ((nx (.basinFill 3 2) s).port 3).partBad = true ∧ ((nx (.basinFill 3 2) (basinPort false { partDeep := 2 })).port 3).partDeep = 1)
    ∧ Tab.get 0 (State.reset.port 3).basin 2 = 0 := by decide +kernel

/-- The node is NGI 65, with a packet at the head of a VC of port 3; port 5 UP with credits; the active bank's entry of NGI 9. -/
def routing (ctrl e : Nat) (w : Waiting) (credit : Nat := 2) : State :=
  let s := (portAs 3 upPlain ctrl { input := [w] }).putN .router 0x010 65
  let s := ((s.putN (.port 5) 0x008 upPlain).putN (.port 5) 0x000 allLanes).setPort 5 { credits := [(2, credit), (4, 2), (7, credit)] }
  (s.putFld .routeTable (8 * (9 / 2)) 32 32 e).putFld .routeTable (8 * 32) 32 32 (2 ^ 26 + 2 ^ 27)

def toPort5 : Nat := 2 ^ 27 + 2 ^ 5
def escapeTo5 : Nat := 2 ^ 27 + 2 ^ 5 + 2 ^ 25 + 5 * 2 ^ 20

theorem wit_UnicastRouted_send :
    let w := waits (uni 2 9)
    let s := routing allLanes toPort5 w
    let t := nx (.unicast 3 2) s
    takeHead 2 false (s.port 3).input = some (w, []) ∧ w.bad = none ∧ w.port = 3 ∧ w.void = false ∧ w.copy = none ∧ s.hostPort 3 = false
      ∧ s.routePkt (uni 2 9) 0 = .send (uni 2 9) 5 ∧ (uni 2 9).len ≤ s.spare 5 2 ∧ s.portUp 5 = true ∧ s.mayCross (uni 2 9) 5 = true
      ∧ (t.port 3).input = [] ∧ (t.port 5).egress = [w] ∧ takeHead 3 false (s.port 3).input = none
      ∧ (nx (.unicast 3 2) (t.setPort 3 { input := [w] })).port 3 = { input := [w] } := by decide +kernel

theorem wit_UnicastRouted_wait :
    let s := routing allLanes toPort5 (waits (uni 2 9)) 1
    s.routePkt (uni 2 9) 0 = .send (uni 2 9) 5 ∧ s.spare 5 2 < (uni 2 9).len ∧ (nx (.unicast 3 2) s).port 3 = s.port 3 := by decide +kernel

/-- The filter's cause, an entry that is not valid, and an escape packet that has gone down and would go up. -/
theorem wit_UnicastRouted_drop :
    (let w := { waits (uni 2 9) with bad := some 2 }
     let s := routing allLanes toPort5 w
     s.bitAt .router 0x028 63 = false ∧ takeHead 2 false (s.port 3).input = some (w, []) ∧ (nx (.unicast 3 2) s).fldAt .router 0x050 0 32 = 1
       ∧ (nx (.unicast 3 2) s).fldAt .router 0x028 0 18 = 9 ∧ Tab.get 0 ((nx (.unicast 3 2) s).port 3).freed 2 = 2)
    ∧ (let s := routing allLanes 0 (waits (uni 2 9))
       s.routePkt (uni 2 9) 0 = .drop 1 ∧ (nx (.unicast 3 2) s).fldAt .router 0x048 0 32 = 1)
    ∧ (let k := { uni 7 9 with escDown := true }
       let s := (routing allLanes escapeTo5 (waits k)).putN (.port 5) 0x000 (allLanes + 16)
       s.routePkt k 0 = .send k 5 ∧ k.len ≤ s.spare 5 7 ∧ s.portUp 5 = true ∧ s.mayCross k 5 = false
         ∧ (nx (.unicast 3 7) s).fldAt .router 0x058 0 32 = 1) := by decide +kernel

theorem wit_UnicastRouted_deliver :
    let s := routing allLanes toPort5 (waits (uni 2 65))
    s.routePkt (uni 2 65) 0 = .deliver (uni 2 65) ∧ (nx (.unicast 3 2) s).arrived = [(0, uni 2 65)] := by decide +kernel

/-- A packet of the host's own VC0, without a tag. -/
def fromHost : Packet := { uni 0 9 with tag := 0 }

theorem wit_UnicastRouted_host :
    let s := portAs 15 upPlain (allLanes + 32) { input := [{ pkt := fromHost, port := 15, since := 0 }] }
    s.hostPort 15 = true ∧ s.filterPkt 15 fromHost = none ∧ (nx (.unicast 15 0) s).hostIn = [fromHost] := by decide +kernel

/-- A head that has waited exactly ESC_WAIT, and a packet of the node's own quay in an egress queue. -/
theorem wit_EscapeMovesPacket :
    let w := waits (uni 2 9)
    let k := uni 2 9
    (let s := (routing allLanes escapeTo5 w 1).putN .tide 0x000 (State.reset.fldAt .router 0x008 0 16)
     takeHead 2 false (s.port 3).input = some (w, []) ∧ s.hostPort 3 = false ∧ s.escapes s.spare w = true
       ∧ s.routePkt (s.phased k).escaped 0 = .send (s.phased k).escaped 5 ∧ s.mayCross (s.phased k).escaped 5 = true
       ∧ ((nx (.escape 3 2) s).port 5).egress.map (fun w => (w.pkt.vc, w.pkt.ovc)) = [(7, 2)]
       ∧ (nx (.escape 3 2) s).regN (.port 3) 0x190 = 1
       ∧ (s.putN .tide 0x000 (s.clock - 1)).escapes s.spare w = false)
    ∧ (let q : Waiting := { pkt := k, port := 16, since := 0 }
       let s := ((routing allLanes escapeTo5 w 1).setPort 5 { egress := [q], credits := [(2, 1)] }).putN .tide 0x000 100_000
       takeHead 2 false (s.port 5).input = none ∧ s.credits 5 2 < q.pkt.len ∧ s.escapes s.credits q = true
         ∧ ((s.port 5).egress.find? fun w => w.pkt.vc == 2) = some q
         ∧ s.routePkt (s.phased k).escaped 0 = .send (s.phased k).escaped 5 ∧ s.mayCross (s.phased k).escaped 5 = true
         ∧ ((nx (.escape 5 2) s).port 5).egress.map (fun w => (w.pkt.vc, w.pkt.ovc, w.since)) = [(7, 2, 100_000)]
         ∧ ((s.port 5).egress.find? fun w => w.pkt.vc == 3) = none) := by decide +kernel

/-- A multicast of block 1 to the node (NGI 65), and to what ports 5 and 7 lead to. -/
def multi : Packet := { htype := 2, vc := 4, ovc := 4, src := 0, dst := 0, phase := 1, ttl := 63, tag := 0, block := 1, mask := 0xF, tkind := 7 }

/-- The copy for port 5 has the port's share of the mask, none goes back to port 3, and the buffer is freed with the copy's start. -/
theorem wit_MulticastCopied :
    let s := (((routing allLanes 0 (waits multi)).putN .routeTable (0x80_0000 + 0x80 + 5 * 8) 0xC).putN .routeTable (0x80_0000 + 0x80 + 3 * 8) 1)
    let t := nx (.multicast 3 4) s
    takeHead 4 true (s.port 3).input = some (waits multi, []) ∧ s.hostPort 3 = false ∧ multi.block = s.selfNgi / 64
      ∧ multi.mask.testBit (s.selfNgi % 64) = true
      ∧ (t.port 5).egress.map (fun w => (w.pkt.mask, w.copy)) = [(0xC, some 0)] ∧ (t.port 3).egress = [] ∧ t.arrived = [(0, multi)]
      ∧ (t.port 3).freed = [] ∧ Tab.get 0 ((nx (.egressPacketStart 5) t).port 3).freed 4 = 2
      ∧ (let u := s.setPort 3 { input := [waits { multi with mask := 2 }] }
         (nx (.multicast 3 4) u).arrived.length = 1 ∧ Tab.get 0 ((nx (.multicast 3 4) u).port 3).freed 4 = 2) := by decide +kernel

/-- The drops of a multicast, and the host's. -/
theorem wit_MulticastCopied_drop :
    (let s := routing allLanes 0 (waits { multi with ttl := 0 })
     takeHead 4 true (s.port 3).input = some (waits { multi with ttl := 0 }, []) ∧ (nx (.multicast 3 4) s).fldAt .router 0x040 0 32 = 1)
    ∧ (let s := routing allLanes 0 (waits { multi with vc := 3 })
       takeHead 3 true (s.port 3).input = some (waits { multi with vc := 3 }, []) ∧ (nx (.multicast 3 3) s).fldAt .router 0x060 0 32 = 1)
    ∧ (let s := routing allLanes 0 { waits multi with bad := some 2 }
       (nx (.multicast 3 4) s).fldAt .router 0x050 0 32 = 1)
    ∧ (let s := portAs 15 upPlain (allLanes + 32) { input := [{ pkt := { multi with vc := 5 }, port := 15, since := 0, inVc := 5 }] }
       s.hostPort 15 = true ∧ (nx (.multicast 15 5) s).hostIn.length = 1) := by decide +kernel

theorem wit_RouterRegisterWrites :
    (nx (.rtrBankWrite false false 1) State.reset).bank = 1 ∧ State.reset.bank = 0
      ∧ (262143 : Nat) / 131072 ≠ State.reset.bank
      ∧ (nx (.routeTableWrite 262143 true false 5) State.reset).getReg (at_ .routeTable (8 * 262143)) = 5
      ∧ (131071 : Nat) / 131072 = State.reset.bank
      ∧ (nx (.routeTableWrite 131071 true false 5) State.reset).getReg (at_ .routeTable (8 * 131071)) = 0
      ∧ bit ((nx (.routeTableWrite 131071 true false 5) State.reset).getReg (rejectAddr .router)) 0 = true
      ∧ (let t := nx (.tagFilterWrite 1023 false true 0x8000_0000) State.reset
         t.getReg (at_ .router (0x1_0000 + 8 * 1023)) = 2 ^ 63 ∧ t.laggedReg (at_ .router (0x1_0000 + 8 * 1023)) = 0) := by decide +kernel

/-! ## Quays -/

/-- The last queue, of quay 1, and its context: 16 requests, 32 records, 16 slots of 64 bytes, tag 7, peer NGI 0, peer queue 5. -/
def lastQ : Fin 262144 := 262143
def queueCtx (fs : List (Nat × Nat × Nat)) : List Byte :=
  bytesOf 128 ([(0, 1, 1), (1, 1, 0x54), (2, 1, 4), (4, 2, 7), (6, 2, 10), (12, 4, 5), (20, 4, 4096), (24, 8, 0x10000), (32, 8, 0x20000),
    (40, 8, 0x30000), (72, 8, 10000)] ++ fs)

/-- A node that knows itself (NGI 0), with the queue owned by its quay. -/
def knows0 : State := State.reset.putFld .routeTable 0 0 32 (2 ^ 26 + 2 ^ 27)
def owning (fs : List (Nat × Nat × Nat)) (r : QuayQueue := {}) : State := knows0.setQuayQueue lastQ { r with context := queueCtx fs }

/-- The context stands in HBM. -/
def enabling : State := knows0.putBytes (knows0.ctxAddr lastQ) (queueCtx [(0, 1, 0)])

theorem wit_QueueEnabled :
    enabling.domainState (464 + quayOf lastQ) = 0 ∧ enabling.limited = false ∧ (enabling.quayQueue lastQ).state = 0
      ∧ (enabling.memRead (enabling.ctxAddr lastQ) 128).ok = true ∧ (enabling.memRead (enabling.ctxAddr lastQ) 128).poison = false
      ∧ (enabling.memRead (enabling.ctxAddr lastQ) 128).data = queueCtx [(0, 1, 0)] := by decide +kernel

theorem wit_QueueEnabled_runs :
    enableCause (queueCtx [(0, 1, 0)]) = 0 ∧ ((nx (.enable lastQ) enabling).quayQueue lastQ).state = 1
      ∧ (nx (.enable lastQ) enabling).arrived.map (fun e => (e.2.tkind, e.2.addr)) = [(9, 4096)] := by decide +kernel

theorem wit_QueueEnabled_busy :
    ((owning []).quayQueue lastQ).state ≠ 0 ∧ (nx (.enable lastQ) (owning [])).fldAt (.quay 1) 0x030 23 3 = 5 := by decide +kernel

/-- Contexts that ENABLE refuses with each cause, and one poisoned. -/
theorem wit_QueueEnabled_refused :
    enableCause (queueCtx [(20, 4, 4095)]) = 1 ∧ enableCause (queueCtx [(24, 8, 0x10040)]) = 2
      ∧ enableCause (queueCtx [(0, 1, 9)]) = 3 ∧ enableCause (queueCtx [(1, 1, 0x44)]) = 4
      ∧ (let s := (knows0.memWrite (knows0.ctxAddr lastQ) (queueCtx []) true)
         s.limited = false ∧ (s.quayQueue lastQ).state = 0 ∧ (s.memRead (s.ctxAddr lastQ) 128).poison = true
           ∧ (nx (.enable lastQ) s).fldAt (.quay 1) 0x030 23 3 = 2)
      ∧ (let s := knows0.putBytes (knows0.ctxAddr lastQ) (queueCtx [(20, 4, 4095)])
         (nx (.enable lastQ) s).fldAt (.quay 1) 0x030 23 3 = 1) := by decide +kernel

theorem wit_QueueStatesFollowQctl :
    let o : QuayOp := { index := 0, request := [], start := 0, firstPsn := 0, endPsn := 1 }
    let s := owning [] { ops := [o] }
    let h := owning [(0, 1, 2)] { ops := [o] }
    let d := owning [(0, 1, 3), (127, 1, 9)]
    s.domainState (464 + quayOf lastQ) = 0 ∧ (s.quayQueue lastQ).context.length = 128 ∧ (s.quayQueue lastQ).state ≠ 0
      ∧ ((nx (.drain lastQ) s).quayQueue lastQ).state = 3
      ∧ (h.quayQueue lastQ).state = 2 ∧ ((nx (.qctlResume lastQ) h).quayQueue lastQ).state = 1
      ∧ (nx (.reset lastQ) s).quayQueue lastQ = {}
      ∧ (d.quayQueue lastQ).state = 3 ∧ (d.quayQueue lastQ).ops = [] ∧ liveB d (d.ctxAddr lastQ) 128 = true ∧ d.hbmWaits (d.ctxAddr lastQ) 128 = false
      ∧ (nx (.queueDrainDone lastQ) d).byteAt (d.ctxAddr lastQ + 127) = 9 ∧ (nx (.queueDrainDone lastQ) d).byteAt (d.ctxAddr lastQ) = 0 := by decide +kernel

/-- CQ_HEAD just below the wrap: the last index that fits, and one more. -/
theorem wit_QueueBells :
    let s := owning [(48, 4, 2 ^ 32 - 1), (56, 4, 0), (60, 4, 2 ^ 32 - 1), (64, 4, 3)]
    let r := s.quayQueue lastQ
    r.context.length = 128 ∧ r.state ≠ 0 ∧ r.overfills 15 = false ∧ r.overfills 16 = true ∧ s.stagingWaits lastQ = false
      ∧ ((nx (.queueBellSqTail lastQ 15) s).quayQueue lastQ).sqTail = 15
      ∧ (((nx (.queueBellSqTail lastQ 16) s).quayQueue lastQ).fld 120 4).testBit 8 = true
      ∧ diff32 0 r.cqHead ≤ diff32 r.cqTail r.cqHead ∧ ((nx (.queueBellCqHead lastQ 0) s).quayQueue lastQ).cqHead = 0
      ∧ diff32 3 r.rqHead ≤ diff32 r.rqTail r.rqHead ∧ ((nx (.queueBellRqHead lastQ 3) s).quayQueue lastQ).rxFreed = 192
      ∧ r.overfills (r.sqTail + 1) = false ∧ r.stagingSlot = 0x10000 + 64 * 15 ∧ liveB s (0x10000 + 64 * 15) 64 = true
      ∧ (nx (.stagingWindowWrite lastQ 64 (List.replicate 64 9) false) s).byteAt (0x10000 + 64 * 15 + 63) = 9
      ∧ (((nx (.stagingWindowWrite lastQ 32 (List.replicate 64 9) false) s).quayQueue lastQ).fld 120 4).testBit 8 = true := by decide +kernel

/-- A work request of 64 bytes; the queue with one at its head. -/
def request (fs : List (Nat × Nat × Nat)) : List Byte := bytesOf 64 fs
def heading (b0 : Nat) (d : List Byte) : State := (owning [(0, 1, b0), (48, 4, 1)]).putBytes 0x10000 d
def putReq : List Byte := request [(0, 1, 1), (4, 4, 4096), (8, 8, 0x40000), (16, 8, 64)]

theorem wit_OperationsStart :
    let s := heading 1 putReq
    (s.quayQueue lastQ).context.length = 128 ∧ s.headReady lastQ (s.headRequest lastQ) = true ∧ (s.headRequest lastQ).ok = true
      ∧ (s.headRequest lastQ).poison = false ∧ (s.headRequest lastQ).data = putReq ∧ wrOk (s.quayQueue lastQ).guaranteed putReq = true
      ∧ wrFlag putReq 1 = false ∧ s.reachable (wrLocal putReq) (wrLocalBytes putReq) = true ∧ (s.quayQueue lastQ).guaranteed = false
      ∧ (s.peerOf lastQ).1 = some 0
      ∧ (s.routeEntry s.bank (s.viaOf { vc := 5, ovc := 5, dst := 0, src := 0, tag := 0, tkind := 1 }).target).testBit 27 = true := by decide +kernel

theorem wit_OperationsStart_each :
    (let t := nx (.get lastQ) (heading 1 (request [(0, 1, 2), (4, 4, 4097), (8, 8, 0x40000)]))
     (t.quayQueue lastQ).txPsn = 2 ∧ t.arrived.map (fun e => (e.2.tkind, e.2.psn, e.2.data)) = [(2, 0, 4096), (2, 1, 1)])
    ∧ (let t := nx (.send lastQ) (heading 1 (request [(0, 1, 3), (4, 4, 3), (8, 8, 0x40000)]))
       (t.quayQueue lastQ).txUsed = 64 ∧ t.arrived.map (·.2.tkind) = [4])
    ∧ (nx (.atomic lastQ) (heading 1 (request [(0, 1, 4), (2, 1, 0x20)]))).arrived.map (·.2.tkind) = [5]
    ∧ (nx (.ctrAdd lastQ) (heading 1 (request [(0, 1, 5)]))).arrived.map (·.2.tkind) = [10]
    ∧ (let s := heading 1 (request [(0, 1, 6)])
       s.headReady lastQ (s.headRequest lastQ) = true ∧ wrOk false (request [(0, 1, 6)]) = true
         ∧ ((nx (.nopWorkRequest lastQ) s).quayQueue lastQ).ops.map (·.status) = [some 0])
    ∧ (let s := (owning [(48, 4, 1)]).memWrite 0x10000 (request []) true
       s.headReady lastQ (s.headRequest lastQ) = true ∧ (s.headRequest lastQ).poison = true
         ∧ ((nx (.nopWorkRequest lastQ) s).quayQueue lastQ).ops.map (·.status) = [some 1])
    ∧ (let s := owning [(48, 4, 1), (24, 8, 0x6000_0000_0000)]
       s.headReady lastQ (s.headRequest lastQ) = true ∧ (s.headRequest lastQ).ok = false
         ∧ ((nx (.nopWorkRequest lastQ) s).quayQueue lastQ).ops.map (·.status) = [some 2]) := by decide +kernel

/-- A guaranteed CTR_ADD at a LOCKED node: no port leads to the peer that it delivers to itself; or the one port, with a slot of the
calendar that the queue owns. -/
def addReq (deadline : Nat) : List Byte := request [(0, 1, 5), (48, 8, deadline)]
def promising (deadline : Nat) (toPort : Bool) : State :=
  let s := (heading 9 (addReq deadline)).setQuayQueue lastQ { context := queueCtx [(0, 1, 9), (16, 4, 100), (48, 4, 1), (8, 4, 9)] }
  let s := ((s.putN .tide 0x000 1_000_000).putN .tide 0x008 2).putFld .routeTable 32 32 32 (if toPort then 2 ^ 27 + 2 ^ 5 else 2 ^ 26 + 2 ^ 27)
  (s.putN (.port 5) 0x008 (2 + 8 * 2 ^ 8)).putFld (.calendar 0) (0x8000 + 0x4000 * 5 + 1588 * 8) 0 32 (2 ^ 31 + 262143)

theorem wit_OperationsAdmittedAndRecorded_refused :
    let s := promising 2_000_000 false
    let u := promising 1_000_000 false
    s.headReady lastQ (s.headRequest lastQ) = true ∧ wrOk true (addReq 2_000_000) = true ∧ (s.quayQueue lastQ).guaranteed = true
      ∧ (s.peerOf lastQ).1 = some 9 ∧ bad (s.admitOp lastQ 9 s.now (addReq 2_000_000)) 0x13 = true
      ∧ bad (u.admitOp lastQ 9 u.now (addReq 1_000_000)) 0x10 = true
      ∧ ((nx (.ctrAdd lastQ) s).quayQueue lastQ).ops.map (·.status) = [some 0x13]
      ∧ (nx (.ctrAdd lastQ) u).regN (.quay 1) 0x108 = 1 := by decide +kernel

theorem wit_OperationsAdmittedAndRecorded_admitted :
    good ((promising 2_000_000 true).admitOp lastQ 9 1_000_000 (addReq 2_000_000)) ([(5, 40040, 96)], 5) = true := by
  have r : (promising 2_000_000 true).routePort 9 = some 5 := by
    unfold State.routePort
    rw [State.routePkt_one (p := 5)] <;> decide
  unfold State.admitOp
  rw [r]
  decide +kernel

theorem wit_OperationsAdmittedAndRecorded_recorded :
    let o : QuayOp := { index := 3, request := request [(0, 1, 6), (1, 1, 4), (44, 4, 11)], start := 0, firstPsn := 0, endPsn := 1, status := some 2, stamp := 77 }
    let s := owning [(56, 4, 32)] { ops := [o] }
    let t := nx (.operationComplete lastQ) s
    (s.quayQueue lastQ).ops = [o] ∧ liveB s 0x20000 32 = true ∧ (s.quayQueue lastQ).recordAt = 0x20000 ∧ s.hbmWaits 0x20000 32 = false
      ∧ t.byteAt 0x20000 = 2 ∧ t.byteAt 0x20002 = 0 ∧ t.byteAt 0x20008 = 77 ∧ (t.quayQueue lastQ).cqTail = 33 ∧ (t.quayQueue lastQ).state = 2
      ∧ t.adds.map (·.counter) = [11] := by decide +kernel

/-- A packet at quay 1 for the last queue, the next in its order. -/
def forQ (kind : Nat) (p : Packet) : Packet := { p with tkind := kind, tag := 7, dq := 262143, sq := 5, last := false }
def none5 : Packet := { vc := 5, ovc := 5, dst := 0, src := 0, tag := 7, tkind := 1, rmode := 0 }
def arriving (fs : List (Nat × Nat × Nat)) (p : Packet) (r : QuayQueue := {}) : State := { owning fs r with arrived := [(0, none5), (1, p)] }

/-- Opening 1023 of quay 1: 64 bytes from 0x50000, tag 7, readable, writable and for ATOMIC. -/
def opened (s : State) : State :=
  let a := 0x1_0000 + 0x20 * 1023
  ((s.putN (.quay 1) a 0x50000).putN (.quay 1) (a + 8) 64).putN (.quay 1) (a + 16) (7 + 7 * 2 ^ 16 + 2 ^ 23)

def open1023 (off : Nat) : Nat := 1023 * 2 ^ 40 + off

theorem wit_RequestsPerformed_put :
    let p := forQ 1 { none5 with addr := open1023 60, payload := [1, 2, 3, 4], data := 4 }
    let s := opened (arriving [] p)
    (s.takeArrived 1 [1]).map (·.1) = some p ∧ (s.quayQueue lastQ).state = 1 ∧ (s.quayQueue lastQ).jobTag = p.tag ∧ p.psn = (s.quayQueue lastQ).rxPsn
      ∧ (s.quayQueue lastQ).held = [] ∧ good (s.openAt lastQ p 4 16) (0x50000 + 60) = true ∧ liveB s (0x50000 + 60) 4 = true
      ∧ (nx (.putReceive 1) s).byteAt (0x50000 + 63) = 4 ∧ ((nx (.putReceive 1) s).quayQueue lastQ).rxPsn = 1
      ∧ bad (s.openAt lastQ { p with addr := open1023 61 } 4 16) 2 = true := by decide +kernel

theorem wit_RequestsPerformed_send :
    let p := forQ 4 { none5 with addr := 60, payload := [1, 2, 3, 4] }
    let s := arriving [(64, 4, 15)] p
    let u := arriving [(64, 4, 15)] { p with last := true }
    (s.takeArrived 1 [4]).map (·.1) = some p ∧ s.noSlot lastQ p = false ∧ (s.quayQueue lastQ).rqN ≠ 0
      ∧ p.addr + p.payload.length ≤ (s.quayQueue lastQ).slotSize ∧ liveB s (0x30000 + 64 * 15 + 60) 4 = true
      ∧ (nx (.sendReceive 1) s).byteAt (0x30000 + 64 * 15 + 63) = 4
      ∧ liveB u 0x20000 32 = true ∧ (u.quayQueue lastQ).recordAt = 0x20000 ∧ ((nx (.sendReceive 1) u).quayQueue lastQ).rqTail = 16 ∧ (nx (.sendReceive 1) u).byteAt 0x20004 = 64 := by decide +kernel

theorem wit_RequestsPerformed_rest :
    (let p := forQ 5 { none5 with addr := open1023 56, data := 5, code := 0x30 }
     let s := (opened (arriving [] p)).putByte (0x50000 + 56) 254
     let t := nx (.atomicReceive 1) s
     good (s.openAt lastQ p 8 18) (0x50000 + 56) = true ∧ liveB s (0x50000 + 56) 8 = true ∧ s.linePoison (0x50000 + 56) 8 = false
       ∧ t.byteAt (0x50000 + 56) = 3 ∧ t.byteAt (0x50000 + 57) = 1 ∧ (t.quayQueue lastQ).kept = [(0, 254)]
       ∧ t.arrived.map (fun e => (e.2.tkind, e.2.data)) = [(1, 0), (6, 254)])
    ∧ (let p := forQ 2 { none5 with addr := open1023 63, data := 1 }
       let s := (opened (arriving [] p { unacked := 62 })).putByte (0x50000 + 63) 9
       good (s.openAt lastQ p 1 17) (0x50000 + 63) = true ∧ (s.quayQueue lastQ).unacked + 1 < 64
         ∧ (nx (.getReqReceive 1) s).arrived.map (fun e => (e.2.tkind, e.2.payload)) = [(1, []), (3, [9])])
    ∧ (let p := forQ 10 { none5 with addr := 2 ^ 17 - 1, data := 2 ^ 32 - 1 }
       let s := ((arriving [] p).putN (.collective 1) (0x1_0000 + 8 * 1023) (7 + 2 ^ 31)).putN (.collective 1) (0x10_0000 + 8 * 65535) 5
       s.trigTag (2 ^ 17 - 1) = 7 ∧ s.trigEnabled (2 ^ 17 - 1) = true ∧ s.safe = false ∧ s.domainState 465 = 0
         ∧ (nx (.ctrAddReceive 1) s).trigCtr (2 ^ 17 - 1) = 4) := by decide +kernel

theorem wit_RequestsRefused :
    (let p := forQ 5 none5
     let s := arriving [(0, 1, 2)] p
     (s.quayQueue (p.dq % 2 ^ 18)).state ≠ 1 ∧ (nx (.atomicReceive 1) s).arrived.map (fun e => (e.2.tkind, e.2.code)) = [(1, 0), (15, 8)])
    ∧ (let p := { forQ 10 none5 with tag := 6 }
       let s := arriving [] p
       (s.quayQueue (p.dq % 2 ^ 18)).state = 1 ∧ (s.quayQueue (p.dq % 2 ^ 18)).jobTag ≠ p.tag
         ∧ (nx (.ctrAddReceive 1) s).arrived.map (fun e => (e.2.tkind, e.2.code)) = [(1, 0), (15, 6)]
         ∧ (nx (.ctrAddReceive 1) s).regN (.quay 1) 0x150 = 1) := by decide +kernel

/-- An operation of two packets from PSN 2^32 - 1 on, in progress. -/
def running (op : Nat) (fs : List (Nat × Nat × Nat)) : QuayOp :=
  { index := 3, request := request ((0, 1, op) :: fs), start := 0, firstPsn := 2 ^ 32 - 1, endPsn := 1 }

theorem wit_AnswersEndOperations :
    (let o := { running 2 [(4, 4, 4097), (8, 8, 0x40000)] with got := [2 ^ 32 - 1] }
     let p := forQ 3 { none5 with psn := 0, payload := [8] }
     let s := arriving [] p { ops := [o] }
     (o.owns p.psn && wrOpcode o.request == 2) = true ∧ o.got.contains p.psn = false ∧ liveB s (0x40000 + 4096) 1 = true
       ∧ (nx (.getRespReceive 1) s).byteAt (0x40000 + 4096) = 8
       ∧ ((nx (.getRespReceive 1) s).quayQueue lastQ).ops.map (·.status) = [some 0])
    ∧ (let o := running 4 [(2, 1, 0x30), (8, 8, 0x40000)]
       let p := forQ 6 { none5 with psn := 0, data := 2 ^ 64 - 1, poison := true }
       let s := arriving [] p { ops := [o] }
       (o.owns p.psn && wrOpcode o.request == 4 && wrFetch o.request) = true ∧ liveB s 0x40000 8 = true
         ∧ ((nx (.atomicRespReceive 1) s).quayQueue lastQ).ops.map (fun o => (o.status, o.result)) = [(some 3, 2 ^ 64 - 1)])
    ∧ (let p := forQ 7 { none5 with psn := 1, addr := 99 }
       let s := arriving [(104, 4, 1), (108, 4, 2 ^ 32 - 1)] p { ops := [running 1 [(4, 4, 4097)]], retries := 4 }
       let r := s.quayQueue lastQ
       diff32 p.psn r.txAcked ≠ 0 ∧ diff32 p.psn r.txAcked ≤ diff32 r.txPsn r.txAcked
         ∧ ((nx (.ackReceive 1) s).quayQueue lastQ).txAcked = 1 ∧ ((nx (.ackReceive 1) s).quayQueue lastQ).ops.map (·.stamp) = [99])
    ∧ (let s := arriving [] (forQ 9 { none5 with addr := 10001 })
       ((nx (.grantReceive 1) s).quayQueue lastQ).txGranted = 10001)
    ∧ (let o := running 1 [(4, 4, 4097)]
       let p := forQ 15 { none5 with psn := 0, code := 8, data := 10 }
       let s := arriving [] p { ops := [o] }
       o.owns p.psn = true ∧ o.admitted = false ∧ ((nx (.errorReceive 1) s).quayQueue lastQ).ops.map (·.status) = [some 8]) := by decide +kernel

/-- One packet without progress since 5 ns, with n retransmissions behind it; RTO_US is 10. -/
def stuck (n : Nat) : State :=
  (arriving [(104, 4, 1), (108, 4, 0)] (forQ 8 none5)
    { ops := [{ running 5 [] with firstPsn := 0 }], retries := n, progress := 5 }).putN .tide 0x000 10_005

theorem wit_TimersOfQueues_hypotheses :
    ((stuck 6).quayQueue lastQ).state ≠ 0 ∧ (stuck 6).safe = false
      ∧ ((stuck 6).quayQueue lastQ).progress + ((stuck 6).quayQueue lastQ).fld 6 2 * 1000 ≤ (stuck 6).clock
      ∧ (((stuck 6).quayQueue lastQ).ops.find? fun o => o.status.isNone && wrPackets o.request != 0).isSome = true
      ∧ ((stuck 6).quayQueue lastQ).retries < 7 ∧ 7 ≤ ((stuck 7).quayQueue lastQ).retries := by decide +kernel

theorem wit_TimersOfQueues_again :
    (nx (.retransmitTimeout lastQ) (stuck 6)).arrived.map (fun e => (e.2.tkind, e.2.psn, e.2.retx))
      = [(1, 0, false), (8, 0, false), (10, 0, true)] := by decide +kernel

theorem wit_TimersOfQueues_lost :
    ((nx (.nakReceive 1) (stuck 7)).quayQueue lastQ).ops.map (·.status) = [some 7] := by decide +kernel

/-- A gap, an acknowledgement and a grant are due. -/
def timed : State := (owning [] { gapFrom := some 5, ackFrom := some 5, granted := 5 }).putN .tide 0x000 100_005

theorem wit_TimersOfQueues_control :
    (timed.peerOf lastQ).1 = some 0 ∧ 5 + 100_000 ≤ timed.clock
      ∧ (nx (.gapNak lastQ) timed).arrived.map (·.2.tkind) = [8] ∧ (nx (.ackTimer lastQ) timed).arrived.map (·.2.tkind) = [7]
      ∧ (nx (.grantTimer lastQ) timed).arrived.map (fun e => (e.2.tkind, e.2.addr)) = [(9, 4096)] := by decide +kernel

/-- A calendar that takes effect at the period that starts now, and a booked slot that ends now. -/
def newCalendar : State :=
  { State.reset.putN .tide 0x000 102_400 with
    commits := [(commitAddr (.calendar 1), 1, [(at_ (.calendar 1) 0x008, 50)])]
    booked := [(16 * 4095 + 5, 96), (16 * 4096 + 5, 32)], ranks := [(1, 8), (2 ^ 19 + 1, 9)] }

theorem wit_CalendarAndRanks :
    let b := Block.calendar 1
    (captured newCalendar b).map (·.1) = [at_ b 0x008] ∧ newCalendar.commitPending b = true ∧ newCalendar.atBoundary b = true ∧ newCalendar.quays = []
      ∧ newCalendar.commitPending (.calendar 0) = false ∧ (nx (.calendarPeriodStart 1) newCalendar).shareOf 9 = 50
      ∧ (nx (.calendarPeriodStart 0) newCalendar).booked = [(16 * 4096 + 5, 32)] ∧ (nx (.rankFlush 1) newCalendar).ranks = [(1, 8)] := by decide +kernel

/-! ## Trigger counters and collectives -/

/-- An add to the last counter of quay 1, its block enabled or not, the counter one below its wrap. -/
def adding (enabled : Bool) : State :=
  let s := (State.reset.putN (.collective 1) (0x1_0000 + 8 * 1023) (if enabled then 2 ^ 31 else 0)).putN (.collective 1) (0x10_0000 + 8 * 65535) (2 ^ 32 - 1)
  { s with adds := [{ counter := 2 ^ 17 - 1, inc := 3, source := 3, tag := 2 ^ 16 - 1 }] }

theorem wit_TriggerAddApplies :
    takeAdd (adding true) (adding true).adds = some ({ counter := 2 ^ 17 - 1, inc := 3, source := 3, tag := 2 ^ 16 - 1 }, [])
      ∧ (adding true).safe = false ∧ (adding true).domainState 465 = 0 ∧ (adding true).trigEnabled (2 ^ 17 - 1) = true
      ∧ (nx .triggerAdd (adding true)).trigCtr (2 ^ 17 - 1) = 2
      ∧ (adding false).trigEnabled (2 ^ 17 - 1) = false ∧ (nx .triggerAdd (adding false)).fldAt (.collective 1) 0x050 0 32 = 1
      ∧ (nx .triggerAdd (adding false)).fldAt (.collective 1) 0x058 0 17 = 2 ^ 17 - 1
      ∧ (nx .triggerAdd (adding false)).fldAt (.collective 1) 0x058 32 16 = 2 ^ 16 - 1 := by decide +kernel

/-- The last group, of quay 1: ACTIVE, epoch 3, tag 7, one member with one ring at 0x100000, its member table at 0x110000. -/
def lastG : Fin 4096 := 4095
def groupCtx (fs : List (Nat × Nat × Nat)) : List Byte :=
  bytesOf 256 ([(0, 1, 2), (1, 1, 3), (2, 2, 7), (4, 1, 1), (5, 1, 0x44), (6, 1, 12), (8, 4, 1), (24, 8, 0x110000), (32, 8, 0x100000),
    (40, 8, 0x120000), (48, 8, 0x130000), (56, 8, 0x140000), (68, 4, 8), (128, 8, 10000)] ++ fs)
def oneRing : List Byte := bytesOf 84 [(1, 1, 1), (2, 1, 1)]
def tables : State := (knows0.putBytes 0x100000 oneRing).putBytes 0x110000 (bytesOf 128 [(0, 4, 2 ^ 31), (64, 4, 2 ^ 31)])
def grouped (fs : List (Nat × Nat × Nat)) (r : GroupRun := {}) : State := tables.setGroup lastG { r with context := groupCtx fs }

/-- The context stands in HBM. -/
def arming (fs : List (Nat × Nat × Nat)) : State := tables.putBytes (tables.grpAddr lastG) (groupCtx ((0, 1, 0) :: fs))

theorem wit_GroupStates_arm :
    (arming []).domainState (464 + groupQuay lastG) = 0 ∧ (arming []).limited = false ∧ ((arming []).group lastG).state = 0
      ∧ ((arming []).memRead ((arming []).grpAddr lastG) 256).ok = true ∧ ((arming []).memRead ((arming []).grpAddr lastG) 256).poison = false
      ∧ (arming []).armCause lastG ((arming []).memRead ((arming []).grpAddr lastG) 256).data = 0
      ∧ ((nx (.arm lastG) (arming [])).group lastG).state = 1 := by decide +kernel

/-- Contexts that ARM refuses with each cause, and a group in a wrong state. -/
theorem wit_GroupStates_refused :
    tables.armCause lastG (groupCtx [(6, 1, 21)]) = 1 ∧ tables.armCause lastG (groupCtx [(56, 8, 0x140800)]) = 2
      ∧ tables.armCause lastG (groupCtx [(12, 4, 0), (24, 8, 0x180000)]) = 3 ∧ tables.armCause lastG (groupCtx [(32, 8, 0x180000)]) = 4
      ∧ tables.armCause lastG (groupCtx [(128, 8, 9999)]) = 5
      ∧ tables.armCause lastG (groupCtx [(0, 1, 8), (7, 1, 1), (16, 4, 0), (72, 4, 1), (76, 4, 1)]) = 6
      ∧ tables.armCause lastG (groupCtx [(0, 1, 8), (7, 1, 1), (16, 4, 262143), (72, 4, 1), (76, 4, 1)]) = 0
      ∧ (nx (.arm lastG) (arming [(128, 8, 9999)])).fldAt (.collective 1) 0x018 17 3 = 5
      ∧ ((grouped []).group lastG).state = 2 ∧ (nx (.arm lastG) (grouped [])).fldAt (.collective 1) 0x018 17 3 = 7
      ∧ (nx (.disable lastG) (grouped [])).fldAt (.collective 1) 0x018 17 3 = 7
      ∧ (nx (.quiesce lastG) tables).fldAt (.collective 1) 0x018 17 3 = 7 := by decide +kernel

theorem wit_GroupStates_rest :
    (let s := (grouped [(0, 1, 1)]).putN .tide 0x000 10_000
     (s.group lastG).context.length = 256 ∧ (s.group lastG).state = 1 ∧ (s.group lastG).fld 128 8 ≤ s.now
       ∧ ((nx (.groupActivate lastG) s).group lastG).state = 2)
    ∧ (let s := grouped [(136, 4, 5)] { op := some { index := 0, request := bytesOf 64 [], start := 0, seq := 1 } }
       let t := nx (.quiesce lastG) s
       (s.group lastG).state = 2 ∧ (t.group lastG).state = 4 ∧ (t.group lastG).op = none ∧ (t.group lastG).sqHead = 5 ∧ t.byteAt 0x130000 = 0x20)
    ∧ (((grouped [(0, 1, 4)]).group lastG).state = 4 ∧ (nx (.disable lastG) (grouped [(0, 1, 4)])).group lastG = {}) := by decide +kernel

theorem wit_GroupBellsAndWindows :
    (let s := grouped [(144, 4, 0), (148, 4, 2 ^ 32 - 1)]
     let r := s.group lastG
     diff32 15 r.cqHead ≤ r.sqN ∧ r.sqN < diff32 16 r.cqHead ∧ ((nx (.groupBellSqTail lastG 15) s).group lastG).sqTail = 15
       ∧ ((nx (.groupBellSqTail lastG 16) s).group lastG).sqTail = 0 ∧ diff32 0 r.cqHead ≤ diff32 r.cqTail r.cqHead
       ∧ ((nx (.groupBellCqHead lastG 0) s).group lastG).cqHead = 0)
    ∧ (let o : CollOp := { index := 0, request := bytesOf 64 [(32, 8, 500)], start := 0, seq := 1, admitted := true, awaiting := [(0, 1)] }
       let s := (grouped [(0, 1, 10)] { op := some o }).putN .tide 0x000 500
       (s.group lastG).op = some o ∧ o.promised = true ∧ stepEnd (s.group lastG) o (s.ringSteps (s.group lastG) o.request) ≤ s.now
         ∧ (nx (.stepWindowEnd lastG) s).regN (.quay 1) 0x128 = 1)
    ∧ (let s := (grouped [(255, 1, 9)]).putN .tide 0x000 10_000
       (s.group lastG).state = 2 ∧ (s.group lastG).written + 10_000 ≤ s.now ∧ s.safe = false ∧ liveB s (s.grpAddr lastG + 136) 120 = true
         ∧ (nx (.groupStatWriteback lastG) s).byteAt (s.grpAddr lastG + 255) = 9) := by decide +kernel

/-- A request at the head of the group's ring: one FP32 element from 0x150000 to 0x160000. -/
def collReq (op : Nat) (fs : List (Nat × Nat × Nat)) : List Byte :=
  bytesOf 64 ([(0, 1, op), (8, 8, 0x150000), (16, 8, 0x160000), (24, 4, 1)] ++ fs)
def calling (d : List Byte) : State := ((grouped [(136, 4, 1)]).putBytes 0x120000 d).putBytes 0x150000 [0, 0, 0x80, 0x3F]

theorem wit_CollectivesStart :
    let d := collReq 1 []
    let s := calling d
    (s.group lastG).context.length = 256 ∧ s.collReady lastG (s.collHead lastG) = true ∧ (s.collHead lastG).ok = true
      ∧ (s.collHead lastG).poison = false ∧ (s.collHead lastG).data = d ∧ cqOk (s.group lastG) d = true ∧ s.cqMapped (s.group lastG) d = true
      ∧ cqWait d = false ∧ (s.group lastG).class1 = false ∧ (s.group lastG).staging = [] ∧ (s.group lastG).ready = []
      ∧ (s.rings (s.group lastG)).map (·.n) = [1] ∧ liveB s (cqDst d) 4 = true
      ∧ ((nx (.allreduce lastG) s).group lastG).op.map (·.status) = some (some 0)
      ∧ (nx (.allreduce lastG) s).bytesAt 0x160000 4 = [0, 0, 0x80, 0x3F]
      ∧ (s.rings (s.group lastG)).map (fun x => (wireFmt (s.group lastG) d x.level).same (cqOut d)) = [true] := by decide +kernel

/-- Its level codes in BF16: the third byte of the mantissa is rounded away. -/
theorem wit_CollectivesOfOneMember_coded :
    let d := collReq 1 []
    let s := ((grouped [(136, 4, 1), (64, 2, 2)]).putBytes 0x120000 d).putBytes 0x150000 [1, 0, 0x80, 0x3F]
    s.collReady lastG (s.collHead lastG) = true ∧ cqOk (s.group lastG) d = true ∧ s.cqMapped (s.group lastG) d = true
      ∧ (s.rings (s.group lastG)).map (fun x => (x.n, x.level)) = [(1, 0)] ∧ (wireFmt (s.group lastG) d 0).same (cqOut d) = false
      ∧ ((nx (.allreduce lastG) s).group lastG).op.map (·.status) = some (some 0)
      ∧ (nx (.allreduce lastG) s).bytesAt 0x160000 4 = [0, 0, 0x80, 0x3F] := by decide +kernel

theorem wit_CollectivesStart_unread :
    (let s := grouped [(136, 4, 1), (40, 8, 0x6000_0000_0000)]
     s.collReady lastG (s.collHead lastG) = true ∧ (s.collHead lastG).ok = false
       ∧ ((nx (.allreduce lastG) s).group lastG).op.map (·.status) = some (some 2))
    ∧ (let s := (grouped [(136, 4, 1)]).memWrite 0x120000 (collReq 1 []) true
       s.collReady lastG (s.collHead lastG) = true ∧ (s.collHead lastG).ok = true ∧ (s.collHead lastG).poison = true
         ∧ ((nx (.allreduce lastG) s).group lastG).op.map (·.status) = some (some 1)) := by decide +kernel

theorem wit_CollectivesOfOneMember :
    ∀ op ∈ [5, 7, 9],
      let d := collReq op []
      let s := calling d
      s.collReady lastG (s.collHead lastG) = true ∧ cqOk (s.group lastG) d = true ∧ s.cqMapped (s.group lastG) d = true
        ∧ (s.group lastG).n = 1 ∧ (s.group lastG).rank = 0 ∧ liveB s (cqSrc d) 4 = true ∧ liveB s (cqDst d) 4 = true
        ∧ (nx (collOf lastG op) s).bytesAt 0x160000 4 = [0, 0, 0x80, 0x3F]
        ∧ ((nx (collOf lastG op) s).group lastG).op.map (·.status) = some (some 0) := by decide +kernel

/-- The other starts: the head request is taken and the operation runs. -/
theorem wit_CollectivesStart_each :
    (∀ op ∈ [2, 4, 6, 8, 10],
      let d := collReq op [(32, 8, if op % 2 = 0 && op != 2 && op != 4 then 0x170000 else 0)]
      let s := calling d
      s.collReady lastG (s.collHead lastG) = true ∧ cqOk (s.group lastG) d = true ∧ s.cqMapped (s.group lastG) d = true)
    ∧ (let d := collReq 3 [(8, 8, 0x160000)]
       cqOk ((calling d).group lastG) d = true ∧ ((nx (.allgather lastG) (calling d)).group lastG).sqHead = 1) := by decide +kernel

/-- A group of two members, and a chunk or count from the other, the next of its connection, for the operation to come. -/
def two (r : GroupRun) (p : Packet) (fs : List (Nat × Nat × Nat) := []) : State :=
  { grouped ([(8, 4, 2), (152, 4, 255)] ++ fs) r with arrived := [(1, p)] }
def fromOther (kind seq : Nat) : Packet :=
  { vc := 4, ovc := 4, dst := 0, src := 0, tag := 7, tkind := kind, rmode := 0, dq := 4095 + 3 * 2 ^ 12 + seq * 2 ^ 16, sq := 1 }

theorem wit_CollectivePacketsLand :
    (let p := fromOther 16 0
     let s := two {} p
     s.chunkWaits 1 = false ∧ (s.takeArrived 1 [16]).map (·.1) = some p ∧ bits p.dq 12 4 = (s.group lastG).epoch ∧ p.tag = (s.group lastG).fld 2 2 ∧ 1 < (s.group lastG).n
       ∧ p.psn = s.connN (s.group lastG) 1 16 4 ∧ (bits p.dq 16 8 + 256 - (s.group lastG).opseq % 256) % 256 = 1
       ∧ liveB s ((s.group lastG).conn 1 16) 4 = true ∧ ((nx (.chunk 1) s).group lastG).staging.map (·.source) = [1]
       ∧ (nx (.chunk 1) s).byteAt (0x110000 + 64 + 16) = 1 ∧ (nx (.chunk 1) s).arrived = [] ∧ (((nx (.chunk 1) s).group lastG).link 1).unacked = 1)
    ∧ (let p := { fromOther 16 0 with last := true, payload := [1, 2, 3, 4] }
       let first : Staged := { source := 1, pkt := { fromOther 16 0 with payload := [9] }, poison := false, addr := 0x140000 }
       let s := two { staging := [first] } p
       let t := nx (.chunk 1) s
       (s.group lastG).stagePlace 0 4 = 0x140001 ∧ liveB s 0x140001 4 = true ∧ s.chunkWaits 1 = false ∧ t.bytesAt 0x140001 4 = [1, 2, 3, 4]
         ∧ (t.group lastG).staging.map (·.addr) = [0x140000, 0x140001] ∧ t.arrived.map (fun e => (e.2.tkind, e.2.psn)) = [(17, 1)]
         ∧ ((two {} p).group lastG).stagePlace 0 4 = 0x140000)
    ∧ (let s := two {} (fromOther 19 0)
       ((nx (.cCount 1) s).group lastG).staging.map (·.source) = [1])
    ∧ (let p := { fromOther 16 0 with dq := 4095 + 4 * 2 ^ 12 }
       bits p.dq 12 4 ≠ ((two {} p).group lastG).epoch ∧ (nx (.chunk 1) (two {} p)).fldAt (.collective 1) 0x060 0 32 = 1)
    ∧ (let s := two {} (fromOther 19 0) [(0, 1, 4)]
       (s.group (4095 : Nat)).state ≠ 2 ∧ (nx (.cCount 1) s).fldAt (.collective 1) 0x060 0 32 = 1) := by decide +kernel

/-- The last step of an ALLREDUCE awaits its one element, number 3: what DST holds is 1.0, what arrives is 2.0. -/
def lastStep : CollStep := { level := 0, phase := 0, step := 1, path := 0, toRank := none, frRank := some 1, send := [], recv := [(3, 1)] }
def reducing : CollOp := { index := 0, request := collReq 1 [(24, 4, 4)], start := 0, seq := 255, steps := [lastStep], awaiting := [(3, 1)] }
def element : Packet := { fromOther 16 255 with addr := 3, step := 1, payload := [0, 0, 0, 0x40] }
def reduction : State := (two { op := some reducing } element).putBytes (0x160000 + 12) [0, 0, 0x80, 0x3F]

theorem wit_ChunkReduces :
    let p := element
    let o := reducing
    let s := reduction
    let f := wireFmt (s.group lastG) o.request 0
    p.psn = s.connN (s.group lastG) 1 16 4 ∧ bits p.dq 16 8 = (s.group lastG).opseq % 256
      ∧ inStep o lastStep { source := 1, pkt := p, poison := false } = true ∧ (cqOut o.request).size = 4
      ∧ (decodeElems f (cqOut o.request) ((s.group lastG).lvlBlock 0) p.payload).1 = [0x4000_0000]
      ∧ payloadElems f ((s.group lastG).lvlBlock 0) p.payload = 1 ∧ liveB s (0x160000 + 12) 4 = true ∧ liveB s ((s.group lastG).conn 1 0) 64 = true
      ∧ s.linePoison (0x160000 + 12) 4 = false ∧ s.chunkWaits 1 = false ∧ (nx (.chunk 1) s).bytesAt (0x160000 + 12) 4 = [0, 0, 0x40, 0x40]
      ∧ (s.group lastG).stagePlace 0 4 = 0x140000 ∧ liveB s 0x140000 4 = true
      ∧ ((nx (.chunk 1) s).group lastG).op.map (·.status) = some (some 0) := by decide +kernel

theorem wit_CollectiveAnswersAndEnd :
    (let p := { fromOther 17 0 with psn := 1 }
     let s := (two { inFlight := [(1, { element with psn := 0 }), (1, { element with psn := 1 })], conns := [(1, { retries := 3 })] } p).putBytes (0x110000 + 64 + 8) [2]
     (s.group lastG).ready = [] ∧ (s.group lastG).op = none ∧ diff32 p.psn (s.connN (s.group lastG) 1 12 4) ≠ 0
       ∧ diff32 p.psn (s.connN (s.group lastG) 1 12 4) ≤ diff32 (s.connN (s.group lastG) 1 8 4) (s.connN (s.group lastG) 1 12 4)
       ∧ liveB s ((s.group lastG).conn 1 12) 4 = true
       ∧ ((nx (.cAck 1) s).group lastG).inFlight.map (·.2.psn) = [1] ∧ (nx (.cAck 1) s).byteAt (0x110000 + 64 + 12) = 1
       ∧ (((nx (.cAck 1) s).group lastG).link 1).retries = 0)
    ∧ (let p := { fromOther 18 0 with addr := 2 ^ 63 - 1 }
       let s := two {} p
       diff64 p.addr (s.connN (s.group lastG) 1 24 8) < 2 ^ 63 ∧ liveB s ((s.group lastG).conn 1 24) 8 = true
         ∧ (nx (.cGrant 1) s).byteAt (0x110000 + 64 + 31) = 0x7F)
    ∧ (let p := { fromOther 18 0 with addr := 2 ^ 63 }
       let s := two {} p
       2 ^ 63 ≤ diff64 p.addr (s.connN (s.group lastG) 1 24 8) ∧ (nx (.cGrant 1) s).byteAt (0x110000 + 64 + 31) = 0
         ∧ (let u := s.putBytes (0x110000 + 64 + 24) [0, 0, 0, 0, 0, 0, 0, 0x80]
            diff64 0 (u.connN (u.group lastG) 1 24 8) = 2 ^ 63))
    ∧ (let o : CollOp := { reducing with steps := [], status := some 7, void := 8, stamp := 9 }
       let s := grouped [(144, 4, 16)] { op := some o }
       let t := nx (.collectiveComplete lastG) s
       s.recordWaits lastG = false ∧ liveB s 0x130000 32 = true ∧ 0x130000 ≥ s.grpAddr lastG + 256 ∧ t.byteAt 0x130000 = 7 ∧ t.byteAt 0x130001 = 8
         ∧ bits (t.byteAt 0x130002).toNat 1 1 = 1 ∧ (t.group lastG).state = 3 ∧ (t.group lastG).cqTail = 17) := by decide +kernel

/-! ## Berths, bells and commands -/

theorem wit_ComposeWritten :
    (State.reset.composed (senderCode pilot0)).length = 64
      ∧ byteFld ((nx (.postCompose pilot0 255 6 (2 ^ 64 - 1)) State.reset).composed 0) 48 8 = 2 ^ 64 - 1 := by decide +kernel

/-- A message of a kind, with a reply asked for in berth 71 or not, and a berth that holds some of it. -/
def plainMsg (kind reply : Nat) : List Byte := bytesOf 64 [(0, 1, kind), (4, 2, reply), (8, 4, 77)]
def holdingMsgs (b : Nat) (n : Nat) (owner : Nat := 319) (clearing : Bool := false) : State :=
  { State.reset with power := { State.reset.power with porN := true } }.setBerth b { owner := owner, enable := true, clearing := clearing, msgs := List.replicate n (plainMsg 0 0x8047) }

theorem wit_BerthPosts :
    (let s := holdingMsgs 71 7
     let t := nx (.post pilot0 71 (.whole (plainMsg 2 0))) s
     byteFld (s.completeMsg 0 (.whole (plainMsg 2 0))) 0 1 < 3 ∧ s.ownerLive 319 = true ∧ (s.berth 71).msgs.length < 8
       ∧ (t.berth 71).msgs.length = 8 ∧ (t.hart 319).berthIrq = true)
    ∧ (let s := holdingMsgs 71 8
       8 ≤ (s.berth 71).msgs.length ∧ ((nx (.post pilot0 71 (.word 0)) s).berth 71).rejected = 1
         ∧ (nx (.post pilot0 71 (.word 0)) s).answer.status = 1)
    ∧ (3 ≤ byteFld (State.reset.completeMsg 0 (.whole (plainMsg 3 0))) 0 1 ∧ ((nx (.post pilot0 71 (.whole (plainMsg 3 0))) State.reset).berth 71).rejected = 1)
    ∧ (let s := holdingMsgs 200 8 255
       s.ownerLive 255 = false ∧ (nx (.post pilot0 200 (.whole (plainMsg 0 0x8001))) s).discards.map (·.owner) = [255]
         ∧ ((nx (.post pilot0 200 (.whole (plainMsg 0 0x8001))) s).berth 200).msgs.length = 8)
    ∧ (let other : Sender := { endpoint := 320, vc0 := true }
       let m := plainMsg 3 0
       isNotice (senderCode other) ((holdingMsgs 71 7).completeMsg (senderCode other) (.whole m)) = true
         ∧ ((nx (.post other 71 (.whole m)) (holdingMsgs 71 7)).berth 71).msgs.length = 8
         ∧ ((nx (.post other 71 (.whole m)) (holdingMsgs 71 8)).berth 71).noticeLost = true
         ∧ ((nx (.post other 71 (.whole m)) (holdingMsgs 71 8)).berth 71).rejected = 0
         ∧ ((nx (.post other 200 (.whole m)) (holdingMsgs 200 8 255)).berth 200).discarded = 1) := by decide +kernel

theorem wit_BerthTakesAndClears :
    (let s := holdingMsgs 71 1
     s.ownsBerth 71 { endpoint := 319 } = true ∧ ((nx (.bTake { endpoint := 319 } 71) s).berth 71).msgs = []
       ∧ State.reset.ownsBerth 71 { endpoint := 319 } = true ∧ (State.reset.berth 71).msgs = []
       ∧ s.ownsBerth 71 pilot0 = false ∧ (nx (.bTake pilot0 71) s).answer.status = 1)
    ∧ (let s := holdingMsgs 71 2 319 true
       (s.berth 71).clearing = true ∧ (s.berth 71).discarded < 2 ^ 16 ∧ (nx (.berthClear 71) s).discards.length = 2
         ∧ ((nx (.berthClear 71) s).berth 71).discarded = 2 ∧ (State.reset.berth 71).clearing = false) := by decide +kernel

/-- The notice of a message that asked for its reply in berth 71. -/
def noticing (n : Nat) : State :=
  { holdingMsgs 71 n with discards := [{ berth := 200, owner := 255, cause := 1, tide := 9, msg := plainMsg 0 0x8047 }] }

theorem wit_AbortNotices :
    bits (byteFld (plainMsg 0 0x8047) 4 2) 8 3 = State.reset.trayPos ∧ (plainMsg 0 0x8047).length = 64
      ∧ bits (byteFld (plainMsg 0 0x8047) 4 2) 0 8 = 71 ∧ ((noticing 7).berth 71).msgs.length < 8 ∧ (noticing 7).ownerLive 319 = true
      ∧ ((nx .aborted (noticing 7)).berth 71).msgs.map (fun m => byteFld m 0 1) = [0, 0, 0, 0, 0, 0, 0, 3]
      ∧ 8 ≤ ((noticing 8).berth 71).msgs.length ∧ ((nx .aborted (noticing 8)).berth 71).noticeLost = true := by decide +kernel

/-- A node whose bridge is one of its tray; port 15 UP. -/
def bridged (node : Nat) : State :=
  let s := ((State.reset.putN .harbour 0x08 (8 + node)).putN .harbour 0x10 0x1000).putN (.port 15) 0x008 2
  (s.putFld .routeTable 24 32 32 (2 ^ 27 + 2 ^ 5)).putN (.port 5) 0x008 2

theorem wit_BellsRing :
    (nx (.orBellWrite 319 5) State.reset).bell 319 = 5 ∧ ((nx (.orBellWrite 319 5) State.reset).hart 319).bellIrq = true
      ∧ (nx (.bellRead 319) (nx (.orBellWrite 319 5) State.reset)).bell 319 = 0
      ∧ State.reset.bridgeSet = false ∧ (nx (.hostBellWrite 63 5) State.reset).fldAt .router 0x048 0 32 = 1
      ∧ (bridged 0).bridgeSet = true ∧ (bridged 0).bridgeNode = (bridged 0).trayPos ∧ (bridged 0).portUp 15 = true
      ∧ ((nx (.hostBellWrite 63 5) (bridged 0)).port 15).egress.map (·.pkt.addr) = [0x1000 + 504]
      ∧ (bridged 7).bridgeNode ≠ (bridged 7).trayPos ∧ bit ((bridged 7).reg (.quay 0) 0x038) 7 = false ∧ (bridged 7).bridgeNode < 8 := by decide +kernel

theorem wit_BellsRing_route : (bridged 7).trayRoute 7 = some 5 :=
  State.trayRoute_one (by decide +kernel) (by decide +kernel)

/-- A command of the host, its reply due in berth 71; the harbourmaster's firmware runs and the command stands in berth 1. -/
def command (op : Nat) (fs : List (Nat × Nat × Nat)) : List Byte :=
  bytesOf 64 ([(0, 1, 1), (2, 2, op), (4, 2, 0x8047), (6, 2, 0x1141), (8, 4, 77)] ++ fs)
def ordered (s : State) (m : List Byte) : State := ({ s with power := { s.power with porN := true } }.putBit .harbour 0x00 0 true).setBerth 1 { berthReset 1 with msgs := [m] }
def orders (op : Nat) (fs : List (Nat × Nat × Nat)) (s : State := State.reset) : State := ordered s (command op fs)

/-- The command at the head of berth 1 may be performed now. -/
def atHeadB (s : State) (op : Nat) (m : List Byte) : Bool :=
  decide ((s.berth 1).msgs = [m]) && s.takesFrom 1 && s.turnOf 1 && byteFld m 0 1 == 1 && cmOpcode m == op
    && (hmOpcodes.any fun e => e.1 == op && e.2 &&& fromClass (cmSender m) != 0) && (!s.inRecovery) && (!s.limited) && decide ((s.image 0).trial = none)

theorem atHead_of_atHeadB {s : State} {op : Nat} {m : List Byte} (h : atHeadB s op m = true) : AtHead s 1 op m := by
  simp only [atHeadB, Bool.and_eq_true, decide_eq_true_eq, beq_iff_eq, List.any_eq_true, bne_iff_ne, Bool.not_eq_true'] at h
  obtain ⟨⟨⟨⟨⟨⟨⟨⟨a, b⟩, c⟩, d⟩, e⟩, f⟩, g⟩, i⟩, j⟩ := h
  exact ⟨⟨[], a⟩, b, c, d, e, f, fun x => by simp_all, fun x => by simp_all, j⟩

/-- What the reply in berth 71 says: opcode, tag and result. -/
def answered (t : State) : List (Nat × Nat × Nat) := (t.berth 71).msgs.map fun r => (byteFld r 2 2, byteFld r 8 4, byteFld r 12 1)

theorem wit_CommandsTaken :
    (let m := command 0x0002 []
     let s := orders 0x0002 []
     atHeadB s 0x0002 m = true ∧ argsZero m [] = true ∧ m.length = 64 ∧ (cmReply m).testBit 15 = true ∧ bits (cmReply m) 8 3 = s.trayPos
       ∧ bits (cmReply m) 0 8 = 71 ∧ ((taken s 1).berth 71).enable = true ∧ ((taken s 1).berth 71).msgs.length < 8
       ∧ s.ownerLive ((taken s 1).berth 71).owner = true ∧ ((taken s 1).berth 71).clearing = false ∧ answered (nx (.nop 1) s) = [(2, 77, 0)])
    ∧ (let m := setByteFld (command 0x0002 []) 4 2 71
       atHeadB (ordered State.reset m) 0x0002 m = true ∧ (cmReply m).testBit 15 = false ∧ answered (nx (.nop 1) (ordered State.reset m)) = [])
    ∧ (let m := setByteFld (command 0x0002 []) 0 1 2
       byteFld m 0 1 ≠ 1 ∧ ((nx (.nop 1) (ordered State.reset m)).berth 1).msgs = [])
    ∧ ((∀ e ∈ hmOpcodes, e.1 ≠ 0x0003) ∧ answered (nx (.nop 1) (orders 0x0003 [])) = [(3, 77, 2)])
    ∧ (let m := setByteFld (command 0x00A0 []) 6 2 256
       cmOpcode m = 0x00A0 ∧ fromClass (cmSender m) ≠ 1 ∧ answered (nx (.setNgi 1) (ordered State.reset m)) = [(0x00A0, 77, 5)])
    ∧ (let s := (orders 0x0010 []).putBit .harbour 0x00 2 true
       fromClass (cmSender (command 0x0010 [])) = 1 ∧ s.limited = true ∧ answered (nx (.setPowerMode 1) s) = [(0x0010, 77, 8)])
    ∧ State.reset.takesFrom 1 = false := by decide +kernel

theorem wit_CommandsThatRead :
    atHeadB (orders 0x0001 []) 0x0001 (command 0x0001 []) = true ∧ argsZero (command 0x0001 []) [] = true
      ∧ answered (nx (.queryVersion 1) (orders 0x0001 [])) = [(1, 77, 0)]
      ∧ (∀ off ∈ [0x3FF_FFF8, 0x400_0000],
          let fs := [(16, 1, 6), (17, 1, 1), (24, 8, off)]
          atHeadB (orders 0x0040 fs) 0x0040 (command 0x0040 fs) = true ∧ argsZero (command 0x0040 fs) [(16, 2), (24, 8)] = true
            ∧ byteFld (command 0x0040 fs) 24 8 = off
            ∧ answered (nx (.regRead 1) (orders 0x0040 fs)) = [(0x40, 77, if off = 0x400_0000 then 0x0A else 0)])
      ∧ ∀ d ∈ [467, 468],
          let fs := [(16, 2, d)]
          atHeadB (orders 0x0090 fs) 0x0090 (command 0x0090 fs) = true ∧ argsZero (command 0x0090 fs) [(16, 2)] = true
            ∧ byteFld (command 0x0090 fs) 16 2 = d
            ∧ answered (nx (.faultStatus 1) (orders 0x0090 fs)) = [(0x90, 77, if d = 468 then 3 else 0)] := by decide +kernel

theorem wit_CommandsThatSet :
    (let fs := [(16, 1, 6), (17, 1, 1), (24, 8, 0), (32, 8, 5)]
     atHeadB (orders 0x0041 fs) 0x0041 (command 0x0041 fs) = true ∧ argsZero (command 0x0041 fs) [(16, 2), (24, 8), (32, 8)] = true
       ∧ answered (nx (.regWrite 1) (orders 0x0041 fs)) = [(0x41, 77, 0)])
    ∧ (∀ owner ∈ [322, 511],
        let fs := [(16, 1, 255), (18, 2, owner), (20, 1, 1)]
        let s := orders 0x0050 fs
        atHeadB s 0x0050 (command 0x0050 fs) = true ∧ argsZero (command 0x0050 fs) [(16, 1), (18, 3)] = true ∧ ((taken s 1).berth 255).msgs = []
          ∧ ((nx (.berthAssign 1) s).berth 255).owner = owner)
    ∧ (let fs := [(16, 1, 200), (18, 2, 5)]
       ((taken (orders 0x0050 fs (holdingMsgs 200 1)) 1).berth 200).msgs ≠ [] ∧ answered (nx (.berthAssign 1) (orders 0x0050 fs (holdingMsgs 200 1))) = [(0x50, 77, 4)])
    ∧ (let fs := [(16, 1, 7), (24, 8, 64)]
       atHeadB (orders 0x0051 fs) 0x0051 (command 0x0051 fs) = true ∧ argsZero (command 0x0051 fs) [(16, 1), (24, 8)] = true
         ∧ (nx (.hostNotify 1) (orders 0x0051 fs)).bridgeNode = 7)
    ∧ (let fs := [(16, 1, 15), (17, 1, 1)]
       let s := orders 0x0012 fs (portAs 15 0 allLanes)
       atHeadB s 0x0012 (command 0x0012 fs) = true ∧ (s.committed 15).mayTrain 15 = true ∧ captured s (.port 15) = [] ∧ (s.port 15).egress = []
         ∧ (nx (.setFec 1) s).bitAt (.port 15) 0x000 1 = true
         ∧ ((orders 0x0012 fs (portAs 15 0 0)).committed 15).mayTrain 15 = false ∧ answered (nx (.setFec 1) (orders 0x0012 fs (portAs 15 0 0))) = [(0x12, 77, 4)])
    ∧ (let fs := [(16, 1, 191), (17, 1, 1)]
       let s := orders 0x0031 fs (channelIn 0)
       s.chState 191 ≤ 1 ∧ answered (nx (.chIsolate 1) s) = [(0x31, 77, 4)]) := by decide +kernel

theorem wit_CommandsThatSet_rest :
    (let lost := State.reset.putFld (groupOf 191) (chOff 191 0x100) 0 2 3
     let fs := [(16, 1, 191), (17, 1, 1)]
     atHeadB (orders 0x0031 fs lost) 0x0031 (command 0x0031 fs) = true ∧ argsZero (command 0x0031 fs) [(16, 2)] = true
       ∧ (orders 0x0031 fs lost).chState 191 = 3 ∧ (lost.channel 191).recover = false ∧ (nx (.chIsolate 1) (orders 0x0031 fs lost)).chState 191 = 2
       ∧ (let iso := State.reset.putFld (groupOf 191) (chOff 191 0x100) 0 2 2
          (orders 0x0031 [(16, 1, 191)] iso).chState 191 = 2 ∧ (nx (.chIsolate 1) (orders 0x0031 [(16, 1, 191)] iso)).chState 191 = 3))
    ∧ (∀ st ∈ [0, 1, 2, 3],
        let fs := [(16, 2, 466)]
        let s := orders 0x0091 fs (State.reset.setDomState 466 st)
        atHeadB s 0x0091 (command 0x0091 fs) = true ∧ argsZero (command 0x0091 fs) [(16, 2)] = true ∧ s.domainState 466 = st
          ∧ answered (nx (.faultRelease 1) s) = [(0x91, 77, if st % 2 = 1 then 0 else 4)]
          ∧ (st % 2 = 1 → (nx (.faultRelease 1) s).domainState 466 = 2))
    ∧ (let fs := [(16, 4, 2 ^ 18 - 1)]
       let s := orders 0x00A0 fs
       atHeadB s 0x00A0 (command 0x00A0 fs) = true ∧ argsZero (command 0x00A0 fs) [(16, 4)] = true ∧ s.quays = [] ∧ s.groups = [] ∧ s.tray = []
         ∧ (∀ p : Fin 16, captured s (.port p) = []) ∧ (nx (.setNgi 1) s).regN .router 0x010 = 2 ^ 18 - 1
         ∧ ((owning []).quayQueue lastQ).state ≠ 0 ∧ answered (nx (.setNgi 1) (orders 0x00A0 fs (owning []))) = [(0x00A0, 77, 4)]) := by decide +kernel

theorem wit_CommandsForAMark :
    (∀ v ∈ [2, 3],
      let fs := [(16, 1, v), (17, 1, 1)]
      let s := orders 0x0010 fs
      atHeadB s 0x0010 (command 0x0010 fs) = true ∧ argsZero (command 0x0010 fs) [(16, 2), (24, 8)] = true ∧ s.safe = false
        ∧ (taken s 1).brakeBlocks 2 = false ∧ answered (nx (.setPowerMode 1) s) = [(0x10, 77, if v = 3 then 3 else 0)]
        ∧ (v = 2 → (nx (.setPowerMode 1) s).harbour.modes.map (·.value) = [2]))
    ∧ (let fs := [(16, 1, 2)]
       let s := orders 0x0010 fs { State.reset with work := [work0] }
       (taken s 1).brakeBlocks 2 = false ∧ (taken s 1).modeRefused 2 ((taken s 1).cmdMark (command 0x0010 fs)) none = true
         ∧ answered (nx (.setPowerMode 1) s) = [(0x10, 77, 6)])
    ∧ (let s := (orders 0x0010 []).putBit .hub 0x000 0 true
       s.safe = true ∧ answered (nx (.setPowerMode 1) s) = [(0x10, 77, 7)])
    ∧ (∀ v ∈ [1, 3],
        let fs := [(16, 1, v)]
        let s := orders 0x0011 fs
        atHeadB s 0x0011 (command 0x0011 fs) = true ∧ argsZero (command 0x0011 fs) [(16, 1), (24, 8)] = true ∧ s.work = [] ∧ s.ckpt = none
          ∧ (nx (.setSleep 1) s).harbour.sleeps.map (·.value) = [v] ∧ answered (nx (.setSleep 1) s) = (if v = 1 then [(0x11, 77, 0)] else []))
    ∧ (let s := orders 0x0011 [(16, 1, 2)] { State.reset with work := [work0] }
       s.work ≠ [] ∧ answered (nx (.setSleep 1) s) = [(0x11, 77, 7)]) := by decide +kernel

theorem wit_CommandsForAMark_rest :
    (∀ v ∈ [0, 1],
      let fs := [(16, 1, 191), (24, 8, 100_000)]
      let s := orders 0x0030 fs (channelIn v)
      atHeadB s 0x0030 (command 0x0030 fs) = true ∧ argsZero (command 0x0030 fs) [(16, 2), (24, 8)] = true ∧ s.domainState 447 = 0
        ∧ (taken s 1).otherHeld 191 100_000 = false ∧ s.harbour.retrains = [] ∧ (taken s 1).workAfter 100_000 = false ∧ s.harbour.activations = []
        ∧ (v = 0 → s.chState (191 : Fin 192) = 0 → (nx (.chRetrain 1) s).harbour.retrains.map (·.value) = [191]))
    ∧ (let s := orders 0x0030 [(16, 1, 191)] (State.reset.putFld (groupOf 191) (chOff 191 0x100) 0 2 2)
       s.chState 191 ≠ 0 ∧ answered (nx (.chRetrain 1) s) = [(0x30, 77, 6)]) := by decide +kernel

theorem wit_CoreCommands :
    (∀ req ∈ [1, 2, 3], ∀ st ∈ [0, 1, 2],
      let fs := [(47, 1, 0x80), (48, 1, req)]
      let s := orders 0x0020 fs (State.reset.putN (.core 255) 0x008 st)
      atHeadB s 0x0020 (command 0x0020 fs) = true ∧ argsZero (command 0x0020 fs) [(16, 33)] = true ∧ maskCores (command 0x0020 fs) = [255]
        ∧ s.coreState 255 = st
        ∧ (nx (.coreState 1) s).coreState 255
            = (if req = 3 then (if st = 2 then 0 else st) else if req = 1 then (if st = 0 then 1 else st) else 2)
        ∧ answered (nx (.coreState 1) s) = [(0x20, 77, 0)])
    ∧ (let fs := [(47, 1, 0x80), (48, 8, hbmEnd - 4), (56, 4, 4), (60, 4, 2 ^ 22 - 1)]
       let s := orders 0x0021 fs (State.reset.putByte (hbmEnd - 1) 9)
       atHeadB s 0x0021 (command 0x0021 fs) = true ∧ argsZero (command 0x0021 fs) [(16, 48)] = true ∧ maskCores (command 0x0021 fs) = [255]
         ∧ s.coreState 255 = 2 ∧ s.domainState 255 ≠ 2 ∧ liveB s (hbmEnd - 4) 4 = true
         ∧ (nx (.coreLoad 1) s).byteAt (wellBase 255 + 0x2C_0003) = 9 ∧ (nx (.coreLoad 1) s).regN (.core 255) 0x018 = 2 ^ 22 - 1
         ∧ answered (nx (.coreLoad 1) (s.putN (.core 255) 0x008 0)) = [(0x21, 77, 4)]) := by decide +kernel

/-- A status word at 0x50000 is clear. -/
def startsB (u : State) (m : List Byte) (a : Nat) : Bool :=
  decide (m.length = 64) && u.statusOk a && decide (u.longAt a = none) && !u.longBusy m && decide (u.harbour.longOps.length < 16) && liveB u a 64

theorem mayStart_of_startsB {u : State} {m : List Byte} {a : Nat} (h : startsB u m a = true) : MayStart u m a := by
  simp only [startsB, Bool.and_eq_true, decide_eq_true_eq, Bool.not_eq_true'] at h
  obtain ⟨⟨⟨⟨⟨a, b⟩, c⟩, d⟩, e⟩, f⟩ := h
  exact ⟨a, b, c, d, e, (live_of_liveB f).2⟩

def running16 (n op : Nat) : State :=
  { State.reset with harbour := { longOps := List.replicate n { msg := command op [], opcode := op, status := 0x60000, done := 0, total := 9, start := 0 } } }

theorem wit_LongCommands :
    (let fs := [(16, 1, 6), (32, 8, hbmEnd - 8), (40, 4, 8), (48, 8, 0x50000)]
     let m := command 0x0042 fs
     let s := orders 0x0042 fs
     atHeadB s 0x0042 m = true ∧ argsZero m [(16, 1), (24, 20), (48, 8)] = true ∧ startsB (taken s 1) m 0x50000 = true
       ∧ (nx (.regCopy 1) s).byteAt 0x5000A = 1 ∧ answered (nx (.regCopy 1) s) = [(0x42, 77, 1)]
       ∧ (taken (s.putByte 0x50000 1) 1).statusOk 0x50000 = false ∧ answered (nx (.regCopy 1) (s.putByte 0x50000 1)) = [(0x42, 77, 3)]
       ∧ (taken (orders 0x0042 fs (running16 4 0x42)) 1).longBusy m = true ∧ answered (nx (.regCopy 1) (orders 0x0042 fs (running16 4 0x42))) = [(0x42, 77, 7)]
       ∧ (taken (orders 0x0042 fs (running16 16 0x32)) 1).longBusy m = false
       ∧ answered (nx (.regCopy 1) (orders 0x0042 fs (running16 16 0x32))) = [(0x42, 77, 9)])
    ∧ (let fs := [(16, 1, 3), (17, 1, 0xFF), (24, 8, 0x70000), (32, 4, 4), (40, 8, 0x50000)]
       let m := command 0x0070 fs
       let s := orders 0x0070 fs
       atHeadB s 0x0070 m = true ∧ argsZero m [(16, 2), (24, 12), (40, 8)] = true ∧ namedImages m ≠ [] ∧ s.inRecovery = false
         ∧ (taken s 1).kindPending 3 = false ∧ startsB (taken s 1) m 0x50000 = true ∧ answered (nx (.fwStage 1) s) = [(0x70, 77, 1)])
    ∧ (let fs := [(16, 8, 0x70000), (24, 4, 0xF_FFFC), (28, 4, 4), (32, 8, 0x50000)]
       let m := command 0x0080 fs
       let s := orders 0x0080 fs
       atHeadB s 0x0080 m = true ∧ argsZero m [(16, 24)] = true ∧ (taken s 1).reachable 0x70000 4 = true ∧ startsB (taken s 1) m 0x50000 = true
         ∧ answered (nx (.lifetimeRead 1) s) = [(0x80, 77, 1)])
    ∧ (∀ st ∈ [1, 2],
        let fs := [(16, 1, 191), (24, 8, 0x50000)]
        let m := command 0x0032 fs
        let s := orders 0x0032 fs (State.reset.setDomState 447 st)
        atHeadB s 0x0032 m = true ∧ argsZero m [(16, 1), (24, 8)] = true ∧ s.domainState 447 = st ∧ startsB (taken s 1) m 0x50000 = true
          ∧ answered (nx (.chRecover 1) s) = [(0x32, 77, if st = 1 then 1 else 4)]) := by decide +kernel

/-- A plan at 0x1000: one segment of 16 FP32 codes at 0x10000, staged at 0x20000, with one EXPORT destination, a core of each CD. -/
def plan (restore : Bool) (fs : List (Nat × Nat × Nat) := []) : List Byte :=
  bytesOf 768 ([(0, 1, if restore then 2 else 1), (1, 1, 1), (2, 1, 1), (4, 2, 1), (12, 4, 1), (16, 4, 1), (24, 8, if restore then 0 else 0x20000),
    (64, 8, 1), (128, 1, 1), (136, 1, 1), (144, 1, 1), (152, 1, 1), (264, 8, 0x10000), (272, 8, 16), (512, 1, 3), (520, 8, 0x30000),
    (528, 8, 0x40000), (536, 8, 8512)] ++ fs)
def planned (restore : Bool) : State := State.reset.putBytes 0x1000 (plan restore)

theorem wit_LongCommands_checkpoint :
    (let fs := [(16, 8, 0x1000), (24, 8, 5), (32, 8, 0x50000)]
     let m := command 0x0060 fs
     let s := orders 0x0060 fs (planned false)
     atHeadB s 0x0060 m = true ∧ argsZero m [(16, 24)] = true ∧ (taken s 1).commandPlan 0x1000 false = some (plan false) ∧ s.ckpt = none
       ∧ startsB (taken s 1) m 0x50000 = true ∧ (nx (.checkpoint 1) s).ckpt.map (·.mark) = some 5 ∧ bodyBytes (plan false) = 320
       ∧ answered (nx (.checkpoint 1) { s with ckpt := some { planAt := 0, status := 0, mark := 0, step := 0 } }) = [(0x60, 77, 7)]
       ∧ (taken (orders 0x0060 fs) 1).commandPlan 0x1000 false = none ∧ answered (nx (.checkpoint 1) (orders 0x0060 fs)) = [(0x60, 77, 3)])
    ∧ (let fs := [(16, 8, 0x1000), (32, 8, 0x50000)]
       let m := command 0x0061 fs
       let s := orders 0x0061 fs (planned true)
       atHeadB s 0x0061 m = true ∧ argsZero m [(16, 8), (32, 8)] = true ∧ (taken s 1).commandPlan 0x1000 true = some (plan true)
         ∧ startsB (taken s 1) m 0x50000 = true
         ∧ answered (nx (.restore 1) { s with ckpt := some { planAt := 0, status := 0, mark := 0, step := 0 } }) = [(0x61, 77, 7)]) := by decide +kernel

/-- A LIFETIME_READ of 4 bytes to 0x70000 in progress, and a checkpoint's operation. -/
def longOp (op : Nat) (abort : Bool) : LongOp :=
  { msg := command op [(16, 8, 0x70000), (24, 4, 6)], opcode := op, status := 0x50000, done := 3, total := 4, start := 0, abort := abort }
def longing (op : Nat) (abort : Bool) : State :=
  { State.reset with power := { State.reset.power with porN := true }, harbour := { longOps := [longOp op abort] }, life := { nvm := [(9, 5)] } }

theorem wit_LongOperationsAndReplies :
    (let fs := [(16, 8, 0x50000)]
     let s := orders 0x00F0 fs (longing 0x80 false)
     atHeadB s 0x00F0 (command 0x00F0 fs) = true ∧ argsZero (command 0x00F0 fs) [(16, 8)] = true ∧ s.longAt 0x50000 = some (longOp 0x80 false)
       ∧ (nx (.abortOp 1) s).longAt 0x50000 = some (longOp 0x80 true) ∧ answered (nx (.abortOp 1) s) = [(0xF0, 77, 0)]
       ∧ (orders 0x00F0 fs).longAt 0x50000 = none ∧ answered (nx (.abortOp 1) (orders 0x00F0 fs)) = [(0xF0, 77, 3)])
    ∧ (let s := longing 0x61 false
       s.harbour.longOps[0]? = some (longOp 0x61 false) ∧ s.statusOk 0x50000 = true ∧ liveB s 0x50000 64 = true ∧ (longOp 0x61 false).msg.length = 64
         ∧ (nx (.statusWordUpdate 0) s).byteAt 0x50038 = 1)
    ∧ (let s := longing 0x80 true
       (nx (.statusWordUpdate 0) s).byteAt 0x5000A = 4 ∧ answered (nx (.statusWordUpdate 0) s) = [(0x80, 77, 0x0B)])
    ∧ (byteFld (longOp 0x80 false).msg 16 8 + 3 = 0x70003 ∧ liveB (longing 0x80 false) 0x70003 1 = true
       ∧ Tab.get 0 (longing 0x80 false).life.nvm (6 + 3) = 5) := by decide +kernel

/-- A reply that met a full berth 71 at tide 0, n messages standing there. -/
def retrying (n now : Nat) : State :=
  let s := (holdingMsgs 71 n).putN .tide 0x000 now
  { s with harbour := { replies := [{ node := 0, berth := 71, msg := plainMsg 2 0, since := 0, last := 0 }] } }

theorem wit_LongOperationsAndReplies_retry :
    (retrying 7 99_999).harbour.inReset = false ∧ (nx (.replyRetry 0) (retrying 7 99_999)).harbour.replies.length = 1
      ∧ (retrying 7 100_000).trayPos = 0 ∧ (retrying 7 100_000).ownerLive 319 = true
      ∧ ((nx (.replyRetry 0) (retrying 7 100_000)).berth 71).msgs.length = 8 ∧ (nx (.replyRetry 0) (retrying 7 100_000)).harbour.replies = []
      ∧ (retrying 8 100_000).ownerLive 319 = true ∧ (nx (.replyRetry 0) (retrying 8 100_000)).harbour.replies.map (·.last) = [100_000]
      ∧ (nx (.replyRetry 0) (retrying 8 10_000_000)).fldAt .harbour 0x00 48 16 = 1 := by decide +kernel

/-! ## Faults -/

/-- A report waits at the hub, its source not logged, its domain in a state. -/
def reporting (source : Nat) (domain : Option Nat) (st : Nat := 0) : State :=
  let s := ((State.reset.putN .tide 0x000 5_000).putBit .hub (0x1000 + 8 * source) 0 false).setDomState (domain.getD 0) st
  { s with reports := [{ source := source, domain := domain, detail := 0, tide := 4_000 }] }
def countedB (t : State) (source : Nat) : Bool := t.regN .hub (0x1400 + 8 * source) == 1 && t.reports.isEmpty

theorem wit_FaultReportActs :
    (∀ source ∈ [0x0A, 0x1D, 0x28], sourceClass source ≠ 3 ∧ (reporting source none).bitAt .hub (0x1000 + 8 * source) 0 = false
        ∧ countedB (nx .faultReport (reporting source none)) source = true)
    ∧ (∀ p ∈ [0, 15],
        let s := reporting 0x0A (some (448 + p))
        let t := nx .faultReport s
        s.domainState (448 + p) = 0 ∧ s.portState p = 0 ∧ countedB t 0x0A = true ∧ t.domainState (448 + p) = 1 ∧ (t.domain (448 + p)).quietFrom = 5_000)
    ∧ (∀ d ∈ [0, 465], ∀ st ∈ [1, 2, 3],
        let s := reporting 0x0A (some d) st
        let t := nx .faultReport s
        s.domainState d = st ∧ countedB t 0x0A = true ∧ t.domainState d = (if st = 1 then 1 else 3)) := by decide +kernel

theorem wit_FatalReportEntersSafe :
    (sourceClass 0x36 = 3 ∧ (reporting 0x36 none).bitAt .hub (0x1000 + 8 * 0x36) 0 = false ∧ (nx .faultReport (reporting 0x36 none)).safe = true)
    ∧ (sourceClass 0x0A = 2 ∧ (reporting 0x0A (some 255)).domainState 255 = 0 ∧ (reporting 0x0A (some 255)).bitAt .hub (0x1000 + 8 * 0x0A) 0 = false
        ∧ (nx .faultReport (reporting 0x0A (some 255))).coreState 255 = 3) := by decide +kernel

theorem wit_SourcesRaised :
    ({ State.reset with power := { State.reset.power with porN := true } } : State).power.porN = true
      ∧ State.reset.chState 191 < 2 ∧ (nx (.hbmPhy 191) State.reset).reports.map (·.source) = [0x06] ∧ (nx (.hbmPhy 191) State.reset).chState 191 = 3
      ∧ (nx (.coreUe 255) State.reset).reports.map (fun r => (r.source, r.domain)) = [(0x0A, some 255)] := by decide +kernel

theorem wit_ThermalSources :
    (13_500 ≤ (13_500 : BitVec 16).toNat ∧ (nx (.hbmHot 11 13_500) State.reset).reports.map (·.source) = [4]
      ∧ (nx (.hbmHot 11 13_500) State.reset).harbour.modes.map (·.mark) = [1_000] ∧ (nx (.hbmHot 11 13_499) State.reset).reports = [])
    ∧ ((nx (.hbmCrit 11 14_500) State.reset).reports.map (·.source) = [5] ∧ (nx (.dieHot 6 14_500) State.reset).reports.map (·.source) = [0x31]
      ∧ (nx (.dieCrit 6 15_500) State.reset).reports.map (·.source) = [0x32] ∧ (nx (.dieCrit 6 15_499) State.reset).reports = [])
    ∧ (let s := State.reset.setDomain 467 { open_ := [(0x32, 6)] }
       (15_000 : BitVec 16).toNat ≤ 15_000 ∧ (s.domain 467).open_.contains (0x32, 6) = true
         ∧ ((nx (.thermalClear 6 15_000) s).domain 467).open_ = [] ∧ ((nx (.thermalClear 6 15_001) s).domain 467).open_ = [(0x32, 6)]) := by decide +kernel

/-- A domain in a state. -/
def domainIn (d st : Nat) : State := State.reset.setDomState d st

theorem wit_DomainLife :
    (∀ d ∈ [0, 466],
        let s := (domainIn d 1).putN .tide 0x000 50_000_000
        s.quietOver d = true ∧ (domainIn d 1).quietOver d = false ∧ (nx (.quietPeriodEnd ⟨d % 468, by omega⟩) s).domainState d = 2)
    ∧ (∀ d ∈ [0, 465], (domainIn d 2).domainState d = 2 ∧ (domainIn d 2).domainState 467 = 0
        ∧ (nx (.selftestFail ⟨d % 468, by omega⟩) (domainIn d 2)).domainState d = 3)
    ∧ (let s := State.reset.setDomain 467 { open_ := [(0x33, 0), (0x36, 2)] }
       (0x36, 2) ∈ (s.domain 467).open_ ∧ (0x33, 0) ∈ (s.domain 467).open_ ∧ ((nx (.conditionClear 0x36) s).domain 467).open_ = [(0x33, 0)]
         ∧ ((nx (.conditionClear 0x33) s).domain 467).open_ = [(0x36, 2)]) := by decide +kernel

/-- A core in SELFTEST whose recoveries in its window, begun at 5 000, are counted. -/
def testedCore (c count limit now : Nat) : State :=
  let s := ((domainIn c 2).putFld .hub (fdOff c 0) 32 8 count).putFld .hub (fdOff c 8) 16 8 limit
  (((s.putFld .hub (fdOff c 8) 32 16 1).putN .hub (fdOff c 0x18) 5_000).putN .tide 0x000 now).putFld .hub (fdOff c 0) 16 16 0xFFFF

theorem wit_CoreSelftestPass :
    (∀ c ∈ [0, 255], ∀ e ∈ [(2, 3, 1_000_005_000, 3, 0), (3, 3, 1_000_005_000, 4, 3), (3, 3, 1_000_005_001, 1, 0), (0, 0, 5_000, 1, 3)],
      let s := testedCore c e.1 e.2.1 e.2.2.1
      let t := nx (.selftestPass ⟨c % 468, by omega⟩) s
      s.domainState c = 2 ∧ s.domainState 467 = 0 ∧ s.recLimit c = e.2.1
        ∧ decide (fld (s.reg .hub (fdOff c 0)) 32 8 = 0 ∨ s.windowS c * 1_000_000_000 < s.now - s.regN .hub (fdOff c 0x18)) = decide (e.2.2.2.1 = 1)
        ∧ t.fldAt .hub (fdOff c 0) 32 8 = e.2.2.2.1 ∧ t.fldAt .hub (fdOff c 0) 16 16 = 0xFFFF ∧ t.domainState c = e.2.2.2.2) := by decide +kernel

/-- Copy 0 of the record with SEQ 1, copy 1 empty. -/
def recorded : State := { State.reset with life := { nvm := [(0xC, 1)] } }

theorem wit_LifetimeRecord :
    State.reset.harbour.inReset = false ∧ State.reset.copySeq 0 ≤ State.reset.copySeq 1
      ∧ recorded.harbour.inReset = false ∧ recorded.copySeq 0 = 1 ∧ recorded.copySeq 1 = 0
      ∧ (nx (.sensorSample [0]) State.reset).lifeCount 0x1000 4 = 1 ∧ (nx (.energyIntegrate [3, 4]) State.reset).regN .hub 0x010 = 7 := by decide +kernel

/-! ## Checkpoints -/

/-- A checkpoint of the plan at 0x1000 runs under the harbourmaster's firmware, its status word at 0x50000. -/
def ckptOf (phase : Nat) : Checkpoint :=
  { plan := if phase = 0 then [] else plan false, planAt := 0x1000, status := 0x50000, mark := 5, phase := phase, step := 9 }
def checkpointed (k : Checkpoint) (now : Nat := 5) (s : State := planned false) : State :=
  let s := (s.putBit .harbour 0x00 0 true).putN .tide 0x000 now
  { s with ckpt := some k, harbour := { longOps := [{ msg := command 0x60 [], opcode := 0x60, status := 0x50000, done := 0, total := 640, start := 0 }] } }

/-- A committed record of the plan with a SEQ. -/
def record (seq : Nat) : List Byte := bytesOf 64 [(0, 4, 0x4D43_4B47), (4, 2, 1), (12, 4, seq), (20, 4, 1)]
/-- Generations 0 and 1 with the records of these SEQ, 0 for none. -/
def withRecords (a b : Nat) : State :=
  let s := if a = 0 then planned false else (planned false).putBytes 0x30000 (record a)
  if b = 0 then s else s.putBytes 0x40000 (record b)

/-- What may be seen of a checkpoint. -/
def seen (t : State) : List Nat :=
  match t.ckpt with
  | none => []
  | some k => [k.phase, k.cause, k.noMore.toNat] ++ k.dests.flatMap fun d => [d.gen, d.seq, d.shipped.toNat, d.committed.toNat]

theorem wit_CheckpointBegins :
    (ckptOf 0).phase = 0 ∧ (checkpointed (ckptOf 0) 4).hmRuns = true ∧ (checkpointed (ckptOf 0) 4).now < 5
      ∧ seen (nx .checkpointBegin (checkpointed (ckptOf 0) 4)) = [0, 0, 0]
      ∧ (checkpointed (ckptOf 0) 5 State.reset).commandPlan 0x1000 false = none
      ∧ liveB (checkpointed (ckptOf 0) 5 State.reset) 0x50000 64 = true ∧ ((checkpointed (ckptOf 0)).longAt 0x50000).isSome = true
      ∧ seen (nx .checkpointBegin (checkpointed (ckptOf 0) 5 State.reset)) = []
      ∧ (nx .checkpointBegin (checkpointed (ckptOf 0) 5 State.reset)).byteAt 0x5000A = 3 := by decide +kernel

theorem wit_CheckpointBegins_plan :
    let s := checkpointed (ckptOf 0) 5 (withRecords 7 8)
    (s.commandPlan 0x1000 false == some (plan false)) = true ∧ plDests (plan false) = 1 ∧ dsFld (plan false) 0 0 1 = 3
      ∧ dsGen (plan false) 0 0 = 0x30000 ∧ dsGen (plan false) 0 1 = 0x40000 ∧ plStage (plan false) = 0x20000 ∧ bodyBytes (plan false) = 320
      ∧ liveB s 0x30000 64 = true ∧ liveB s 0x40000 64 = true ∧ liveB s 0x20000 256 = true
      ∧ s.poisonIn 0x30000 64 = false ∧ s.poisonIn 0x40000 64 = false
      ∧ committedRec (plan false) (record 7) = true ∧ byteFld (record 7) 12 4 = 7 ∧ committedRec (plan false) (List.replicate 64 0) = false := by decide +kernel

/-- The generation and SEQ that a checkpoint takes where records with these SEQ stand. -/
def target (a b : Nat) : List Nat := seen (nx .checkpointBegin (checkpointed (ckptOf 0) 5 (withRecords a b)))

theorem wit_CheckpointBegins_first : target 0 0 = [2, 0, 0, 0, 1, 0, 0] := by decide +kernel
theorem wit_CheckpointBegins_older : target 8 7 = [2, 0, 0, 1, 9, 0, 0] := by decide +kernel

/-- FORM with a piece: waiting, in flight on core 0, or done; core 0 ONLINE. -/
def piece0 (core : Option Nat) (done : Bool) : Piece :=
  { segment := 0, first := 0, count := 16, chain := if core.isSome then 0x20140 else 0, core := core, done := done }
def formingK (x : Piece) : Checkpoint :=
  { ckptOf 2 with pieces := [x], formed := 256, dests := [{}] }
def forming (x : Piece) (word : Nat := 0) (now : Nat := 5) : State :=
  checkpointed (formingK x) now (((planned false).putN (.core 0) 0x008 0).putBytes 0x20180 (leBytes 8 word))

theorem wit_PiecesFormed :
    (plan false).length = 768 ∧ chainAt (plan false) 0 = 0x20140 ∧ (0x20140 % 64 = 0)
    ∧ (let s := forming (piece0 none false)
       s.hmRuns = true ∧ s.mayCarry (formingK (piece0 none false)) (piece0 none false) 0 = true ∧ s.coreState 0 = 0
         ∧ (s.queue 0 5).reserved = none ∧ (s.queue 0 5).chains.length < 4 ∧ liveB s 0x20140 72 = true
         ∧ ((s.longAt 0x50000).map (·.abort) = some false)
         ∧ ((nx (.formPieceEnter 0) s).queue 0 5).chains.map (·.addr) = [0x20140] ∧ seen (nx (.formPieceEnter 0) s) = seen s)
    ∧ (let s := forming (piece0 (some 0) false) 1
       s.memReadN (0x20140 + 64) 8 ≠ 0 ∧ (nx .formPoll s).ckpt.map (fun k => (k.formed, k.pieces.map (·.done))) = some (320, [true]))
    ∧ (let s := (forming (piece0 none false)).putN (.core 0) 0x008 2
       s.coreState 0 = 2 ∧ (∀ c : Fin 256, (s.coreState c == 0) = false) ∧ seen (nx .formPoll s) = [2, 2, 1, 0, 1, 0, 0]) := by decide +kernel

/-- A plan with a FORM_LIMIT of 100 ns, and one that rings the bell of core 255 with bit 3. -/
def limitedK (x : Piece) : Checkpoint := { formingK x with plan := plan false [(40, 8, 100)], formFrom := 5 }
def ringingK : Checkpoint := { formingK (piece0 (some 0) true) with plan := plan false [(3, 1, 1), (48, 8, 0x0E90_0020_8000 + 8 * 255), (56, 8, 8)] }

theorem wit_FormEnds :
    (let s := forming (piece0 (some 0) true)
     plFlag (plan false) 0 = false ∧ (∀ d : Fin 4, dsFld (plan false) d.val 0 1 ≠ 2) ∧ seen (nx .formEnd s) = [3, 0, 0, 0, 1, 0, 0])
    ∧ (let s := checkpointed ringingK
       plFlag ringingK.plan 0 = true ∧ bellAt (byteFld ringingK.plan 48 8) = .own 255 ∧ (∀ d : Fin 4, dsFld ringingK.plan d.val 0 1 ≠ 2)
         ∧ (nx .formEnd s).bell 255 = 8 ∧ seen (nx .formEnd s) = [3, 0, 0, 0, 1, 0, 0])
    ∧ seen (nx .formEnd (checkpointed { formingK (piece0 (some 0) true) with noMore := true })) = []
    ∧ (∀ x ∈ [piece0 none false, piece0 (some 0) false],
        byteFld (limitedK x).plan 40 8 = 100 ∧ seen (nx .formLate (checkpointed (limitedK x) 104)) = [2, 0, 0, 0, 1, 0, 0]
          ∧ (checkpointed (limitedK x) 105).memReadN (x.chain + 64) 8 = 0
          ∧ seen (nx .formLate (checkpointed (limitedK x) 105)) = (if x.inFlight then [2, 4, 1, 0, 1, 0, 0] else [])) := by decide +kernel

/-- SHIP with a destination. -/
def shipping (d : Destination) (s : State := planned false) : State := checkpointed { ckptOf 3 with dests := [d], formed := 320 } 5 s

theorem wit_ShardsShipped :
    (let s := shipping {}
     dsFld (plan false) 0 0 1 = 3 ∧ liveB s 0x20000 320 = true ∧ s.poisonIn 0x20000 320 = false ∧ 0x20000 % 256 = 0
       ∧ (shardHead (ckptOf 3) {}).length = 96)
    ∧ (let s := shipping {} { planned false with poison := [(0x20000, true)] }
       (s.memRead 0x20000 320).poison = true ∧ seen (nx (.shipDone 0) s) = []) := by decide +kernel

theorem wit_ShardsShipped_commit :
    (let d : Destination := { shipped := true, header := List.replicate 128 7 }
     let s := shipping d
     d.header.length = 128 ∧ liveB s 0x30000 64 = true ∧ liveB s 0x50000 64 = true ∧ seen (nx (.commit 0) s) = []
       ∧ (nx (.commit 0) s).byteAt 0x5000A = 2 ∧ (nx (.commit 0) s).byteAt 0x30000 = 0x47)
    ∧ (let d : Destination := { shipped := true, header := List.replicate 128 7 }
       let s := checkpointed { ckptOf 3 with dests := [{}, d], plan := plan false [(2, 1, 2), (576, 1, 3), (584, 8, 0x60000), (592, 8, 0x70000), (600, 8, 8512)] }
       liveB s 0x60000 64 = true ∧ seen (nx (.commit 1) s) = [3, 0, 0, 0, 1, 0, 0, 0, 1, 1, 1]) := by decide +kernel

/-! ## Start-up, images and power -/

/-- A node whose pins and stage stand as given. -/
def poweredNode (vaon porN : Bool) (stage : Nat) (f : Power → Power := id) : State :=
  { State.reset with power := f { vaon := vaon, porN := porN } }.putFld .boot 0x000 0 4 stage

theorem wit_PowerAndReset :
    (poweredNode false false 0).power.porN = false ∧ (nx .vaonPowerUp (poweredNode false false 0)).power.vaon = true
      ∧ (nx .vaonPowerUp (poweredNode false false 0)).lifeCount 0x018 4 = 1
      ∧ (poweredNode true true 2).power.porN = true
      ∧ (poweredNode true false 0).power.vaon = true ∧ (poweredNode true false 0).power.slpDeepN = true
      ∧ (nx (.porRise 31) (poweredNode true false 0)).stage = 2 ∧ (nx (.porRise 31) (poweredNode true false 0)).bitAt (.port 15) 0x000 5 = true
      ∧ (nx (.porRise 15) (poweredNode true false 0)).bitAt (.port 15) 0x000 5 = false
      ∧ (poweredNode true false 0 fun p => { p with slpDeepN := false }).power.slpDeepN = false
      ∧ (nx .porFall (poweredNode true true 5)).stage = 0 ∧ (nx (.resetN 0) (poweredNode true true 5)).stage = 2
      ∧ (nx (.resetN 0) (poweredNode true true 5)).chState 191 = 2 ∧ (nx (.porRise 31) (poweredNode true false 0)).bitAt .regionTable 0x028 31 = true
      ∧ (nx (.porRise 0) (poweredNode true false 0 fun p => { p with brakeN := false })).bitAt .power 0x000 5 = true
      ∧ (nx (.porRise 0) (poweredNode true false 0)).bitAt .power 0x000 6 = false := by decide +kernel

theorem wit_StartUpStages :
    (poweredNode true true 2).power.porN = true ∧ (poweredNode true true 2).stage = 2
      ∧ (nx .bootRom (poweredNode true true 2)).inRecovery = true ∧ (nx .bootRom (poweredNode true true 2)).fldAt .boot 0x000 8 8 = 4
      ∧ (nx .bootRom (poweredNode true true 2 fun p => { p with straps := 5 })).selfNgi = 5
      ∧ (nx .bootRom (poweredNode true true 2 fun p => { p with straps := 5 })).fldAt .routeTable 16 32 32 = 2 ^ 26 + 2 ^ 27
      ∧ (poweredNode true true 4).stage = 4 ∧ (poweredNode true true 4).inRecovery = false
      ∧ (poweredNode true true 4).power.retention = [] ∧ (poweredNode true true 4 fun p => { p with retention := [1] }).power.retention ≠ []
      ∧ (poweredNode true true 5).stage = 5 := by decide +kernel

theorem wit_StartUpStages_hbm :
    (nx (.hbmStage [191]) ((poweredNode true true 5).putByte 7 7)).chState 191 = 3
      ∧ (nx (.hbmStage [191]) ((poweredNode true true 5).putByte 7 7)).chState 0 = 0
      ∧ (nx (.hbmStage [191]) ((poweredNode true true 5).putByte 7 7)).byteAt 7 = 0 := by decide +kernel

/-- An activation of an instance accepted for a mark; bank B holds an image that needs steps it has, or has not. -/
def activating (i mark now : Nat) (image : List Byte) : State :=
  let s := State.reset.setImage i { bankB := image }
  { s with harbour := { activations := [{ value := i, forced := false, mark := mark, msg := plainMsg 1 0 }] } }.putN .tide 0x000 now

theorem wit_Activations :
    (∀ i : Fin 9, (activating i 10 10 []).harbour.inReset = false ∧ (activating i 10 10 []).harbour.hold = false
        ∧ ((activating i 10 10 []).harbour.activations.find? fun a => a.value == i.val).map (·.mark) = some 10
        ∧ ((activating i 10 10 []).image i).trial = none ∧ (activating i 10 10 []).inRecovery = false
        ∧ (evaluateImages ((activating i 10 10 []).setAfter [i])).isSome = true
        ∧ ((nx (.activationMark i) (activating i 10 9 [])).image i).trial = none
        ∧ ((nx (.activationMark i) (activating i 10 10 [])).image i).trial = some 1)
    ∧ (evaluateImages ((activating 8 10 10 [1]).setAfter [8])).isNone = true
    ∧ ((nx (.activationMark 8) (activating 8 10 10 [1])).image 8).trial = none ∧ (nx (.activationMark 8) (activating 8 10 10 [1])).harbour.activations = [] := by decide +kernel

/-- An instance runs bank 1 unconfirmed since tide 0. -/
def trying (i now : Nat) : State :=
  { State.reset.setImage i { trial := some 1 } with harbour := { hold := i == 0 } }.putN .tide 0x000 now

theorem wit_Activations_confirm :
    ((trying 0 0).image 0).trial = some 1 ∧ ((trying 8 0).image 8).trial = some 1 ∧ (trying 0 0).harbour.hold = true
      ∧ ((nx (.instanceConfirm 8 true) (trying 8 0)).image 8).active = 1 ∧ ((nx (.instanceConfirm 8 true) (trying 8 0)).image 8).boot = 1
      ∧ ((nx (.instanceConfirm 8 false) (trying 8 0)).image 8).active = 0 ∧ ((nx (.instanceConfirm 8 false) (trying 8 0)).image 8).runs = 2
      ∧ (nx (.instanceConfirm 0 true) (trying 0 0)).harbour.hold = false
      ∧ ((nx .activationConfirmTimeout (trying 0 499_999_999)).image 0).trial = some 1
      ∧ ((nx .activationConfirmTimeout (trying 0 500_000_000)).image 0).trial = none := by decide +kernel

/-- A change to a depth accepted for a mark, under the harbourmaster's firmware. -/
def sleeping (value depth now : Nat) : State :=
  let m : Marked := { value := value, forced := false, mark := 10, msg := plainMsg 1 0 }
  let s := { State.reset with harbour := { sleeps := [m] }, power := { depth := depth } }
  ((s.putBit .harbour 0x00 0 true).putN .tide 0x000 now).putN (.port 3) 0x008 2
/-- A core ONLINE with a chain entered. -/
def busyCore (s : State) : State := (s.putN (.core 7) 0x008 0).setQueue 7 0 { chains := [{ addr := 0x1000 }] }

theorem wit_SleepAndWake :
    (∀ v ∈ [0, 1, 2, 3], (sleeping v 0 10).hmRuns = true ∧ (sleeping v 0 10).sleepRefused v = false ∧ (sleeping v 0 10).harbour.sleeps.map (·.value) = [v])
      ∧ (nx .sleepEntry (sleeping 1 0 10)).power.depth = 1
      ∧ (sleeping 0 1 10).heldActs = [] ∧ (nx .sleepEntry (sleeping 0 1 10)).power.depth = 0
      ∧ (sleeping 2 0 10).coresIdle = true ∧ (nx .sleepEntry (sleeping 2 0 10)).power.depth = 2 ∧ (nx .sleepEntry (sleeping 2 0 10)).portState 3 = 3
      ∧ (busyCore (sleeping 2 0 10_000_009)).coresIdle = false ∧ (nx .sleepEntry (busyCore (sleeping 2 0 10_000_009))).power.depth = 0
      ∧ wakes 0 .bell = false ∧ wakes 1 .management = false
      ∧ (nx (.wake .bell) (sleeping 2 1 0)).power.depth = 0 ∧ (nx (.wake .bell) (sleeping 2 2 0)).power.depth = 0
      ∧ (nx (.wake .tideMark) (sleeping 2 3 0)).power.wakeHeld = true := by decide +kernel

theorem wit_SleepAndWake_deep :
    (∀ now ∈ [29_999_999, 30_000_000],
      let s := (poweredNode true false 0 fun p => { p with depth := 3, wakeHeld := true, slpDeepN := false }).putN .tide 0x000 now
      s.power.depth = 3 ∧ s.power.wakeHeld = true ∧ s.power.deepFrom = 0 ∧ s.stepValid = false
        ∧ (nx .deepWake s).stage = (if now = 30_000_000 then 1 else 0)) := by decide +kernel

/-- Rail 0 at a voltage in mV and a current of 1 000 A; D at a value. -/
def drawing (mv d : Nat) : State := (State.reset.putN .power 0x080 (mv + 100_000 * 2 ^ 16)).putFld .power 0x000 8 7 d

theorem wit_PowerControl :
    (drawing 1_500 64).power.capped = false ∧ (drawing 1_500 64).power.cutUntil = none ∧ (drawing 1_500 64).power.overRun < 9 ∧ (drawing 1_500 64).duty ≤ 64
      ∧ (drawing 1_500 64).sustained = 1_450_000 ∧ (drawing 1_500 64).packagePower = 1_504_000
      ∧ (nx .powerControlTick (drawing 1_500 64)).duty = 63 ∧ (nx .powerControlTick (drawing 1_500 4)).duty = 4
      ∧ (nx .powerControlTick (drawing 1_000 63)).duty = 64 ∧ (nx .powerControlTick (drawing 1_000 64)).duty = 64
      ∧ (nx .powerControlTick (drawing 1_400 32)).duty = 32 := by decide +kernel

theorem wit_FastCuts :
    min 2_500_000 (State.reset.sustained + 900_000) = 2_350_000 ∧ State.reset.power.cutUntil = none
      ∧ (nx (.fastCut 2_350_001) State.reset).duty = 16 ∧ (nx (.fastCut 2_350_000) State.reset).duty = State.reset.duty
      ∧ (∀ now ∈ [199, 200],
          let s := { State.reset with power := { cutUntil := some 200 } }.putN .tide 0x000 now
          s.power.cutUntil = some 200 ∧ (nx .fastCutHoldEnd s).power.cutUntil = (if now = 200 then none else some 200))
      ∧ (nx (.clockStretch 3 90 401) State.reset).regN .power 0x058 = 90 ∧ (nx (.clockStretch 3 90 400) State.reset).regN .power 0x058 = 0 := by decide +kernel

theorem wit_BrakeAndAlert :
    (poweredNode true true 8).power.depth < 2 ∧ (poweredNode true true 8).modeTarget < 2 ∧ (nx .pwrBrake (poweredNode true true 8)).modeTarget = 2
      ∧ (nx .pwrBrake (poweredNode true true 8)).duty = 16 ∧ (nx .pwrBrake State.reset).power.brakeN = false ∧ (nx .pwrBrake State.reset).duty = 64
      ∧ (nx .pwrBrakeRelease (nx .pwrBrake (poweredNode true true 8))).bitAt .power 0x000 5 = false
      ∧ (poweredNode true true 8).power.porN = true ∧ (nx .vrAlert (poweredNode true true 8)).modeTarget = 2
      ∧ (nx .vrAlert State.reset).modeTarget = 1 := by decide +kernel

/-- A change to a mode accepted for a mark. -/
def changing (value : Nat) (forced : Bool) (now : Nat) : State :=
  { State.reset with harbour := { modes := [{ value := value, forced := forced, mark := 10, msg := plainMsg 1 0 }] } }.putN .tide 0x000 now

/-- Every VDD_CD set to 700 mV; those below the last read 693 mV, the last one a voltage. -/
def railsAt (last : Nat) (s : State) : State :=
  let s := { s with power := { s.power with setpoints := [(0, 700), (1, 700), (2, 700), (3, 700)] } }
  [(0, 693), (1, 693), (2, 693), (3, last)].foldl (fun (s : State) e => s.putN .power (0x080 + 8 * e.1) e.2) s

theorem wit_ModeTransitions :
    (changing 2 false 10).power.depth < 2 ∧ (changing 2 false 10).harbour.modes.map (fun m => (m.value, m.mark, m.msg.isEmpty)) = [(2, 10, false)]
      ∧ (changing 2 false 10).safe = false ∧ (changing 0 false 10).brakeBlocks 0 = false ∧ (changing 0 false 10).modeTarget ≠ 0
      ∧ (nx .powerModeMark (changing 0 false 9)).modeTarget = 1 ∧ (nx .powerModeMark (changing 0 false 10)).modeTarget = 0
      ∧ (nx .powerModeMark (changing 2 true 10)).power.clock = 800
      ∧ ((changing 2 false 10).putBit .hub 0x000 0 true).safe = true ∧ (nx .powerModeMark ((changing 2 false 10).putBit .hub 0x000 0 true)).bitAt .power 0x008 5 = true
      ∧ (∀ last ∈ [707, 708],
          let s := railsAt last (nx .pwrBrake (poweredNode true true 8))
          s.railsSettled = decide (last = 707) ∧ s.inTransition = true ∧ (nx .readbackRound s).inTransition = decide (last = 708)
            ∧ (nx .readbackRound { s with power := { s.power with depth := 2 } }).inTransition = true)
      ∧ (nx (.avsTelemetryRead [{ mv := 700, current := 5, temp := 9 }]) State.reset).fldAt .power 0x080 36 8 = 9 := by decide +kernel

/-! ## Tray accesses, ATTEST and activations asked for -/

/-- An address of node 7 of the tray; port 5 leads there in `bridged 7`. -/
def tray7 (off : Nat) : Nat := 2 ^ 47 + 7 * 2 ^ 44 + off

theorem wit_TrayRequestsIssued :
    let s := bridged 7
    (tray7 8).testBit 47 = true ∧ bits (tray7 8) 44 3 = 7 ∧ s.ownTray (tray7 8) = false ∧ s.trayRoom 0 = true ∧ bit (s.reg (.quay 0) 0x038) 7 = false
      ∧ State.reset.ownTray (tray7 8) = false ∧ State.reset.trayRoute 7 = none ∧ State.reset.ckpt = none ∧ master.endpoint.val = 320
      ∧ (nx (.trayRequest master (tray7 8) (.load 8)) State.reset).answer.status = 3
      ∧ State.reset.pilotWaits 0 = false ∧ State.reset.hbmWaits (hbmEnd - 8) 8 = false ∧ State.reset.ownTray (2 ^ 47 + hbmEnd - 8) = true ∧ liveB State.reset ((2 ^ 47 + hbmEnd - 8) % 2 ^ 44) 8 = true
      ∧ (nx (.trayRequest pilot0 (2 ^ 47 + hbmEnd - 8) (.load 8)) (State.reset.putByte (hbmEnd - 1) 9)).answer.data = [0, 0, 0, 0, 0, 0, 0, 9] := by decide +kernel

theorem wit_TrayRequestsIssued_route : (bridged 7).trayRoute 7 = some 5 :=
  State.trayRoute_one (by decide +kernel) (by decide +kernel)

/-- A tray request at quay 1 for the last bytes of HBM, under TRAY_TAG or another tag. -/
def atTray (kind tag code : Nat) : Packet :=
  { vc := 5, ovc := 5, dst := 0, src := 0, tag := tag, tkind := kind, last := true, code := code, addr := 2 ^ 47 + hbmEnd - 8, data := 8, payload := leBytes 8 5 }
def traying (p : Packet) (r : List TrayReq := []) : State := { knows0 with arrived := [(0, none5), (1, p)], tray := r }

theorem wit_TrayRequestsPerformed :
    (∀ kind ∈ [11, 12, 13],
      let p := atTray kind 0 (2 ^ 4)
      let s := traying p
      s.trayTagOk 1 p = true ∧ (s.takeArrived 1 [kind]).map (·.1) = some p ∧ p.addr % 2 ^ 44 = hbmEnd - 8 ∧ liveB s (hbmEnd - 8) 8 = true
        ∧ (hbmEnd - 8) % 8 = 0 ∧ s.linePoison (hbmEnd - 8) 8 = false ∧ (traying (atTray kind 1 0)).trayTagOk 1 (atTray kind 1 0) = false)
    ∧ (let p := { atTray 12 0 0 with dq := 16, data := 6 }
       let k := { atTray 12 0 0 with dq := 18, payload := List.range 9 |>.map (BitVec.ofNat 8), addr := 2 ^ 47 }
       storeData p = leBytes 8 6 ∧ (nx (.traySt 1) (traying p)).byteAt (hbmEnd - 8) = 6
         ∧ (storeData k).length = 9 ∧ (nx (.traySt 1) (traying k)).byteAt 8 = 8)
    ∧ (nx (.trayAmo 1) (traying (atTray 13 0 (2 ^ 4)))).mem ≠ []
    ∧ (nx (.traySt 1) (traying { atTray 12 1 0 with dq := 16, data := 6 })).byteAt (hbmEnd - 8) = 0 := by decide +kernel

/-- A store of the harbourmaster waits for node 7. -/
def trayReq (kind : Nat) : TrayReq := { id := 9, owner := .requester master, target := 7, addr := tray7 8, kind := kind, since := 5, vc := 0, quay := 1 }

theorem wit_TrayAccessesEnd :
    (let p := { atTray 14 0 0 with psn := 9 }
     let s := traying p [trayReq 0]
     s.takeTray 9 = some (trayReq 0) ∧ (s.takeArrived 1 [14]).map (·.1) = some p ∧ (nx (.trayResp 1) s).answer.data = leBytes 8 5 ∧ (nx (.trayResp 1) s).tray = [])
    ∧ (let p := { atTray 15 0 0 with psn := 9, data := 11 }
       let s := traying p [trayReq 1]
       (s.takeArrived 1 [15]).map (·.1) = some p ∧ (nx (.trayErr 1) s).answer.status = 2 ∧ (nx (.trayErr 1) s).reports.map (·.source) = [0x1B])
    ∧ (let s := (traying none5 [trayReq 1]).putN .tide 0x000 (5 + State.reset.fldAt (.quay 1) 0x000 0 19)
       (trayReq 1).since + s.fldAt (.quay 1) 0x000 0 19 ≤ s.clock ∧ s.ckpt = none ∧ (nx (.trayDead 1 9) s).answer.status = 3
         ∧ bit ((nx (.trayDead 1 9) s).reg (.quay 1) 0x038) 7 = true) := by decide +kernel

/-- The host asks for an access. -/
def hosting (kind addr : Nat) (s : State) : State := { s with hostIn := [{ atTray kind 0 0 with addr := addr }] }

theorem wit_HostRequest :
    (∀ e ∈ [(10, tray7 0), (14, tray7 0), (11, 5)],
      let s := hosting e.1 e.2 State.reset
      s.safe = false ∧ s.quayHeld 1 = false ∧ (e.1 < 11 ∨ 13 < e.1 ∨ e.2.testBit 47 = false)
        ∧ ((nx .hostRequest s).port 15).egress.map (fun q => (q.pkt.tkind, q.pkt.code)) = [(15, 2)])
    ∧ (let s := hosting 11 (tray7 0) (bridged 7)
       s.safe = false ∧ s.quayHeld 1 = false ∧ s.ownTray (tray7 0) = false ∧ s.trayRoom 1 = true ∧ tray7 0 < 2 ^ 48
         ∧ bit (s.reg (.quay 0) 0x038) 7 = false) := by decide +kernel

theorem wit_HostRequest_route : (hosting 11 (tray7 0) (bridged 7)).trayRoute 7 = some 5 :=
  State.trayRoute_one (by decide +kernel) (by decide +kernel)

/-- Where and how long a piece of a range is. -/
theorem granules_within {fuel a n : Nat} : ∀ p ∈ granules fuel a n, a ≤ p.1 ∧ p.1 + p.2 ≤ a + n := by
  induction fuel generalizing a n with
  | zero => simp [granules]
  | succ fuel ih =>
    intro p hp
    unfold granules at hp
    split at hp
    · simp at hp
    · simp only [List.mem_cons] at hp
      rcases hp with rfl | hp
      · exact ⟨Nat.le_refl _, show a + min n (256 - a % 256) ≤ a + n by omega⟩
      · have := ih p hp; omega

/-- HBM is reachable. -/
theorem reachable_hbm (s : State) {a n : Nat} (h : a + n ≤ 2 ^ 30) : s.reachable a n = true := by
  unfold State.reachable
  rw [List.all_eq_true]
  intro p hp
  have := granules_within p hp
  have e : 2 ^ 30 < hbmEnd := by decide
  have : placeOf p.1 = .hbm := by simp [placeOf]; omega
  simp [this]; omega

theorem wit_LongCommands_attest :
    let fs := [(48, 8, 0x70000), (56, 8, 0x50000)]
    let m := command 0x0072 fs
    let s := orders 0x0072 fs
    atHeadB s 0x0072 m = true ∧ argsZero m [(16, 48)] = true ∧ byteFld m 48 8 = 0x70000 ∧ startsB (taken s 1) m 0x50000 = true := by decide +kernel

theorem wit_LongCommands_attest_room (s : State) : s.reachable 0x70000 (50_368 + Config.certLength % 65537) = true :=
  reachable_hbm s (by have := Nat.mod_lt Config.certLength (show 65537 > 0 by decide); omega)

/-- Bank B of an instance holds a checked image. -/
def staged (i : Nat) (image : List Byte) : State := State.reset.setImage i { bankB := image, checkB := true }

theorem wit_CommandsForAMark_activate :
    (∀ i ∈ [0, 8],
      let fs := [(16, 1, imgKind i), (17, 1, if i = 8 then 1 else 0), (24, 8, 100)]
      let m := command 0x0071 fs
      let s := orders 0x0071 fs (staged i [])
      atHeadB s 0x0071 m = true ∧ argsZero m [(16, 2), (24, 8)] = true ∧ namedImages m = [i] ∧ (taken s 1).cmdMark m = 100 ∧ s.inRecovery = false
        ∧ (s.image i).checked (s.image i).spare = true ∧ (evaluateImages ((taken s 1).setAfter [i])).isSome = true
        ∧ (taken s 1).kindPending (imgKind i) = false ∧ (taken s 1).activationRefusal [i] 100 = none
        ∧ (nx (.fwActivate 1) s).harbour.activations.map (fun a => (a.value, a.mark)) = [(i, 100)])
    ∧ (let fs := [(16, 1, 3), (17, 1, 1), (24, 8, 100)]
       let s := orders 0x0071 fs (staged 8 [1])
       (evaluateImages ((taken s 1).setAfter [8])).isNone = true ∧ answered (nx (.fwActivate 1) s) = [(0x71, 77, 0x0C)]) := by decide +kernel

end Sys2Proof.Tests
end

section
/-! SUPPORT. Running a command, and the frames that the statements name: a lemma for each way in which one comes about. -/

namespace Sys2Proof.Claims

open Sys2Proof.Machine

theorem RegsBut.refl (s : State) (keys : List Nat) : RegsBut s s keys := fun _ _ => rfl

theorem RegsBut.of_regs {s t : State} (keys : List Nat) (h : t.regs = s.regs) : RegsBut s t keys :=
  fun a _ => State.getReg_of_regs h a

theorem RegsBut.trans {s t u : State} {keys : List Nat} (h : RegsBut s t keys) (k : RegsBut t u keys) : RegsBut s u keys :=
  fun a ha => (k a ha).trans (h a ha)

theorem RegsBut.setReg (s : State) {a : Nat} (v : Word) {keys : List Nat} (ha : a ∈ keys) : RegsBut s (s.setReg a v) keys :=
  fun _ hb => State.getReg_setReg_other s v fun e => hb (e ▸ ha)

theorem SameBytes.of_eq {s t : State} (hm : t.mem = s.mem) (hu : t.undef = s.undef) : SameBytes s t :=
  State.byteAt_of_eq hm hu

/-- A state that is `s` but for fields that are not memory reads the bytes of `s`. -/
theorem Only.intro {s t u : State} {keys : List Nat} (h : t = u) (hm : u.mem = s.mem) (hu : u.undef = s.undef)
    (hr : RegsBut s t keys) : Only s t u keys :=
  ⟨h, hr, SameBytes.of_eq (h ▸ hm) (h ▸ hu)⟩

end Sys2Proof.Claims
end

section
/-! Every command answers a next state (00 R12, R17). -/

namespace Sys2Proof.Machine

/-- Each row of the opcode table gives its command a next state. -/
theorem exec_answers_next (c : Instr) (s : State) : ∃ t, exec c s = .next t := by
  cases c <;> exact ⟨_, rfl⟩

/-- With or without a command at the front of the queue, a step goes on. -/
theorem step_answers_next (s : State) : ∃ t, step s = .next t := by
  unfold step
  split
  · exact ⟨_, rfl⟩
  · exact exec_answers_next _ _

end Sys2Proof.Machine

namespace Sys2Proof.Claims

open Sys2Proof.Machine

/-- Settles O4: every command answers a next state, and so does the tick of an empty queue. -/
theorem stepAlwaysAnswers : Obligations.StepAlwaysAnswers := by
  intro s
  obtain ⟨t, ht⟩ := step_answers_next s
  simp [State.steps, ht]

end Sys2Proof.Claims
end

section
/-! SUPPORT. What a write to a register without a command of its own does, one equation per kind of bit (00 R13–R17). -/

namespace Sys2Proof.Machine

open Sys2Proof.Claims

/-! ## The parts of a write -/

/-- A write to one field of a zero register sets no bit outside the field. -/
theorem setFld_zero_and_maskOf (lo len v : Nat) :
    setFld 0 lo len v &&& BitVec.ofNat 64 (maskOf lo len) = setFld 0 lo len v := by
  apply BitVec.eq_of_getLsbD_eq
  intro i hi
  rw [BitVec.getLsbD_and, getLsbD_setFld _ _ _ _ _ hi, getLsbD_maskOf _ _ _ hi]
  by_cases h : lo ≤ i ∧ i < lo + len
  · have : i - lo < len := by omega
    simp [h, this]
  · simp [h]

/-- A write of one width to a zero register sets no bit that it does not carry. -/
theorem mergeHalf_zero_and_carried (wide high : Bool) (v : Word) :
    mergeHalf 0 wide high v &&& carried wide high = mergeHalf 0 wide high v := by
  cases wide with
  | true => exact BitVec.and_allOnes
  | false =>
    cases high with
    | true => exact setFld_zero_and_maskOf 32 32 _
    | false => exact setFld_zero_and_maskOf 0 32 _

@[simp] theorem State.getReg_setLagged_same (s : State) (k : Nat) (v : Word) : (s.setLagged k v).getReg k = v :=
  State.getReg_setReg_same _ _ _

theorem State.getReg_setLagged_other (s : State) {k a : Nat} (v : Word) (h : a ≠ k) : (s.setLagged k v).getReg a = s.getReg a :=
  State.getReg_setReg_other _ _ h

/-- What precedes a write settles a port's bucket and no more (11 R309). -/
theorem State.beforeWrite_frame (s : State) (b : Block) (off : Nat) :
    s.beforeWrite b off = { s with ports := (s.beforeWrite b off).ports } := by
  unfold State.beforeWrite
  split
  · split <;> rfl
  · rfl

/-- A wait that is met shows in WAKE_CAUSE alone. -/
theorem State.getReg_checkWait_other (s : State) (c : Nat) {a : Nat} (h : a ≠ Claims.at_ (.core c) 0x030) :
    (s.checkWait c).getReg a = s.getReg a := by
  unfold State.checkWait
  split
  · exact State.getReg_putReg_other s _ h
  · rfl

theorem State.checkWait_frame (s : State) (c : Nat) : s.checkWait c = { s with regs := (s.checkWait c).regs } := by
  unfold State.checkWait
  split <;> rfl

/-- What follows a write is seen in WAKE_CAUSE or in the comparators of the tide (02 R65, 04 R105). -/
theorem State.afterWrite_frame (s : State) (b : Block) (off : Nat) :
    s.afterWrite b off = { s with regs := (s.afterWrite b off).regs, tide := (s.afterWrite b off).tide } := by
  cases b with
  | core c =>
    simp only [State.afterWrite]
    split
    · rw [State.checkWait_frame]
    · rfl
  | tide =>
    simp only [State.afterWrite]
    split <;> rfl
  | _ => rfl

/-- What follows a write to a register does not write that register again. -/
theorem State.getReg_afterWrite_written (s : State) (b : Block) (off : Nat) :
    (s.afterWrite b off).getReg (blockBase b + off) = s.getReg (blockBase b + off) := by
  cases b with
  | core c =>
    simp only [State.afterWrite]
    split
    · exact s.getReg_checkWait_other c (by unfold Claims.at_; omega)
    · rfl
  | tide =>
    simp only [State.afterWrite]
    split <;> rfl
  | _ => rfl

/-- What follows a write to a register changes no register but the core's WAKE_CAUSE (04 R105). -/
theorem State.regsBut_afterWrite (s : State) (b : Block) (off : Nat) :
    RegsBut s (s.afterWrite b off) (match b with | .core c => [Claims.at_ (.core c) 0x030] | _ => []) := by
  cases b with
  | core c =>
    simp only [State.afterWrite]
    split
    · exact fun a ha => s.getReg_checkWait_other c (by simpa using ha)
    · exact RegsBut.refl _ _
  | tide =>
    simp only [State.afterWrite]
    split <;> exact RegsBut.of_regs _ rfl
  | _ => exact RegsBut.refl _ _

@[simp] theorem State.getShadow_setShadow_same (s : State) (k : Nat) (v : Word) : (s.setShadow k v).getShadow k = v := by
  simp [State.getShadow, State.setShadow]

theorem State.getShadow_setShadow_other (s : State) {k j : Nat} (v : Word) (h : j ≠ k) :
    (s.setShadow k v).getShadow j = s.getShadow j := by
  simp [State.getShadow, State.setShadow, Tab.get_set_other, h]

theorem State.markDirty_frame (s : State) (b : Block) (k : Nat) :
    s.markDirty b k = { s with dirty := (s.markDirty b k).dirty } := by
  unfold State.markDirty
  split <;> rfl

@[simp] theorem State.getShadow_markDirty (s : State) (b : Block) (k j : Nat) : (s.markDirty b k).getShadow j = s.getShadow j := by
  rw [State.markDirty_frame]; rfl

/-! ## The write -/

section
variable {s : State} {r : RegAt} {a : Nat} {wide : Bool} {v : Word}

theorem State.writePlain_w1c (h : r.row.w1c ≠ 0) :
    s.writePlain r wide (!wide && a % 8 == 4) v = s.setReg r.key (clearBits (s.getReg r.key) (merged 0 a wide v) r.row.w1c) := by
  simp only [State.writePlain, h, ne_eq, not_false_eq_true, if_true, mergeHalf_zero_and_carried, merged]

theorem State.writePlain_discarded {old : Word} (hold : (if r.row.rws then s.getShadow r.key else s.getReg r.key) = old)
    (h : r.row.w1c = 0)
    (bad : encodingOk r.block r.off (written r old a wide v) = false ∨ (old ^^^ written r old a wide v) &&& s.busyMask r.block r.off ≠ 0) :
    s.writePlain r wide (!wide && a % 8 == 4) v = s.reject r.block := by
  unfold written merged at bad
  simp only [State.writePlain, h, ne_eq, not_true_eq_false, if_false, hold]
  rcases bad with bad | bad
  · simp [bad]
  · rw [if_pos bad, ite_self]

theorem State.writePlain_rws (hrws : r.row.rws = true) (h : r.row.w1c = 0)
    (ok : encodingOk r.block r.off (written r (s.getShadow r.key) a wide v) = true)
    (free : (s.getShadow r.key ^^^ written r (s.getShadow r.key) a wide v) &&& s.busyMask r.block r.off = 0) :
    s.writePlain r wide (!wide && a % 8 == 4) v
      = (s.setShadow r.key (written r (s.getShadow r.key) a wide v)).markDirty r.block r.key := by
  unfold written merged at ok free ⊢
  simp [State.writePlain, hrws, h, ok, free]

theorem State.writePlain_rw (hrws : r.row.rws = false) (h : r.row.w1c = 0)
    (ok : encodingOk r.block r.off (written r (s.getReg r.key) a wide v) = true)
    (free : (s.getReg r.key ^^^ written r (s.getReg r.key) a wide v) &&& s.busyMask r.block r.off = 0) :
    s.writePlain r wide (!wide && a % 8 == 4) v
      = if isOpening r.block r.off then s.setLagged r.key (written r (s.getReg r.key) a wide v)
        else ((s.beforeWrite r.block r.off).setReg r.key (written r (s.getReg r.key) a wide v)).afterWrite r.block r.off := by
  unfold written merged at ok free ⊢
  simp [State.writePlain, hrws, h, ok, free]

end

/-- REGISTER_WRITE of a register without a command of its own. -/
theorem exec_registerWrite_plain {a : Nat} {wide : Bool} {r : RegAt} (h : Plain a wide r) (w : Sender) (v : Word) (s : State) :
    exec (.registerWrite w a wide v) s = .next ((s.writePlain r wide (!wide && a % 8 == 4) v).answers 0) := by
  obtain ⟨hin, hal, hreg, hown, hcommit⟩ := h
  change Host.Outcome.next (writeRegister w a wide v s) = _
  simp [writeRegister, State.writeReg, hin, hal, hreg, hown, hcommit]

end Sys2Proof.Machine

namespace Sys2Proof.Claims

open Sys2Proof.Machine

/-- The opening of a quay takes its value with a lag; any other RW register between what precedes and what follows the write. -/
theorem registerWriteRw : RegisterWriteRw := by
  intro s w a wide v r hplain hrws hw old new ok free
  refine ⟨_, exec_registerWrite_plain hplain w v s, ?_⟩
  rw [State.writePlain_rw hrws hw ok free]
  split
  case isTrue =>
    exact ⟨s.getReg_setLagged_same r.key new, rfl, Only.intro rfl rfl rfl fun k hk =>
      s.getReg_setLagged_other new fun e => hk (by simp [e])⟩
  case isFalse =>
    have hbefore := s.beforeWrite_frame r.block r.off
    generalize s.beforeWrite r.block r.off = s₁ at hbefore ⊢
    have hafter := (s₁.setReg r.key new).afterWrite_frame r.block r.off
    refine ⟨?_, rfl, Only.intro ?_ rfl rfl ?_⟩
    · exact ((s₁.setReg r.key new).getReg_afterWrite_written r.block r.off).trans (s₁.getReg_setReg_same r.key new)
    · rw [hafter, hbefore]; rfl
    · have h₁ : RegsBut s s₁ [] := RegsBut.of_regs _ (by rw [hbefore])
      intro k hk
      rw [List.mem_cons, not_or] at hk
      exact ((s₁.setReg r.key new).regsBut_afterWrite r.block r.off k hk.2).trans
        ((s₁.getReg_setReg_other new hk.1).trans (h₁ k (by simp)))

theorem registerWriteRws : RegisterWriteRws := by
  intro s w a wide v r hplain hrws hw old new ok free
  refine ⟨_, exec_registerWrite_plain hplain w v s, ?_⟩
  rw [State.writePlain_rws hrws hw ok free]
  have hframe := (s.setShadow r.key new).markDirty_frame r.block r.key
  have hread : ∀ k, (((s.setShadow r.key new).markDirty r.block r.key).answers 0).getShadow k = (s.setShadow r.key new).getShadow k :=
    State.getShadow_markDirty _ _ _
  refine ⟨?_, ?_, fun k hk => ?_, Only.intro ?_ rfl rfl (RegsBut.of_regs _ ?_)⟩
  · rw [hread, State.getShadow_setShadow_same]
  · rw [State.readValue, if_pos hrws, hread, State.getShadow_setShadow_same]
  · rw [hread, s.getShadow_setShadow_other new hk]
  · rw [hframe]; rfl
  · rw [hframe]; rfl

theorem registerWriteW1c : RegisterWriteW1c := by
  intro s w a wide v r hplain hw
  refine ⟨_, exec_registerWrite_plain hplain w v s, ?_⟩
  rw [State.writePlain_w1c hw]
  exact ⟨s.getReg_setReg_same r.key _, Only.intro rfl rfl rfl (RegsBut.setReg s _ (List.mem_singleton_self _))⟩

/-- Settles O7, by the equation of a plain write for each kind of bit and the frame of what precedes and follows it. -/
theorem registerWritesTake : Obligations.RegisterWritesTake := ⟨registerWriteRw, registerWriteRws, registerWriteW1c⟩

end Sys2Proof.Claims
end

section
/-! Writes that are discarded or ignored, and bus errors (00 R12, R15, R17, 10 R246). -/

namespace Sys2Proof.Machine

@[simp] theorem State.bit_reject (s : State) (b : Block) : bit ((s.reject b).getReg (rejectAddr b)) 0 = true := by
  simp [State.reject]

/-- The exception's trap value stands in the mode that takes it. -/
theorem Hart.trap_tval (h : Hart) (pd : Bool) (cause tval : Nat) :
    (h.trap pd cause tval).mtval = BitVec.ofNat 64 tval ∨ (h.trap pd cause tval).stval = BitVec.ofNat 64 tval := by
  unfold Hart.trap
  split
  · exact .inr rfl
  · exact .inl rfl

@[simp] theorem State.hart_setHart_same (s : State) (h : Nat) (x : Hart) : (s.setHart h x).hart h = x := by
  simp [State.hart, State.setHart]

theorem State.busError_of_hart {w : Sender} (h : w.endpoint.val < 320) (s : State) (write : Bool) (a : Nat) :
    s.busError w write a = (s.answers 1).trapHart w.endpoint.val (if write then 7 else 5) a := if_pos h

theorem State.busError_of_other {w : Sender} (h : 320 ≤ w.endpoint.val) (s : State) (write : Bool) (a : Nat) :
    s.busError w write a = s.answers 1 := if_neg (Nat.not_lt.mpr h)

end Sys2Proof.Machine

namespace Sys2Proof.Claims

open Sys2Proof.Machine

/-- A discarded command leaves CFG_REJECT set and nothing else changed. -/
theorem only_reject_answers (s : State) (b : Block) :
    bit (((s.reject b).answers 0).getReg (rejectAddr b)) 0 = true
      ∧ Only s ((s.reject b).answers 0)
          { s with regs := ((s.reject b).answers 0).regs, answer := ((s.reject b).answers 0).answer } [rejectAddr b] :=
  ⟨s.bit_reject b, Only.intro rfl rfl rfl (RegsBut.setReg s _ (List.mem_singleton_self _))⟩

theorem registerWriteDiscarded : RegisterWriteDiscarded := by
  constructor
  · intro s w a wide v r hplain hw old new bad
    refine ⟨_, exec_registerWrite_plain hplain w v s, ?_⟩
    rw [State.writePlain_discarded rfl hw bad]
    exact only_reject_answers s r.block
  · intro s w a wide v hin hal hreg
    refine ⟨writeRegister w a wide v s, rfl, ?_⟩
    simp [writeRegister, State.writeReg, hin, hal, hreg]

theorem busErrorAccessWritesNothing : BusErrorAccessWritesNothing := by
  intro s w write a bytes hrefused
  refine ⟨s.busError w write a, ?_, ?_⟩
  · change Host.Outcome.next (busErrorAccess w write a bytes s) = _
    rw [busErrorAccess, if_pos hrefused]
  rcases Nat.lt_or_ge w.endpoint.val 320 with hart | other
  · rw [State.busError_of_hart hart]
    refine ⟨rfl, fun h => absurd hart (Nat.not_lt.mpr h), fun _ => ?_, Only.intro rfl rfl rfl (RegsBut.of_regs _ rfl)⟩
    rw [State.trapHart, State.hart_setHart_same]
    exact Hart.trap_tval _ _ _ _
  · rw [State.busError_of_other other]
    exact ⟨rfl, fun _ => rfl, fun h => absurd h (Nat.not_lt.mpr other), Only.intro rfl rfl rfl (RegsBut.of_regs _ rfl)⟩

/-- Settles O8: a plain write that is refused is the block's reject, and a bus error is an answer with the trap of a hart. -/
theorem registerWritesRefused : Obligations.RegisterWritesRefused := ⟨registerWriteDiscarded, busErrorAccessWritesNothing⟩

end Sys2Proof.Claims
end

section
/-! Commits and their boundaries (00 R14, 02 R512, 17 R466). -/

namespace Sys2Proof.Machine

open Sys2Proof.Claims

/-! ## CFG_COMMIT -/

theorem State.commitBlock_refused {s : State} {b : Block} (hoff : commitOff b ≠ none)
    (h : s.commitPending b = true ∨ s.commitOk b = false) : s.commitBlock b = s.reject b := by
  rw [State.commitBlock, if_neg (by simpa using hoff), if_pos]
  rcases h with h | h <;> simp [h]

theorem State.commitBlock_captured {s : State} {b : Block} (hoff : commitOff b ≠ none) (hidle : s.commitPending b = false)
    (ok : s.commitOk b = true) :
    s.commitBlock b = { s with
      dirty := if b = .tide then [] else s.dirty
      commits := Tab.set (0, []) s.commits (commitAddr b) (s.now + 1, (s.commitKeys b).map fun k => (k, s.getShadow k)) } := by
  rw [State.commitBlock, if_neg (by simpa using hoff), if_neg (by simp [hidle, ok])]
  by_cases hb : b = .tide
  · simp only [hb, if_true]; rfl
  · simp only [hb, if_false]

theorem exec_cfgCommit {a off : Nat} {b : Block} (h : blockAt a = some (b, off)) (w : Sender) (s : State) :
    exec (.cfgCommit w a) s = .next ((s.commitBlock b).answers 0) := by
  change Host.Outcome.next ((commitAt a s).answers 0) = _
  rw [commitAt, h]

/-! ## COMMIT_BOUNDARY -/

/-- The registers take the values of a list, in its order. -/
def State.setRegs (s : State) (vs : List (Nat × Word)) : State := vs.foldl (fun s v => s.setReg v.1 v.2) s

theorem State.setRegs_frame (s : State) (vs : List (Nat × Word)) : s.setRegs vs = { s with regs := (s.setRegs vs).regs } := by
  induction vs generalizing s with
  | nil => rfl
  | cons v vs ih => exact ih (s.setReg v.1 v.2)

theorem State.getReg_setRegs_other (s : State) {vs : List (Nat × Word)} {a : Nat} (h : a ∉ vs.map (·.1)) :
    (s.setRegs vs).getReg a = s.getReg a := by
  induction vs generalizing s with
  | nil => rfl
  | cons v vs ih =>
    rw [List.map_cons, List.mem_cons, not_or] at h
    exact (ih (s.setReg v.1 v.2) h.2).trans (s.getReg_setReg_other v.2 h.1)

/-- Where no register is listed twice, each holds its listed value. -/
theorem State.getReg_setRegs_mem (s : State) {vs : List (Nat × Word)} (nodup : (vs.map (·.1)).Nodup) {e : Nat × Word} (he : e ∈ vs) :
    (s.setRegs vs).getReg e.1 = e.2 := by
  induction vs generalizing s with
  | nil => simp at he
  | cons v vs ih =>
    rw [List.map_cons, List.nodup_cons] at nodup
    rcases List.mem_cons.mp he with rfl | he
    · exact ((s.setReg e.1 e.2).getReg_setRegs_other nodup.1).trans (s.getReg_setReg_same e.1 e.2)
    · exact ih (s.setReg v.1 v.2) nodup.2 he

/-- A commit applied: no commit waits, and the captured values are in force. -/
theorem State.applyCommit_eq (s : State) (c : Nat) :
    s.applyCommit c = State.setRegs { s with commits := Tab.set (0, []) s.commits c (0, []) } (Tab.get (0, []) s.commits c).2 := by
  unfold State.applyCommit
  split
  · next h => rw [h]; rfl
  · next h => rw [h]; rfl

section
variable (s : State) (c : Nat)

theorem State.applyCommit_frame :
    s.applyCommit c = { s with regs := (s.applyCommit c).regs, commits := Tab.set (0, []) s.commits c (0, []) } := by
  rw [State.applyCommit_eq]
  exact State.setRegs_frame _ _

theorem State.getReg_applyCommit_mem (nodup : ((Tab.get (0, []) s.commits c).2.map (·.1)).Nodup) {e : Nat × Word}
    (he : e ∈ (Tab.get (0, []) s.commits c).2) : (s.applyCommit c).getReg e.1 = e.2 := by
  rw [State.applyCommit_eq]
  exact State.getReg_setRegs_mem _ nodup he

theorem State.regsBut_applyCommit : RegsBut s (s.applyCommit c) ((Tab.get (0, []) s.commits c).2.map (·.1)) := by
  intro a ha
  rw [State.applyCommit_eq]
  exact State.getReg_setRegs_other _ ha

end

theorem State.commitPending_applyCommit (s : State) (b : Block) : (s.applyCommit (commitAddr b)).commitPending b = false := by
  rw [State.applyCommit_frame]
  simp [State.commitPending]

/-- Blocks but the region table, the tide block and the stacks put their captured values in force and do no more. -/
theorem State.putInForce_eq_applyCommit (s : State) {b : Block} (htable : b ≠ .regionTable) (htide : b ≠ .tide)
    (hstack : ∀ k, b ≠ .stack k) : s.putInForce b = s.applyCommit (commitAddr b) := by
  unfold State.putInForce
  split
  · exact absurd rfl htable
  · exact absurd rfl htide
  · exact absurd rfl (hstack _)
  · rfl

theorem exec_commitBoundary {a off : Nat} {b : Block} (h : blockAt a = some (b, off)) (s : State) :
    exec (.commitBoundary a) s = .next (s.boundary b) := by
  change Host.Outcome.next (boundaryAt a s) = _
  rw [boundaryAt, h]

theorem State.boundary_reached {s : State} {b : Block} (hwait : s.commitPending b = true) (hat : s.atBoundary b = true) :
    s.boundary b = s.putInForce b := by
  rw [State.boundary, hwait, hat]; rfl

theorem State.boundary_not_reached {s : State} {b : Block} (h : s.commitPending b = false ∨ s.atBoundary b = false) :
    s.boundary b = s := by
  rw [State.boundary, if_neg]
  rcases h with h | h <;> simp [h]

/-! ## The tide block -/

/-- The role and the parent are the committed ones from now on (17 R466). -/
def State.useCommittedParent (s : State) : State :=
  ({ s with tide := { s.tide with committed := true } }).useParent (s.fldAt .tide 0x010 4 4)

theorem State.putInForce_tide (s : State) : s.putInForce .tide = (s.applyCommit (commitAddr .tide)).useCommittedParent := rfl

theorem State.useCommittedParent_frame (s : State) :
    s.useCommittedParent = { s with
      regs := s.useCommittedParent.regs
      tide := { s.tide with committed := true, parent := s.fldAt .tide 0x010 4 4 } } := rfl

theorem State.getReg_useCommittedParent_other (s : State) {a : Nat} (h : a ≠ Claims.at_ .tide 0x008) :
    s.useCommittedParent.getReg a = s.getReg a := State.getReg_putReg_other _ _ h

/-- TIDE_CTRL is another register than TIDE_STATUS, and keeps the parent. -/
theorem State.ctrlParent_useCommittedParent (s : State) :
    s.useCommittedParent.fldAt .tide 0x010 4 4 = s.fldAt .tide 0x010 4 4 :=
  congrArg (fld · 4 4) (s.getReg_useCommittedParent_other (by decide))

/-- TIDE_STATUS shows the parent of TIDE_CTRL. -/
theorem State.statusParent_useCommittedParent (s : State) :
    s.useCommittedParent.fldAt .tide 0x008 4 4 = s.fldAt .tide 0x010 4 4 :=
  (State.fldAt_putFld_same _ _ _ _ _ _ (by decide)).trans (Nat.mod_eq_of_lt (Nat.mod_lt _ (by decide)))

end Sys2Proof.Machine

namespace Sys2Proof.Claims

open Sys2Proof.Machine

theorem cfgCommitCaptures : CfgCommitCaptures := by
  intro s w a off b hat hoff
  constructor
  · intro hidle ok
    refine ⟨_, exec_cfgCommit hat w s, ?_⟩
    rw [State.commitBlock_captured hoff hidle ok]
    exact ⟨by simp [State.commitPending], by simp, Only.intro rfl rfl rfl (RegsBut.of_regs _ rfl)⟩
  · intro hrefused
    refine ⟨_, exec_cfgCommit hat w s, ?_⟩
    rw [State.commitBlock_refused hoff hrefused]
    exact only_reject_answers s b

theorem commitBoundaryApplies : CommitBoundaryApplies := by
  intro s a off b hat
  constructor
  · intro hwait hbound htable htide hstack vs nodup
    refine ⟨_, exec_commitBoundary hat s, ?_⟩
    rw [State.boundary_reached hwait hbound, s.putInForce_eq_applyCommit htable htide hstack]
    refine ⟨s.commitPending_applyCommit b, fun e he => s.getReg_applyCommit_mem _ nodup he, Only.intro ?_ rfl rfl (s.regsBut_applyCommit _)⟩
    rw [State.applyCommit_frame]
  · intro h
    exact ⟨_, exec_commitBoundary hat s, State.boundary_not_reached h⟩

/-- The tide block applies its commit, and then takes the committed parent for its own. -/
theorem tideCommit : TideCommit := by
  intro s a off hat hwait hmark vs nodup hstatus
  refine ⟨_, exec_commitBoundary hat s, ?_⟩
  rw [State.boundary_reached hwait (by simpa [State.atBoundary] using hmark)]
  rw [State.putInForce_tide]
  have hcommit := s.applyCommit_frame (commitAddr .tide)
  have hvalues : ∀ e ∈ vs, (s.applyCommit (commitAddr .tide)).getReg e.1 = e.2 := fun e => s.getReg_applyCommit_mem _ nodup
  have hothers := s.regsBut_applyCommit (commitAddr .tide)
  have hpending := s.commitPending_applyCommit .tide
  generalize s.applyCommit (commitAddr .tide) = u at hcommit hvalues hothers hpending ⊢
  refine ⟨hpending, fun e he => ?_, rfl, u.ctrlParent_useCommittedParent.symm,
    u.statusParent_useCommittedParent.trans u.ctrlParent_useCommittedParent.symm, Only.intro ?_ rfl rfl fun k hk => ?_⟩
  · rw [u.getReg_useCommittedParent_other fun h => hstatus (h ▸ List.mem_map_of_mem he), hvalues e he]
  · rw [u.useCommittedParent_frame, hcommit]
  · rw [List.mem_cons, not_or] at hk
    exact (u.getReg_useCommittedParent_other hk.1).trans (hothers k hk.2)

/-- Settles O9, by the equation of each command and what applying a commit leaves in the registers. -/
theorem commitsTakeEffect : Obligations.CommitsTakeEffect := ⟨cfgCommitCaptures, commitBoundaryApplies, tideCommit⟩

end Sys2Proof.Claims
end

section
/-! SUPPORT. The addresses of the blocks, bits and fields of one register, and the registers of a state after a write to one field. -/

namespace Sys2Proof.Machine

/-! ## Where the blocks lie (00 R11) -/

theorem dieWindow_eq (d : Nat) : dieWindow d = 0x0E00_0000_0000 + d * 0x400_0000 := rfl
theorem blockBase_core (c : Nat) : blockBase (.core c) = dieWindow (c / 64) + 0x80_0000 + c % 64 * 0x1_0000 := rfl
theorem blockBase_stack (k : Nat) : blockBase (.stack k) = dieWindow (k / 3) + 0x100_0000 + k % 3 * 0x1_0000 := rfl
theorem blockBase_port (p : Nat) : blockBase (.port p) = dieWindow (5 + p / 8) + 0x40_0000 + p % 8 * 0x1000 := rfl
theorem blockBase_quay (q : Nat) : blockBase (.quay q) = dieWindow (5 + q) + 0xC0_0000 := rfl
theorem blockBase_tide : blockBase .tide = dieWindow 5 + 0x20_0000 := rfl
theorem blockBase_router : blockBase .router = dieWindow 5 + 0x80_0000 := rfl
theorem blockBase_power : blockBase .power = dieWindow 4 + 0x50_0000 := rfl
theorem blockBase_boot : blockBase .boot = dieWindow 4 + 0x40_0000 := rfl
theorem blockBase_hub : blockBase .hub = dieWindow 4 + 0x20_0000 := rfl

/-! ## Bits and fields -/

theorem bit_eq_fld (w : Word) (i : Nat) : bit w i = decide (fld w i 1 = 1) := by
  simp [bit, fld, bits, Nat.testBit_eq_decide_div_mod_eq, Nat.shiftRight_eq_div_pow]

/-- A write to a field leaves a bit outside it as it was. -/
theorem bit_setFld_other (w : Word) (lo len v i : Nat) (h : i < lo ∨ lo + len ≤ i) : bit (setFld w lo len v) i = bit w i := by
  rw [bit_eq_fld, bit_eq_fld, fld_setFld_other _ _ _ _ _ _ (by omega)]

/-- A write to a bit leaves a field without that bit as it was. -/
theorem fld_setBit_other (w : Word) (i : Nat) (b : Bool) (lo len : Nat) (h : lo + len ≤ i ∨ i < lo) :
    fld (setBit w i b) lo len = fld w lo len := fld_setFld_other _ _ _ _ _ _ (by omega)

/-- The field of all 64 bits is the register's number. -/
theorem fld_whole (w : Word) : fld w 0 64 = w.toNat := by
  simp only [fld, bits, Nat.shiftRight_zero]
  exact Nat.mod_eq_of_lt w.isLt

theorem fld_lt (w : Word) (lo len : Nat) : fld w lo len < 2 ^ len := Nat.mod_lt _ (Nat.two_pow_pos len)

section
variable (s : State)

@[simp] theorem State.reg_putBit_same (b : Block) (o i : Nat) (v : Bool) : (s.putBit b o i v).reg b o = setBit (s.reg b o) i v :=
  s.reg_putReg_same b o _

theorem State.reg_putBit_other {b b' : Block} {o o' : Nat} (i : Nat) (v : Bool) (h : blockBase b' + o' ≠ blockBase b + o) :
    (s.putBit b o i v).reg b' o' = s.reg b' o' := s.reg_putReg_other _ h

theorem State.bitAt_putFld_other {b b' : Block} {o o' l n v : Nat} (i : Nat) (h : blockBase b' + o' ≠ blockBase b + o) :
    (s.putFld b o l n v).bitAt b' o' i = s.bitAt b' o' i := by simp [State.bitAt, State.reg_putFld_other, h]

theorem State.bitAt_putFld_bit (b : Block) (o l n v i : Nat) (h : i < l ∨ l + n ≤ i) :
    (s.putFld b o l n v).bitAt b o i = s.bitAt b o i := by
  simp [State.bitAt, bit_setFld_other _ _ _ _ _ h]

theorem State.fldAt_putBit_other {b b' : Block} {o o' : Nat} (i : Nat) (v : Bool) (l n : Nat) (h : blockBase b' + o' ≠ blockBase b + o) :
    (s.putBit b o i v).fldAt b' o' l n = s.fldAt b' o' l n := s.fldAt_putFld_other l n h

theorem State.fldAt_putBit_field (b : Block) (o i : Nat) (v : Bool) (l n : Nat) (h : l + n ≤ i ∨ i < l) :
    (s.putBit b o i v).fldAt b o l n = s.fldAt b o l n := by
  simp [State.fldAt, fld_setBit_other _ _ _ _ _ h]

/-- A register that two states share has the same fields and bits in both. -/
theorem State.fldAt_of_reg {s t : State} {b : Block} {o : Nat} (h : t.reg b o = s.reg b o) (l n : Nat) : t.fldAt b o l n = s.fldAt b o l n :=
  congrArg (fld · l n) h

theorem State.bitAt_of_reg {s t : State} {b : Block} {o : Nat} (h : t.reg b o = s.reg b o) (i : Nat) : t.bitAt b o i = s.bitAt b o i :=
  congrArg (bit · i) h

theorem State.bitAt_eq_fldAt (b : Block) (o i : Nat) : s.bitAt b o i = decide (s.fldAt b o i 1 = 1) := bit_eq_fld _ _

end

end Sys2Proof.Machine

namespace Sys2Proof.Claims

open Sys2Proof.Machine

theorem RegsBut.mono {s t : State} {keys more : List Nat} (h : RegsBut s t keys) (sub : ∀ a ∈ keys, a ∈ more) : RegsBut s t more :=
  fun a ha => h a fun hk => ha (sub a hk)

theorem RegsBut.putFld (s : State) {b : Block} {o : Nat} (l n v : Nat) {keys : List Nat} (h : at_ b o ∈ keys) :
    RegsBut s (s.putFld b o l n v) keys := RegsBut.setReg s _ h

theorem RegsBut.putBit (s : State) {b : Block} {o : Nat} (i : Nat) (v : Bool) {keys : List Nat} (h : at_ b o ∈ keys) :
    RegsBut s (s.putBit b o i v) keys := RegsBut.setReg s _ h

theorem RegsBut.putN (s : State) {b : Block} {o : Nat} (n : Nat) {keys : List Nat} (h : at_ b o ∈ keys) :
    RegsBut s (s.putN b o n) keys := RegsBut.setReg s _ h

theorem RegsBut.reg {s t : State} {keys : List Nat} (h : RegsBut s t keys) {b : Block} {o : Nat} (hk : at_ b o ∉ keys) :
    t.reg b o = s.reg b o := h _ hk

end Sys2Proof.Claims
end

section
/-! SUPPORT. What a write of memory leaves as it was: every field but the memory, its poison, the channels and the reports, and every register but
the channels' own (10 R257, R261, R263). -/

namespace Sys2Proof.Machine

open Sys2Proof.Claims

/-! ## The channel of an address (10 R252) -/

theorem xorFold_lt (b fuel t : Nat) : xorFold b fuel t < 2 ^ b := by
  induction fuel generalizing t with
  | zero => exact Nat.two_pow_pos b
  | succ fuel ih =>
    unfold xorFold
    split
    · exact Nat.two_pow_pos b
    · exact Nat.xor_lt_two_pow (Nat.mod_lt _ (Nat.two_pow_pos b)) (ih _)

/-- The node has 192 channels. -/
theorem State.decodeHbm_channel_lt (s : State) (a : Nat) : (s.decodeHbm a).1 < 192 := by
  unfold State.decodeHbm
  dsimp only
  generalize s.reg .regionTable (0x1000 + 8 * (a / 0x4000_0000)) = e
  generalize (fld e 8 9 * 2 ^ 30 + a % 2 ^ 30) / 256 = g
  have hcd : fld e 2 2 < 4 := fld_lt e 2 2
  have hx : ∀ b t, (g % 2 ^ b) ^^^ xorFold b 20 t < 2 ^ b := fun b t =>
    Nat.xor_lt_two_pow (Nat.mod_lt _ (Nat.two_pow_pos b)) (xorFold_lt b 20 t)
  cases bit e 0 with
  | true => have := hx 6 (g >>> 6); simp only [if_true]; omega
  | false => have := hx 4 (g >>> 4); simp only [Bool.false_eq_true, if_false]; omega

theorem transferKey_mem {ch off : Nat} (hch : ch < 192) (hoff : off ∈ [0x120, 0x128, 0x130, 0x138]) :
    Claims.at_ (groupOf ch) (chOff ch off) ∈ memKeys := by
  rw [memKeys, List.mem_append, transferKeys, List.mem_flatMap]
  exact .inl ⟨ch, List.mem_range.mpr hch, List.mem_map_of_mem hoff⟩

theorem errAddrKey_mem {ch : Nat} (hch : ch < 192) : Claims.at_ (groupOf ch) (chOff ch 0x118) ∈ memKeys := by
  rw [memKeys, List.mem_append]
  right
  exact List.mem_map_of_mem (List.mem_range.mpr hch)

/-- The registers of the channels lie in the last part of a die's window (00 R11). -/
theorem memKeys_high {a : Nat} (h : a ∈ memKeys) : 0x100_0000 ≤ a % 0x400_0000 := by
  have high : ∀ ch off, off ≤ 0x138 → a = Claims.at_ (groupOf ch) (chOff ch off) → 0x100_0000 ≤ a % 0x400_0000 := by
    intro ch off hoff ha
    rw [Claims.at_, groupOf, chOff, blockBase_stack, dieWindow_eq] at ha
    omega
  simp only [memKeys, transferKeys, List.mem_append, List.mem_flatMap, List.mem_map, List.mem_range] at h
  rcases h with ⟨ch, -, off, hoff, e⟩ | ⟨ch, -, e⟩
  · refine high ch off ?_ e.symm
    simp only [List.mem_cons, List.not_mem_nil, or_false] at hoff
    omega
  · exact high ch 0x118 (by decide) e.symm

/-! ## The write -/

/-- What a write of memory may change. -/
structure Memory.Touched (s t : State) : Prop where
  frame : t = { s with regs := t.regs, mem := t.mem, poison := t.poison, channels := t.channels, reports := t.reports }
  regs  : RegsBut s t memKeys

theorem Memory.Touched.refl (s : State) : Memory.Touched s s := ⟨rfl, RegsBut.refl _ _⟩

theorem Memory.Touched.trans {s t u : State} (h : Memory.Touched s t) (k : Memory.Touched t u) : Memory.Touched s u :=
  ⟨k.frame.trans (by rw [h.frame]), h.regs.trans k.regs⟩

/-- An update that writes no register. -/
theorem Memory.Touched.of_frame {s t : State}
    (h : t = { s with mem := t.mem, poison := t.poison, channels := t.channels, reports := t.reports }) : Memory.Touched s t := by
  have hr : t.regs = s.regs := by rw [h]
  exact ⟨by rw [hr]; exact h, RegsBut.of_regs _ hr⟩

theorem Memory.Touched.foldl {α : Type} {f : State → α → State} (hf : ∀ s x, Memory.Touched s (f s x)) (l : List α) (s : State) :
    Memory.Touched s (l.foldl f s) := by
  induction l generalizing s with
  | nil => exact .refl s
  | cons x l ih => exact (hf s x).trans (ih _)

theorem Memory.touched_putReg (s : State) {b : Block} {o : Nat} (v : Word) (h : Claims.at_ b o ∈ memKeys) : Memory.Touched s (s.putReg b o v) :=
  ⟨rfl, RegsBut.setReg s v h⟩

theorem Memory.touched_putBytes (s : State) (a : Nat) (bs : List Byte) : Memory.Touched s (s.putBytes a bs) := by
  induction bs generalizing s a with
  | nil => exact .refl s
  | cons b bs ih =>
    have put : Memory.Touched s (s.putByte a b) := .of_frame rfl
    exact put.trans (ih (s.putByte a b) (a + 1))

theorem Memory.touched_hbmUe (s : State) (a cause : Nat) : Memory.Touched s (s.hbmUe a cause) := by
  have hch := s.decodeHbm_channel_lt (a / 32 * 32)
  have report : ∀ t : State, Memory.Touched t (t.report 0x02 none (hbmDetail (s.decodeHbm (a / 32 * 32)).1 (s.decodeHbm (a / 32 * 32)).2)) :=
    fun t => .of_frame rfl
  have capture : Memory.Touched s (s.captureUe (s.decodeHbm (a / 32 * 32)).1 (s.decodeHbm (a / 32 * 32)).2 cause) := by
    unfold State.captureUe
    split
    · exact .refl s
    · exact Memory.touched_putReg s _ (errAddrKey_mem hch)
  exact capture.trans (report _)

theorem Memory.touched_writePoison (s : State) (p : Bool) (u : Nat × Nat) : Memory.Touched s (s.writePoison p u) := by
  unfold State.writePoison
  split
  · exact .of_frame rfl
  · split
    · exact .of_frame rfl
    · split
      · exact Memory.touched_hbmUe s _ _
      · exact .refl s

theorem Memory.touched_writePiece (s : State) (p : Bool) (a : Nat) (bs : List Byte) : Memory.Touched s (s.writePiece p a bs) := by
  unfold State.writePiece
  split
  · exact .refl s
  · exact (Memory.touched_putBytes s a bs).trans (.foldl (fun s u => Memory.touched_writePoison s p u) _ _)

theorem Memory.touched_writePieces (p : Bool) (bs : List Byte) (s : State) (done : Nat) (ps : List (Nat × Nat)) :
    Memory.Touched s (State.writePieces p bs s done ps) := by
  induction ps generalizing s done with
  | nil => exact .refl s
  | cons q qs ih => exact (Memory.touched_writePiece s p q.1 _).trans (ih _ _)

theorem Memory.touched_countLoss (s : State) {ch : Nat} (hch : ch < 192) (cfg : Word) (m : Moved) :
    Memory.Touched s (s.countLoss ch cfg m) := by
  unfold State.countLoss
  dsimp only
  split
  · refine Memory.Touched.trans (t := if m.turn = 0 then s else s.addWrap (groupOf ch) (chOff ch 0x130) 0 64 m.turn) ?_ ?_
    · split
      · exact .refl s
      · exact Memory.touched_putReg s _ (transferKey_mem hch (by decide))
    · generalize (if m.turn = 0 then s else _) = t
      split
      · exact .refl t
      · exact Memory.touched_putReg t _ (transferKey_mem hch (by decide))
  · exact .refl s

theorem Memory.touched_touchSector (s : State) (write : Bool) {ch : Nat} (hch : ch < 192) (loc : Nat) :
    Memory.Touched s (s.touchSector write ch loc) := by
  unfold State.touchSector
  dsimp only
  have loss : Memory.Touched s
      ((s.setChannel ch ((s.channel ch).access (s.mcCfg ch) write loc).chan).countLoss ch (s.mcCfg ch) ((s.channel ch).access (s.mcCfg ch) write loc)) :=
    (Memory.Touched.of_frame rfl).trans (Memory.touched_countLoss _ hch _ _)
  split
  · exact loss.trans (Memory.touched_putReg _ _ (transferKey_mem hch (by cases write <;> decide)))
  · exact loss

theorem Memory.touched_touchSectors (s : State) (write : Bool) (a n : Nat) : Memory.Touched s (s.touchSectors write a n) := by
  refine .foldl (fun s u => ?_) _ _
  split
  · exact Memory.touched_touchSector s write (s.decodeHbm_channel_lt _) _
  · exact .refl s

theorem Memory.touched_reportLost (s : State) (a n : Nat) : Memory.Touched s (s.reportLost a n) := by
  unfold State.reportLost
  split
  · exact .refl s
  · exact .of_frame rfl

theorem Memory.touched_memWrite (s : State) (a : Nat) (bs : List Byte) (poison : Bool) : Memory.Touched s (s.memWrite a bs poison) := by
  unfold State.memWrite
  split
  · exact ((Memory.touched_writePieces poison bs s 0 _).trans (Memory.touched_touchSectors _ _ _ _)).trans (Memory.touched_reportLost _ _ _)
  · exact .refl s

theorem Memory.touched_updateStatus (s : State) (a : Nat) (f : List Byte → List Byte) : Memory.Touched s (s.updateStatus a f) :=
  Memory.touched_memWrite s a _ false

end Sys2Proof.Machine
end

section
/-! SUPPORT. Changes of the power mode: what they leave as it was, and where they lead (01 R32, 18 R481–R484). -/

namespace Sys2Proof.Machine

open Sys2Proof.Claims

/-! ## Registers that a change of mode does not reach -/

/-- Registers in the first part of a die's window are not the channels' own. -/
theorem not_mem_memKeys {a : Nat} (h : a % 0x400_0000 < 0x100_0000) : a ∉ memKeys :=
  fun hk => absurd (memKeys_high hk) (Nat.not_le.mpr h)

/-- The registers of the power block up to the last rail's telemetry. -/
theorem power_not_mem_memKeys {o : Nat} (h : o < 0x1000) : Claims.at_ .power o ∉ memKeys := by
  apply not_mem_memKeys
  rw [Claims.at_, blockBase_power, dieWindow_eq]
  omega

/-- Two offsets of the power block name two registers. -/
theorem power_ne {o o' : Nat} (h : o' ≠ o) : blockBase .power + o' ≠ blockBase .power + o := by omega

/-! ## PWR_STATUS (18 Table 18-9) -/

theorem State.modeTarget_of_reg {s t : State} (h : t.reg .power 0x000 = s.reg .power 0x000) : t.modeTarget = s.modeTarget := by
  unfold State.modeTarget State.inTransition State.mode State.bitAt State.fldAt
  rw [h]

theorem State.duty_of_reg {s t : State} (h : t.reg .power 0x000 = s.reg .power 0x000) : t.duty = s.duty :=
  State.fldAt_of_reg h 8 7

/-- The target of a transition does not depend on the bits from 5 on. -/
theorem State.modeTarget_putFld (s : State) {lo : Nat} (len v : Nat) (h : 5 ≤ lo) : (s.putFld .power 0x000 lo len v).modeTarget = s.modeTarget := by
  unfold State.modeTarget State.inTransition State.mode
  rw [State.bitAt_putFld_bit _ _ _ _ _ _ _ (by omega), State.fldAt_putFld_field _ _ _ _ _ _ _ _ (by omega),
    State.fldAt_putFld_field _ _ _ _ _ _ _ _ (by omega)]

theorem State.modeTarget_lt (s : State) : s.modeTarget < 4 := by
  unfold State.modeTarget State.mode
  split <;> exact fld_lt _ _ 2

theorem State.duty_setDuty (s : State) (d : Nat) (h : d < 128) : (s.setDuty d).duty = if s.power.capped then min d 16 else d := by
  unfold State.setDuty State.duty
  rw [State.fldAt_putFld_same _ _ _ _ _ _ (by decide)]
  split <;> exact Nat.mod_eq_of_lt (by omega)

theorem State.duty_lt (s : State) : s.duty < 128 := fld_lt _ 8 7

/-! ## The setpoints -/

theorem State.setpoint_writeSetpoints (s : State) (mv : Nat → Nat) (n : Fin 4) : Tab.get 0 (s.writeSetpoints mv).power.setpoints n = mv n := by
  have e : (s.writeSetpoints mv).power.setpoints =
      Tab.set 0 (Tab.set 0 (Tab.set 0 (Tab.set 0 s.power.setpoints 0 (mv 0)) 1 (mv 1)) 2 (mv 2)) 3 (mv 3) := rfl
  rw [e]
  fin_cases n <;> simp [Tab.get_set_other]

/-! ## Voided promises (01 R36) -/

section
variable (s : State) (p : EngineWork → Bool)

/-- The state once VOIDED stands in the status word of the work that a test takes. -/
theorem State.voidWork_eq : ∃ u, Memory.Touched s u ∧ s.voidWork p = { u with work := (s.voidWork p).work } :=
  ⟨_, .foldl (fun s (w : EngineWork) => Memory.touched_updateStatus s w.status fun d => orFlags d 2) _ s, rfl⟩

theorem State.voidWork_frame :
    s.voidWork p = { s with
      regs := (s.voidWork p).regs, mem := (s.voidWork p).mem, poison := (s.voidWork p).poison, channels := (s.voidWork p).channels
      reports := (s.voidWork p).reports, work := (s.voidWork p).work } := by
  obtain ⟨u, hu, e⟩ := s.voidWork_eq p
  rw [e, hu.frame]

theorem State.regsBut_voidWork : RegsBut s (s.voidWork p) memKeys := by
  obtain ⟨u, hu, e⟩ := s.voidWork_eq p
  rw [e]
  exact hu.regs

end

/-! ## What a change of mode may do -/

/-- Beside the promises that it voids, a change of mode moves the clocks and the setpoints, shows its target, and may count in the lifetime record. -/
structure State.ModeChanged (s t : State) : Prop where
  frame  : t = { s with
    power := { s.power with clock := t.power.clock, ceiling := t.power.ceiling, waiting := t.power.waiting, setpoints := t.power.setpoints }
    regs := t.regs, mem := t.mem, poison := t.poison, channels := t.channels, reports := t.reports, work := t.work, life := t.life }
  regs   : RegsBut s t (Claims.at_ .power 0x000 :: memKeys)
  status : ∀ lo len, 5 ≤ lo → t.fldAt .power 0x000 lo len = s.fldAt .power 0x000 lo len

theorem State.ModeChanged.refl (s : State) : s.ModeChanged s := ⟨rfl, RegsBut.refl _ _, fun _ _ _ => rfl⟩

theorem State.ModeChanged.trans {s t u : State} (h : s.ModeChanged t) (k : t.ModeChanged u) : s.ModeChanged u :=
  ⟨k.frame.trans (by rw [h.frame]), h.regs.trans k.regs, fun lo len hlo => (k.status lo len hlo).trans (h.status lo len hlo)⟩

section
variable {s t : State} (h : s.ModeChanged t)
include h

theorem State.ModeChanged.harbour : t.harbour = s.harbour := by rw [h.frame]
theorem State.ModeChanged.heldActs : t.heldActs = s.heldActs := by rw [h.frame]
theorem State.ModeChanged.acc : t.acc = s.acc := by rw [h.frame]
theorem State.ModeChanged.depth : t.power.depth = s.power.depth := by rw [h.frame]
theorem State.ModeChanged.brakeN : t.power.brakeN = s.power.brakeN := by rw [h.frame]
theorem State.ModeChanged.alertN : t.power.alertN = s.power.alertN := by rw [h.frame]

end

theorem State.ModeChanged.duty {s t : State} (h : s.ModeChanged t) : t.duty = s.duty := h.status 8 7 (by decide)

theorem State.ModeChanged.bitAt {s t : State} (h : s.ModeChanged t) {i : Nat} (hi : 5 ≤ i) : t.bitAt .power 0x000 i = s.bitAt .power 0x000 i := by
  rw [State.bitAt_eq_fldAt, State.bitAt_eq_fldAt, h.status i 1 hi]

theorem State.ModeChanged.reg {s t : State} (h : s.ModeChanged t) {b : Block} {o : Nat} (ne : Claims.at_ b o ≠ Claims.at_ .power 0x000)
    (low : Claims.at_ b o % 0x400_0000 < 0x100_0000) : t.reg b o = s.reg b o :=
  h.regs.reg fun hk => (List.mem_cons.mp hk).elim ne (not_mem_memKeys low)

theorem State.modeChanged_voidByClock (s : State) (m mark : Nat) : s.ModeChanged (s.voidByClock m mark) := by
  have hregs : RegsBut s (s.voidByClock m mark) memKeys := s.regsBut_voidWork _
  have hframe := s.voidWork_frame fun w => decide (mark < w.deadline) && decide (modeClock m < w.clock)
  exact ⟨by unfold State.voidByClock; rw [hframe], hregs.mono fun _ => List.mem_cons_of_mem _,
    fun lo len _ => State.fldAt_of_reg (hregs.reg (power_not_mem_memKeys (by decide))) lo len⟩

theorem State.regsBut_startMode (s : State) (m : Nat) {keys : List Nat} (h : Claims.at_ .power 0x000 ∈ keys) : RegsBut s (s.startMode m) keys :=
  RegsBut.trans (t := s.putBit .power 0x000 2 true) (RegsBut.putBit s _ _ h) (RegsBut.putFld (s.putBit .power 0x000 2 true) _ _ _ h)

theorem State.modeChanged_startMode (s : State) (m : Nat) : s.ModeChanged (s.startMode m) := by
  refine ⟨rfl, s.regsBut_startMode m (List.mem_cons_self ..), fun lo len hlo => ?_⟩
  unfold State.startMode
  rw [State.fldAt_putFld_field _ _ _ _ _ _ _ _ (by omega), State.fldAt_putBit_field _ _ _ _ _ _ _ (by omega)]
  rfl

theorem State.modeChanged_lifeAdd (s : State) (off bytes n : Nat) : s.ModeChanged (s.lifeAdd off bytes n) :=
  ⟨rfl, RegsBut.of_regs _ rfl, fun _ _ _ => rfl⟩

theorem State.forceMode_of_ne {s : State} {m : Nat} (h : s.modeTarget ≠ m) (mark : Nat) :
    s.forceMode m mark = (s.voidByClock m mark).startMode m := if_neg h

theorem State.modeChanged_forceMode (s : State) (m mark : Nat) : s.ModeChanged (s.forceMode m mark) := by
  unfold State.forceMode
  split
  · exact .refl s
  · exact (s.modeChanged_voidByClock m mark).trans (State.modeChanged_startMode _ m)

theorem State.modeChanged_protectMode (s : State) (m mark : Nat) : s.ModeChanged (s.protectMode m mark) := by
  unfold State.protectMode
  split
  · exact .refl s
  · exact (s.modeChanged_forceMode m mark).trans (State.modeChanged_lifeAdd _ _ _ _)

theorem State.modeChanged_forceEff (s : State) : s.ModeChanged s.forceEff := by
  unfold State.forceEff
  split
  · exact .refl s
  · exact s.modeChanged_protectMode 2 s.now

/-! ## Where it leads -/

end Sys2Proof.Machine

namespace Sys2Proof.Claims

open Sys2Proof.Machine

/-- The way to a mode is read from the clocks and the setpoints, and from PWR_STATUS. -/
theorem Toward.congr {s s' t t' : State} {m : Nat} (h : Toward s t m) (sclock : s'.power.clock = s.power.clock)
    (sceiling : s'.power.ceiling = s.power.ceiling) (target : t'.modeTarget = t.modeTarget) (clock : t'.power.clock = t.power.clock)
    (ceiling : t'.power.ceiling = t.power.ceiling) (setpoints : t'.power.setpoints = t.power.setpoints) : Toward s' t' m := by
  obtain ⟨ht, hc, hl, hs⟩ := h
  exact ⟨target.trans ht, by rw [clock, hc, sclock], by rw [ceiling, hl, sceiling], fun n => by rw [setpoints, hs n]⟩

end Sys2Proof.Claims

namespace Sys2Proof.Machine

open Sys2Proof.Claims

theorem State.modeTarget_startMode (s : State) {m : Nat} (h : m < 4) : (s.startMode m).modeTarget = m := by
  unfold State.startMode State.modeTarget State.inTransition
  rw [State.bitAt_putFld_bit _ _ _ _ _ _ _ (by decide), State.bitAt_putBit_same _ _ _ _ _ (by decide), if_pos rfl,
    State.fldAt_putFld_same _ _ _ _ _ _ (by decide)]
  exact Nat.mod_eq_of_lt h

theorem State.toward_startMode (s : State) {m : Nat} (h : m < 4) : Toward s (s.startMode m) m :=
  ⟨s.modeTarget_startMode h, rfl, rfl, fun n => s.setpoint_writeSetpoints (fun n => trimmed n (modeMv m)) n⟩

theorem State.toward_forceMode {s : State} {m : Nat} (h : m < 4) (ne : s.modeTarget ≠ m) (mark : Nat) : Toward s (s.forceMode m mark) m := by
  rw [State.forceMode_of_ne ne]
  have hpower : (s.voidByClock m mark).power = s.power := by rw [State.voidByClock, State.voidWork_frame]
  exact (State.toward_startMode _ h).congr (by rw [hpower]) (by rw [hpower]) rfl rfl rfl rfl

/-- A node that is awake or in IDLE, and not on its way to EFF, is forced there (18 R481, R482). -/
theorem State.toward_forceEff {s : State} (depth : s.power.depth < 2) (target : s.modeTarget < 2) : Toward s s.forceEff 2 := by
  have ne : s.modeTarget ≠ 2 := by omega
  rw [State.forceEff, if_neg (Nat.not_le.mpr depth), State.protectMode, if_neg ne]
  exact (State.toward_forceMode (by decide) ne s.now).congr rfl rfl rfl rfl rfl rfl

end Sys2Proof.Machine
end

section
/-! SUPPORT. The commands of power control, of the brake and of transitions, one equation per case (18 R474–R484). -/

namespace Sys2Proof.Machine

open Sys2Proof.Claims

/-! ## POWER_CONTROL_TICK (18 R477) -/

/-- The samples of the mean: the last 100 at most, newest first. -/
def State.powerSamples (s : State) : List Nat := (s.packagePower :: s.power.samples).take 100

/-- The mean of the samples stands above 98 % of the sustained figure. -/
def State.meanHigh (s : State) : Bool := decide (98 * s.sustained * s.powerSamples.length < 100 * sumNat s.powerSamples)

/-- The mean of the samples stands below 95 % of the sustained figure. -/
def State.meanLow (s : State) : Bool := decide (100 * sumNat s.powerSamples < 95 * s.sustained * s.powerSamples.length)

/-- D after a tick outside the hold of a fast cut. -/
def State.steeredDuty (s : State) : Nat := if s.meanHigh then max (s.duty - 1) 4 else if s.meanLow then min (s.duty + 1) 64 else s.duty

/-- The samples in a row over the limit at D = 4. -/
def State.nextOverRun (s : State) : Nat := if s.steeredDuty = 4 ∧ s.meanHigh then s.power.overRun + 1 else 0

/-- What a tick shows: the sample, the mean and D. -/
def State.showTick (s : State) : State :=
  (({ s with power := { s.power with samples := s.powerSamples, overRun := s.nextOverRun } }.putFld .power 0x010 0 32 s.packagePower).putFld
    .power 0x018 0 32 (sumNat s.powerSamples / s.powerSamples.length)).setDuty s.steeredDuty

/-- A tick outside the hold of a fast cut, before the tenth sample in a row over the limit at D = 4, steps no mode down. -/
theorem State.controlTick_eq {s : State} (hcut : s.power.cutUntil = none) (hrun : s.power.overRun < 9) : s.controlTick = s.showTick := by
  have few : ¬ 10 ≤ s.nextOverRun := by unfold State.nextOverRun; split <;> omega
  unfold State.showTick
  unfold State.nextOverRun State.steeredDuty State.meanHigh State.meanLow State.powerSamples at *
  simp only [State.controlTick, hcut, Option.isSome_none, Bool.false_eq_true, if_false, if_neg few]

theorem State.steeredDuty_le {s : State} (h : s.duty ≤ 64) : s.steeredDuty ≤ 64 := by
  unfold State.steeredDuty
  split
  · omega
  · split <;> omega

theorem State.steeredDuty_high {s : State} (h : 98 * s.sustained * s.powerSamples.length < 100 * sumNat s.powerSamples) :
    s.steeredDuty = max (s.duty - 1) 4 := if_pos (decide_eq_true h)

theorem State.steeredDuty_low {s : State} (h : 100 * sumNat s.powerSamples < 95 * s.sustained * s.powerSamples.length) :
    s.steeredDuty = min (s.duty + 1) 64 := by
  have hhigh : s.meanHigh = false := by
    rw [State.meanHigh, decide_eq_false_iff_not]
    rw [Nat.mul_assoc] at h ⊢
    omega
  rw [State.steeredDuty, hhigh, if_neg Bool.false_ne_true, State.meanLow, if_pos (decide_eq_true h)]

theorem State.steeredDuty_between {s : State} (hhigh : 100 * sumNat s.powerSamples ≤ 98 * s.sustained * s.powerSamples.length)
    (hlow : 95 * s.sustained * s.powerSamples.length ≤ 100 * sumNat s.powerSamples) : s.steeredDuty = s.duty := by
  unfold State.steeredDuty State.meanHigh State.meanLow
  rw [decide_eq_false (Nat.not_lt.mpr hhigh), decide_eq_false (Nat.not_lt.mpr hlow)]
  rfl

/-! ## CLOCK_STRETCH (18 R480) -/

theorem State.countDroop_frame (s : State) (die depth : Nat) : s.countDroop die depth = { s with life := (s.countDroop die depth).life } := by
  unfold State.countDroop
  split <;> rfl

/-- The stretched time counts in a register, and the power cause shows the stretch. -/
def State.showStretch (s : State) (o ns : Nat) : State := (s.addWrap .power o 0 64 ns).putBit .power 0x008 4 true

theorem State.regN_showStretch (s : State) {o : Nat} (ns : Nat) (ne : o ≠ 0x008) :
    (s.showStretch o ns).regN .power o = (s.regN .power o + ns) % 2 ^ 64 := by
  have whole : ∀ t : State, t.regN .power o = t.fldAt .power o 0 64 := fun t => (fld_whole _).symm
  rw [whole, whole, State.showStretch, State.fldAt_putBit_other _ _ _ _ _ (power_ne ne), State.addWrap,
    State.fldAt_putFld_same _ _ _ _ _ _ (by decide)]

/-- An excursion of more than 4 % shows its stretch; a droop counts in the lifetime record. -/
theorem State.stretch_deep (s : State) (die ns : Nat) {depth : Nat} (h : 400 < depth) :
    s.stretch die ns depth = { s.showStretch (0x040 + 8 * die) ns with life := (s.stretch die ns depth).life } := by
  unfold State.stretch
  rw [if_neg (Nat.not_le.mpr h)]
  dsimp only
  split
  · exact State.countDroop_frame _ _ _
  · rfl

theorem State.regs_stretch_deep (s : State) (die ns : Nat) {depth : Nat} (h : 400 < depth) :
    (s.stretch die ns depth).regs = (s.showStretch (0x040 + 8 * die) ns).regs := by rw [s.stretch_deep die ns h]

/-! ## The brake (18 R481) -/

/-- PWR_BRAKE_N is low, and PWR_STATUS and the power cause show it. -/
def State.showBrake (s : State) : State :=
  ({ s with power := { s.power with brakeN := false } }.putBit .power 0x000 5 true).putBit .power 0x008 0 true

/-- D stays at most 16 until the transition to EFF is complete. -/
def State.capDuty (s : State) : State := { s with power := { s.power with capped := true } }.setDuty s.duty

theorem State.brake_low {s : State} (h : s.power.porN = false) : s.brake = { s with power := { s.power with brakeN := false } } := by
  simp [State.brake, h]

theorem State.brake_high {s : State} (h : s.power.porN = true) : s.brake = s.showBrake.forceEff.capDuty :=
  if_neg (c := (!s.power.porN) = true) (by simp [h])

theorem State.modeTarget_showBrake (s : State) : s.showBrake.modeTarget = s.modeTarget := by
  unfold State.showBrake
  rw [State.modeTarget_of_reg (State.reg_putBit_other _ _ _ (power_ne (by decide)))]
  exact State.modeTarget_putFld _ 1 _ (by decide)

theorem State.duty_showBrake (s : State) : s.showBrake.duty = s.duty := by
  unfold State.showBrake
  rw [State.duty_of_reg (State.reg_putBit_other _ _ _ (power_ne (by decide)))]
  exact State.fldAt_putBit_field _ _ _ _ _ _ _ (by decide)

theorem State.brakeBit_showBrake (s : State) : s.showBrake.bitAt .power 0x000 5 = true := by
  unfold State.showBrake
  rw [State.bitAt_putBit_other _ _ _ _ (power_ne (by decide))]
  exact State.bitAt_putBit_same _ _ _ _ _ (by decide)

theorem State.brakeCause_showBrake (s : State) : s.showBrake.bitAt .power 0x008 0 = true :=
  State.bitAt_putBit_same _ _ _ _ _ (by decide)

theorem State.duty_capDuty (s : State) : s.capDuty.duty = min s.duty 16 := by
  rw [State.capDuty, State.duty_setDuty _ _ s.duty_lt, if_pos rfl]

theorem State.modeTarget_capDuty (s : State) : s.capDuty.modeTarget = s.modeTarget := State.modeTarget_putFld _ 7 _ (by decide)

/-! ## VR_ALERT_N (18 R482) -/

/-- VR_ALERT_N is low, and PWR_STATUS and the power cause show it. -/
def State.showAlert (s : State) : State :=
  ({ s with power := { s.power with alertN := false } }.putBit .power 0x000 6 true).putBit .power 0x008 1 true

theorem State.alert_high {s : State} (h : s.power.porN = true) : s.alert = s.showAlert.forceEff :=
  if_neg (c := (!s.power.porN) = true) (by simp [h])

theorem State.alert_low {s : State} (h : s.power.porN = false) : s.alert = s := by
  simp [State.alert, h]

theorem State.modeTarget_showAlert (s : State) : s.showAlert.modeTarget = s.modeTarget := by
  unfold State.showAlert
  rw [State.modeTarget_of_reg (State.reg_putBit_other _ _ _ (power_ne (by decide)))]
  exact State.modeTarget_putFld _ 1 _ (by decide)

theorem State.alertBit_showAlert (s : State) : s.showAlert.bitAt .power 0x000 6 = true := by
  unfold State.showAlert
  rw [State.bitAt_putBit_other _ _ _ _ (power_ne (by decide))]
  exact State.bitAt_putBit_same _ _ _ _ _ (by decide)

theorem State.alertCause_showAlert (s : State) : s.showAlert.bitAt .power 0x008 1 = true :=
  State.bitAt_putBit_same _ _ _ _ _ (by decide)

/-! ## Changes that wait for their marks (18 R484, R485) -/

theorem dueMark_before {m : Marked} {now : Nat} (h : now < m.mark) : dueMark [m] now = none := by
  simp [dueMark, leastBy, h]

theorem dueMark_reached {m : Marked} {now : Nat} (h : m.mark ≤ now) : dueMark [m] now = some m := by
  simp [dueMark, leastBy, Option.filter, h]

theorem dropMark_only (m : Marked) : dropMark m [m] = [] := if_pos rfl

/-- No accepted change waits any more. -/
def State.noModes (s : State) : State := { s with harbour := { s.harbour with modes := [] } }

theorem State.modeMark_before {s : State} {m : Marked} (depth : s.power.depth < 2) (modes : s.harbour.modes = [m]) (h : s.now < m.mark) :
    s.modeMark = s := by
  rw [State.modeMark, if_neg (Nat.not_le.mpr depth), modes, dueMark_before h]

/-- At its mark a command's change is dropped, forced, or begun. -/
theorem State.modeMark_reached {s : State} {m : Marked} (depth : s.power.depth < 2) (modes : s.harbour.modes = [m]) (msg : m.msg ≠ [])
    (h : m.mark ≤ s.now) :
    s.modeMark =
      if s.safe || s.brakeBlocks m.value then s.noModes.putBit .power 0x008 5 true
      else if m.forced then s.noModes.forceMode m.value m.mark
      else if s.modeTarget = m.value then s.noModes
      else s.noModes.startMode m.value := by
  have cmd : m.msg.isEmpty = false := by simpa using msg
  rw [State.modeMark, if_neg (Nat.not_le.mpr depth), modes, dueMark_reached h]
  simp only [cmd, dropMark_only, Bool.false_eq_true, if_false]
  rfl

/-! ## READBACK_ROUND (18 R484) -/

/-- The transition is complete: the mode shown is its target, at that mode's clocks. -/
def State.completeMode (s : State) : State :=
  (({ s with power := { s.power with
        capped := false, clock := modeClock s.modeTarget, ceiling := modeCeiling s.modeTarget, waiting := false } }.putFld
      .power 0x000 0 2 s.modeTarget).putBit .power 0x000 2 false).putFld .power 0x000 3 2 0

theorem State.readback_waits {s : State} (h : s.railsSettled = false ∨ 2 ≤ s.power.depth) : s.readback = s := by
  rw [State.readback, if_pos]
  rcases h with h | h <;> simp [h]

theorem State.readback_completes {s : State} (settled : s.railsSettled = true) (depth : s.power.depth < 2) (moving : s.inTransition = true) :
    s.readback = s.completeMode := by
  have still : ({ s with power := { s.power with capped := false } } : State).inTransition = true := moving
  simp only [State.readback, settled, Bool.not_true, Bool.false_or, decide_eq_true_eq, if_neg (Nat.not_le.mpr depth), still,
    Bool.false_eq_true, if_false]
  rfl

theorem State.mode_completeMode (s : State) : s.completeMode.mode = s.modeTarget := by
  unfold State.completeMode State.mode
  rw [State.fldAt_putFld_field _ _ _ _ _ _ _ _ (by decide), State.fldAt_putBit_field _ _ _ _ _ _ _ (by decide),
    State.fldAt_putFld_same _ _ _ _ _ _ (by decide)]
  exact Nat.mod_eq_of_lt s.modeTarget_lt

theorem State.inTransition_completeMode (s : State) : s.completeMode.inTransition = false := by
  unfold State.completeMode State.inTransition
  rw [State.bitAt_putFld_bit _ _ _ _ _ _ _ (by decide), State.bitAt_putBit_same _ _ _ _ _ (by decide)]

theorem State.duty_completeMode (s : State) : s.completeMode.duty = s.duty := by
  unfold State.completeMode State.duty
  rw [State.fldAt_putFld_field _ _ _ _ _ _ _ _ (by decide), State.fldAt_putBit_field _ _ _ _ _ _ _ (by decide),
    State.fldAt_putFld_field _ _ _ _ _ _ _ _ (by decide)]
  rfl

theorem State.regsBut_completeMode (s : State) : RegsBut s s.completeMode [Claims.at_ .power 0x000] := by
  unfold State.completeMode
  refine RegsBut.trans ?_ (RegsBut.putFld _ _ _ _ (List.mem_singleton_self _))
  refine RegsBut.trans ?_ (RegsBut.putBit _ _ _ (List.mem_singleton_self _))
  exact RegsBut.putFld _ _ _ _ (List.mem_singleton_self _)

/-- Register writes after a first one: they change the registers alone. -/
theorem State.putReg_frame (s : State) (b : Block) (o : Nat) (v : Word) (r : Tab Word) :
    { s.putReg b o v with regs := r } = { s with regs := r } := rfl

/-! ## AVS_TELEMETRY_READ (18 R474) -/

/-- The address of a rail's RAIL_TEL. -/
def railKey (r : Nat) : Nat := Claims.at_ .power (0x080 + 8 * r)

/-- RAIL_TEL of a reading. -/
def railWord (x : RailReading) : Word := BitVec.ofNat 64 (x.mv.toNat + x.current.toNat * 2 ^ 16 + x.temp.toNat * 2 ^ 36)

theorem toNat_railWord (x : RailReading) : (railWord x).toNat = x.mv.toNat + x.current.toNat * 2 ^ 16 + x.temp.toNat * 2 ^ 36 := by
  have hm := x.mv.isLt
  have hc := x.current.isLt
  have ht := x.temp.isLt
  rw [railWord, BitVec.toNat_ofNat]
  omega

theorem fld_railWord (x : RailReading) :
    fld (railWord x) 0 16 = x.mv.toNat ∧ fld (railWord x) 16 20 = x.current.toNat ∧ fld (railWord x) 36 8 = x.temp.toNat := by
  have hm := x.mv.isLt
  have hc := x.current.isLt
  have ht := x.temp.isLt
  simp only [fld, bits, toNat_railWord, Nat.shiftRight_eq_div_pow]
  omega

theorem State.readRails_cons (r : Nat) (s : State) (x : RailReading) (xs : List RailReading) :
    State.readRails r s (x :: xs) = State.readRails (r + 1) (s.putReg .power (0x080 + 8 * r) (railWord x)) xs := rfl

theorem State.readRails_frame (l : List RailReading) (r : Nat) (s : State) :
    State.readRails r s l = { s with regs := (State.readRails r s l).regs } := by
  induction l generalizing r s with
  | nil => rfl
  | cons x xs ih =>
    rw [State.readRails_cons, ih]
    exact State.putReg_frame s _ _ _ _

/-- The rails from the first one read on, and no other register, are written. -/
theorem State.getReg_readRails_other {l : List RailReading} {r : Nat} (s : State) {a : Nat}
    (h : ∀ i, r ≤ i → i < r + l.length → a ≠ railKey i) : (State.readRails r s l).getReg a = s.getReg a := by
  induction l generalizing r s with
  | nil => rfl
  | cons x xs ih =>
    rw [List.length_cons] at h
    have rest := ih (r := r + 1) (s.putReg .power (0x080 + 8 * r) (railWord x)) fun i hi hlt => h i (by omega) (by omega)
    exact rest.trans (s.getReg_putReg_other _ (h r (Nat.le_refl r) (by omega)))

theorem State.getReg_readRails_read {l : List RailReading} {r i : Nat} (s : State) {x : RailReading} (h : l[i]? = some x) :
    (State.readRails r s l).getReg (railKey (r + i)) = railWord x := by
  induction l generalizing r i s with
  | nil => simp at h
  | cons y ys ih =>
    rw [State.readRails_cons]
    cases i with
    | zero =>
      obtain rfl : y = x := by simpa using h
      rw [State.getReg_readRails_other _ fun j hj _ => by unfold railKey Claims.at_; omega]
      exact State.getReg_setReg_same s _ _
    | succ i =>
      rw [show r + (i + 1) = r + 1 + i by omega]
      exact ih _ (by simpa using h)

end Sys2Proof.Machine
end

section
/-! Power control, cuts, forced changes and mode transitions (01 R32, 18 R474–R484). -/

namespace Sys2Proof.Claims

open Sys2Proof.Machine

theorem powerControl : PowerControl := by
  intro s hcap hcut hrun hduty samples sum n
  refine ⟨s.controlTick, rfl, ?_⟩
  rw [State.controlTick_eq hcut hrun]
  have hshown : s.showTick.duty = s.steeredDuty := by
    rw [State.showTick, State.duty_setDuty _ _ (Nat.lt_of_le_of_lt (State.steeredDuty_le hduty) (by decide))]
    exact if_neg (by simpa using hcap)
  refine ⟨?_, ?_, fun high => hshown.trans (State.steeredDuty_high high), fun low => hshown.trans (State.steeredDuty_low low),
    fun high low => hshown.trans (State.steeredDuty_between high low), Only.intro rfl rfl rfl ?_⟩
  · rw [State.showTick, State.setDuty, State.fldAt_putFld_other _ _ _ (power_ne (by decide)), State.fldAt_putFld_other _ _ _ (power_ne (by decide))]
    exact State.fldAt_putFld_same _ _ _ _ _ _ (by decide)
  · rw [State.showTick, State.setDuty, State.fldAt_putFld_other _ _ _ (power_ne (by decide))]
    exact State.fldAt_putFld_same _ _ _ _ _ _ (by decide)
  · rw [State.showTick, State.setDuty]
    refine RegsBut.trans ?_ (RegsBut.putFld _ _ _ _ (by simp))
    refine RegsBut.trans ?_ (RegsBut.putFld _ _ _ _ (by simp))
    exact RegsBut.putFld _ _ _ _ (by simp)

theorem sustained_le (s : State) : s.sustained ≤ 2_000_000 := by
  unfold State.sustained modeLimit
  split <;> decide

/-- A cut begins: D is 16, and PWR_STATUS and the power cause show it. -/
theorem fastCut_begins {s : State} {estimate : Nat} (free : s.power.cutUntil = none) (high : min 2_500_000 (s.sustained + 900_000) < estimate) :
    Runs (.fastCut estimate) s fun t =>
      t.duty = 16 ∧ t.bitAt .power 0x000 15 = true ∧ t.bitAt .power 0x008 3 = true ∧ t.power.cutUntil = some (s.clock + 200_000)
        ∧ Only s t { s with power := t.power, regs := t.regs } [at_ .power 0x000, at_ .power 0x008] := by
  refine ⟨s.fastCut estimate, rfl, ?_⟩
  unfold State.fastCut
  dsimp only
  rw [if_pos ⟨.inl high, by rw [free]; rfl⟩]
  refine ⟨?_, ?_, State.bitAt_putBit_same _ _ _ _ _ (by decide), rfl, Only.intro rfl rfl rfl ?_⟩
  · rw [State.duty_of_reg (State.reg_putBit_other _ _ _ (power_ne (by decide))), State.duty, State.fldAt_putBit_field _ _ _ _ _ _ _ (by decide)]
    exact State.fldAt_putFld_same _ _ _ _ _ _ (by decide)
  · rw [State.bitAt_putBit_other _ _ _ _ (power_ne (by decide))]
    exact State.bitAt_putBit_same _ _ _ _ _ (by decide)
  · refine RegsBut.trans ?_ (RegsBut.putBit _ _ _ (by simp))
    refine RegsBut.trans ?_ (RegsBut.putBit _ _ _ (by simp))
    exact RegsBut.putFld _ _ _ _ (by simp)

theorem fastCut_within {s : State} {estimate : Nat} (h : estimate ≤ s.sustained) :
    Runs (.fastCut estimate) s fun t => t = { s with power := { s.power with overSince := none } } := by
  refine ⟨s.fastCut estimate, rfl, ?_⟩
  have low : ¬ min 2_500_000 (s.sustained + 900_000) < estimate := by
    have := sustained_le s
    omega
  have since : ¬ s.sustained < estimate := Nat.not_lt.mpr h
  unfold State.fastCut
  simp only [if_neg since]
  exact if_neg fun hcut => hcut.1.elim low (by simp)

theorem stretch_counts {s : State} (die : Fin 4) (ns : Nat) {depth : Nat} (h : 400 < depth) :
    Runs (.clockStretch die ns depth) s fun t =>
      t.regN .power (0x040 + 8 * die) = (s.regN .power (0x040 + 8 * die) + ns) % 2 ^ 64 ∧ t.bitAt .power 0x008 4 = true
        ∧ Only s t { s with regs := t.regs, life := t.life } [at_ .power (0x040 + 8 * die), at_ .power 0x008] := by
  refine ⟨s.stretch die.val ns depth, rfl, ?_⟩
  have hreg := State.reg_of_regs (s.regs_stretch_deep die ns h) .power
  refine ⟨?_, ?_, Only.intro ?_ rfl rfl ?_⟩
  · rw [State.regN, hreg]
    exact s.regN_showStretch ns (by omega)
  · rw [State.bitAt, hreg]
    exact State.bitAt_putBit_same _ _ _ _ _ (by decide)
  · rw [s.stretch_deep die ns h]; rfl
  · refine RegsBut.trans (t := s.addWrap .power (0x040 + 8 * die) 0 64 ns) (RegsBut.putFld _ _ _ _ (by simp)) ?_
    refine RegsBut.trans (RegsBut.putBit _ 4 true (by simp)) (RegsBut.of_regs _ (s.regs_stretch_deep die ns h))

theorem fastCutHoldEnd_atTime {s : State} {u : Nat} (hcut : s.power.cutUntil = some u) :
    (s.clock < u → Runs .fastCutHoldEnd s fun t => t = s)
    ∧ (u ≤ s.clock →
      Runs .fastCutHoldEnd s fun t =>
        t.power = { s.power with cutUntil := none } ∧ t.bitAt .power 0x000 15 = false
          ∧ Only s t { s with power := t.power, regs := t.regs } [at_ .power 0x000]) := by
  have hend : s.fastCutEnd = if s.clock < u then s else ({ s with power := { s.power with cutUntil := none } }).putBit .power 0x000 15 false := by
    rw [State.fastCutEnd, hcut]
  refine ⟨fun early => ⟨_, rfl, hend.trans (if_pos early)⟩, fun reached => ⟨s.fastCutEnd, rfl, ?_⟩⟩
  rw [hend, if_neg (Nat.not_lt.mpr reached)]
  exact ⟨rfl, State.bitAt_putBit_same _ _ _ _ _ (by decide), Only.intro rfl rfl rfl (RegsBut.putBit _ _ _ (by simp))⟩

theorem fastCuts : FastCuts :=
  ⟨fun _ _ => ⟨fastCut_begins, fastCut_within⟩, fun _ _ => fastCutHoldEnd_atTime,
    fun _ die ns _ => ⟨fun shallow => ⟨_, rfl, if_pos shallow⟩, stretch_counts die ns⟩⟩

/-- The brake caps D and forces EFF. -/
theorem pwrBrake_forces {s : State} (por : s.power.porN = true) :
    Runs .pwrBrake s fun t =>
      t.power.brakeN = false ∧ t.power.capped = true ∧ t.bitAt .power 0x000 5 = true ∧ t.bitAt .power 0x008 0 = true ∧ t.duty = min s.duty 16
        ∧ (s.power.depth < 2 → s.modeTarget < 2 → Toward s t 2) := by
  refine ⟨s.brake, rfl, ?_⟩
  rw [State.brake_high por]
  have forced := s.showBrake.modeChanged_forceEff
  have toward := State.toward_forceEff (s := s.showBrake)
  generalize s.showBrake.forceEff = u at forced toward ⊢
  refine ⟨forced.brakeN, rfl, ?_, ?_, ?_, fun depth target => ?_⟩
  · rw [State.capDuty, State.setDuty, State.bitAt_putFld_bit _ _ _ _ _ _ _ (by decide)]
    exact (forced.bitAt (by decide)).trans s.brakeBit_showBrake
  · rw [State.capDuty, State.setDuty, State.bitAt_putFld_other _ _ (power_ne (by decide))]
    exact (State.bitAt_of_reg (forced.reg (by decide) (by decide)) 0).trans s.brakeCause_showBrake
  · rw [State.duty_capDuty, forced.duty, State.duty_showBrake]
  · exact (toward depth (s.modeTarget_showBrake ▸ target)).congr rfl rfl u.modeTarget_capDuty rfl rfl rfl

theorem vrAlert_forces {s : State} (por : s.power.porN = true) :
    Runs .vrAlert s fun t =>
      t.power.alertN = false ∧ t.bitAt .power 0x000 6 = true ∧ t.bitAt .power 0x008 1 = true
        ∧ (s.power.depth < 2 → s.modeTarget < 2 → Toward s t 2) := by
  refine ⟨s.alert, rfl, ?_⟩
  rw [State.alert_high por]
  have forced := s.showAlert.modeChanged_forceEff
  refine ⟨forced.alertN, (forced.bitAt (by decide)).trans s.alertBit_showAlert,
    (State.bitAt_of_reg (forced.reg (by decide) (by decide)) 1).trans s.alertCause_showAlert, fun depth target => ?_⟩
  exact (State.toward_forceEff (s := s.showAlert) depth (s.modeTarget_showAlert ▸ target)).congr rfl rfl rfl rfl rfl rfl

theorem brakeAndAlert : BrakeAndAlert := by
  refine fun s => ⟨pwrBrake_forces, fun low => ⟨_, rfl, State.brake_low low⟩, ⟨s.brakeOff, rfl, ?_⟩, vrAlert_forces,
    fun low => ⟨_, rfl, State.alert_low low⟩⟩
  exact ⟨rfl, State.bitAt_putBit_same _ _ _ _ _ (by decide), Only.intro rfl rfl rfl (RegsBut.putBit _ _ _ (by simp))⟩

/-- A change that is neither held back nor the mode already aimed at begins at its mark. -/
theorem powerModeMark_begins {s : State} {m : Marked} (depth : s.power.depth < 2) (modes : s.harbour.modes = [m]) (msg : m.msg ≠ [])
    (value : m.value ≤ 2) (mark : m.mark ≤ s.now) (safe : s.safe = false) (brake : s.brakeBlocks m.value = false) (ne : s.modeTarget ≠ m.value) :
    Runs .powerModeMark s fun t => t.harbour.modes = [] ∧ Toward s t m.value ∧ (m.forced = false → SameBytes s t) := by
  have lt : m.value < 4 := by omega
  refine ⟨s.modeMark, rfl, ?_⟩
  rw [State.modeMark_reached depth modes msg mark, if_neg (by simp [safe, brake])]
  cases forced : m.forced with
  | true =>
    have changed := s.noModes.modeChanged_forceMode m.value m.mark
    rw [if_pos rfl]
    exact ⟨congrArg Harbour.modes changed.harbour, (State.toward_forceMode (s := s.noModes) lt ne m.mark).congr rfl rfl rfl rfl rfl rfl,
      fun h => absurd h (by simp)⟩
  | false =>
    rw [if_neg Bool.false_ne_true, if_neg ne]
    exact ⟨rfl, (s.noModes.toward_startMode lt).congr rfl rfl rfl rfl rfl rfl, fun _ => SameBytes.of_eq rfl rfl⟩

theorem powerModeMark_dropped {s : State} {m : Marked} (depth : s.power.depth < 2) (modes : s.harbour.modes = [m]) (msg : m.msg ≠ [])
    (mark : m.mark ≤ s.now) (safe : s.safe = true) :
    Runs .powerModeMark s fun t =>
      t.harbour.modes = [] ∧ t.bitAt .power 0x008 5 = true ∧ Only s t { s with harbour := t.harbour, regs := t.regs } [at_ .power 0x008] := by
  refine ⟨s.modeMark, rfl, ?_⟩
  rw [State.modeMark_reached depth modes msg mark, if_pos (by simp [safe])]
  exact ⟨rfl, State.bitAt_putBit_same _ _ _ _ _ (by decide), Only.intro rfl rfl rfl (RegsBut.putBit s.noModes _ _ (by simp))⟩

theorem avsTelemetryRead_fills (s : State) (rails : List RailReading) :
    Runs (.avsTelemetryRead rails) s fun t =>
      (∀ (r : Fin 11) x, rails[r.val]? = some x →
        t.fldAt .power (0x080 + 8 * r) 0 16 = x.mv.toNat ∧ t.fldAt .power (0x080 + 8 * r) 16 20 = x.current.toNat
          ∧ t.fldAt .power (0x080 + 8 * r) 36 8 = x.temp.toNat)
        ∧ Only s t { s with regs := t.regs } ((List.range 11).map fun r => at_ .power (0x080 + 8 * r)) := by
  refine ⟨State.readRails 0 s (rails.take 11), rfl, fun r x hx => ?_, Only.intro (State.readRails_frame _ _ _) rfl rfl fun a ha => ?_⟩
  · have hread : (State.readRails 0 s (rails.take 11)).reg .power (0x080 + 8 * r) = railWord x := by
      have h := State.getReg_readRails_read (r := 0) (i := r.val) (l := rails.take 11) s (by rw [List.getElem?_take_of_lt r.isLt, hx])
      rwa [Nat.zero_add] at h
    unfold State.fldAt
    rw [hread]
    exact fld_railWord x
  · refine State.getReg_readRails_other s fun i _ hi e => ha (List.mem_map.mpr ⟨i, List.mem_range.mpr ?_, e.symm⟩)
    rw [List.length_take] at hi
    omega

theorem readbackRound_completes {s : State} (settled : s.railsSettled = true) (depth : s.power.depth < 2) (moving : s.inTransition = true) :
    Runs .readbackRound s fun t =>
      t.mode = s.modeTarget ∧ t.inTransition = false ∧ t.power.capped = false ∧ t.power.clock = modeClock s.modeTarget
        ∧ t.power.ceiling = modeCeiling s.modeTarget ∧ t.duty = s.duty ∧ Only s t { s with power := t.power, regs := t.regs } [at_ .power 0x000] := by
  refine ⟨s.readback, rfl, ?_⟩
  rw [State.readback_completes settled depth moving]
  exact ⟨s.mode_completeMode, s.inTransition_completeMode, rfl, rfl, rfl, s.duty_completeMode, Only.intro rfl rfl rfl s.regsBut_completeMode⟩

theorem modeTransitions : ModeTransitions :=
  ⟨fun _ _ depth modes msg value =>
      ⟨fun early => ⟨_, rfl, State.modeMark_before depth modes early⟩, powerModeMark_begins depth modes msg value,
        powerModeMark_dropped depth modes msg⟩,
    fun _ => ⟨readbackRound_completes, fun waits => ⟨_, rfl, State.readback_waits waits⟩⟩, avsTelemetryRead_fills⟩

/-- Settles O60, by the equation of each command of power control, the brake and a transition, and what a change of mode may do. -/
theorem powerAndModes : Obligations.PowerAndModes := ⟨powerControl, fastCuts, brakeAndAlert, modeTransitions⟩

end Sys2Proof.Claims
end

section
/-! SUPPORT. What a reply of the harbourmaster leaves as it was, wherever it is posted (14 R383, R390, 12 R336, R340, 11 R300–R304). -/

namespace Sys2Proof.Machine

open Sys2Proof.Claims

/-- The registers that a reply may write: the drop counts and DROP_CAP of the router, WAKE_CAUSE of the core that owns the berth, and the tray
registers of the quay that finds a node dead. -/
def replyKeys : List Nat :=
  sendKeys ++ (List.range 256).map (fun c => Claims.at_ (.core c) 0x030)
    ++ (List.range 2).flatMap fun q => [0x038, 0x040, 0x140].map (Claims.at_ (.quay q))

/-- A register where no router count, core or quay has one that a reply writes. -/
theorem not_mem_replyKeys {a : Nat} (high : dieWindow 4 ≤ a) (low : a % 0x400_0000 < 0x80_0028) : a ∉ replyKeys := by
  rw [dieWindow_eq] at high
  intro h
  rw [replyKeys, List.mem_append, List.mem_append, sendKeys, List.mem_cons] at h
  rcases h with ((e | h) | h) | h
  · rw [Claims.at_, blockBase_router, dieWindow_eq] at e
    omega
  · obtain ⟨k, hk, e⟩ := List.mem_map.mp h
    rw [List.mem_range] at hk
    rw [Claims.at_, blockBase_router, dieWindow_eq] at e
    omega
  · obtain ⟨c, hc, e⟩ := List.mem_map.mp h
    rw [List.mem_range] at hc
    rw [Claims.at_, blockBase_core, dieWindow_eq] at e
    omega
  · obtain ⟨q, hq, h⟩ := List.mem_flatMap.mp h
    obtain ⟨o, ho, e⟩ := List.mem_map.mp h
    rw [List.mem_range] at hq
    rw [Claims.at_, blockBase_quay, dieWindow_eq] at e
    simp only [List.mem_cons, List.not_mem_nil, or_false] at ho
    omega

theorem sendKey_mem_replyKeys {a : Nat} (h : a ∈ sendKeys) : a ∈ replyKeys := by
  rw [replyKeys, List.mem_append, List.mem_append]
  exact .inl (.inl h)

theorem wakeKey_mem_replyKeys {c : Nat} (h : c < 256) : Claims.at_ (.core c) 0x030 ∈ replyKeys := by
  rw [replyKeys, List.mem_append, List.mem_append]
  left
  right
  exact List.mem_map_of_mem (List.mem_range.mpr h)

theorem trayKey_mem_replyKeys {q o : Nat} (hq : q < 2) (ho : o ∈ [0x038, 0x040, 0x140]) : Claims.at_ (.quay q) o ∈ replyKeys := by
  rw [replyKeys, List.mem_append, List.mem_flatMap]
  right
  exact ⟨q, List.mem_range.mpr hq, List.mem_map_of_mem ho⟩

/-- What a reply may change. -/
structure State.Replied (s t : State) : Prop where
  frame : t = { s with
    regs := t.regs, harts := t.harts, berths := t.berths, discards := t.discards, tray := t.tray, trayNext := t.trayNext, ports := t.ports
    arrived := t.arrived, reports := t.reports, ckpt := t.ckpt, draws := t.draws
    harbour := { s.harbour with replies := t.harbour.replies } }
  regs : RegsBut s t replyKeys

namespace State.Replied

theorem refl (s : State) : s.Replied s := ⟨rfl, RegsBut.refl _ _⟩

theorem trans {s t u : State} (h : s.Replied t) (k : t.Replied u) : s.Replied u :=
  ⟨k.frame.trans (by rw [h.frame]), h.regs.trans k.regs⟩

/-- An update that writes no register. -/
theorem of_frame {s t : State}
    (h : t = { s with
      harts := t.harts, berths := t.berths, discards := t.discards, tray := t.tray, trayNext := t.trayNext, ports := t.ports
      arrived := t.arrived, reports := t.reports, ckpt := t.ckpt, draws := t.draws
      harbour := { s.harbour with replies := t.harbour.replies } }) : s.Replied t := by
  have hr : t.regs = s.regs := by rw [h]
  exact ⟨by rw [hr]; exact h, RegsBut.of_regs _ hr⟩

theorem putReg (s : State) {b : Block} {o : Nat} (v : Word) (h : Claims.at_ b o ∈ replyKeys) : s.Replied (s.putReg b o v) :=
  ⟨rfl, RegsBut.setReg s v h⟩

end State.Replied

/-! ## A message at a berth of the node (14 R379–R384) -/

theorem State.replied_signal (s : State) (owner : Nat) : s.Replied (s.signal owner false) := by
  unfold State.signal
  split
  · next h => exact .putReg s _ (wakeKey_mem_replyKeys h)
  · split
    · exact .of_frame rfl
    · exact .refl s

theorem State.replied_setBerth (s : State) (b : Nat) (r : Berth) : s.Replied (s.setBerth b r) := .of_frame rfl

theorem State.replied_discardMsg (s : State) (b cause : Nat) (m : List Byte) : s.Replied (s.discardMsg b cause m) := by
  unfold State.discardMsg
  dsimp only
  split
  · exact .of_frame rfl
  · exact s.replied_setBerth b _

theorem State.replied_nodePost (s : State) (b : Nat) (m : List Byte) : s.Replied (s.nodePost b m).1 := by
  unfold State.nodePost
  dsimp only
  split
  · exact .refl s
  · split
    · exact (s.replied_setBerth b _).trans (State.replied_discardMsg _ b 2 m)
    · exact (s.replied_setBerth b _).trans (State.replied_signal _ _)

/-! ## A packet of the node's own quay (11 R300–R304) -/

theorem State.replied_dropPkt (s : State) {cause : Nat} (h : cause < 5) (pkt : Packet) (port : Nat) : s.Replied (s.dropPkt cause pkt port) := by
  have count : s.Replied (s.addSat .router (0x040 + 8 * cause) 0 32 1) := by
    refine .putReg s _ (sendKey_mem_replyKeys ?_)
    rw [sendKeys, List.mem_cons]
    right
    exact List.mem_map_of_mem (f := fun c => Claims.at_ .router (0x040 + 8 * c)) (List.mem_range.mpr h)
  unfold State.dropPkt
  dsimp only
  split
  · exact count
  · exact count.trans (.putReg _ _ (sendKey_mem_replyKeys (List.mem_cons_self ..)))

/-- A packet that came over no link holds no input buffer. -/
theorem State.release_own (s : State) {w : Waiting} (h : w.port = 16) : s.release w = s := by
  simp [State.release, h]

theorem State.replied_dropWaiting (s : State) {cause : Nat} (hc : cause < 5) {w : Waiting} (h : w.port = 16) : s.Replied (s.dropWaiting cause w) := by
  rw [State.dropWaiting, State.release_own _ h]
  exact s.replied_dropPkt hc _ _

theorem State.replied_sendOn (s : State) {w : Waiting} (h : w.port = 16) (p : Nat) : s.Replied (s.sendOn w p) := by
  unfold State.sendOn
  split
  · exact .of_frame rfl
  · exact s.replied_dropWaiting (by decide) h

/-- A drop has one of the five causes of 11 R304. -/
def Hop.causeListed : Hop → Bool
  | .drop c => decide (c < 5)
  | _ => true

theorem Hop.causeListed_drop (c : Nat) : (Hop.drop c).causeListed = decide (c < 5) := rfl
theorem Hop.causeListed_deliver (pkt : Packet) : (Hop.deliver pkt).causeListed = true := rfl
theorem Hop.causeListed_send (pkt : Packet) (p : Nat) : (Hop.send pkt p).causeListed = true := rfl

theorem routeEscape_causeListed (e : Nat) (pkt : Packet) : (routeEscape e pkt).causeListed = true := by
  unfold routeEscape
  split
  · rfl
  · split <;> rfl

theorem State.routePkt_causeListed (s : State) (pkt : Packet) (bank : Nat) : (s.routePkt pkt bank).causeListed = true := by
  unfold State.routePkt
  dsimp only
  repeat' split
  all_goals simp only [Hop.causeListed_drop, Hop.causeListed_deliver, Hop.causeListed_send, routeEscape_causeListed, Nat.reduceLT, decide_true]

theorem State.routePkt_drop_lt {s : State} {pkt : Packet} {bank c : Nat} (h : s.routePkt pkt bank = .drop c) : c < 5 := by
  have listed := s.routePkt_causeListed pkt bank
  rw [h] at listed
  exact of_decide_eq_true listed

/-- An escape counts at the port that a packet came in on, and one of the node's own quay came in on none. -/
theorem State.countEscape_own (s : State) {w : Waiting} (h : w.port = 16) (vc : Nat) : s.countEscape w.port vc = s := by
  rw [h]; rfl

theorem State.replied_forward (s : State) {w : Waiting} (h : w.port = 16) : s.Replied (s.forward w) := by
  unfold State.forward
  split
  · next hc => exact s.replied_dropWaiting (State.routePkt_drop_lt hc) h
  · next q _ =>
    rw [State.release_own _ h]
    unfold State.deliverPkt
    split
    · exact .refl s
    · exact .of_frame rfl
  · next q p _ =>
    rw [State.countEscape_own _ h, ite_self]
    exact s.replied_sendOn (w := { w with pkt := q }) h p

theorem State.replied_inject (s : State) (pkt : Packet) : s.Replied (s.inject pkt) :=
  State.Replied.trans (t := s.drawn) (.of_frame rfl) (State.replied_forward _ rfl)

/-! ## A tray request (12 R336, R340) -/

theorem State.trayRoute_lt {s : State} {node p : Nat} (h : s.trayRoute node = some p) : p < 16 := by
  unfold State.trayRoute at h
  dsimp only at h
  split at h
  · cases h
  · have hp := List.mem_of_getElem? h
    unfold State.upPorts allPorts at hp
    split at hp <;> exact List.mem_range.mp (List.mem_filter.mp hp).1

theorem State.replied_deadDest (s : State) (node : Nat) : s.Replied (s.deadDest node) := by
  unfold State.deadDest
  split
  · exact .refl s
  · dsimp only
    split
    · exact .of_frame rfl
    · exact .refl s

theorem State.replied_captureTray (s : State) {quay : Nat} (h : quay < 2) (addr kind : Nat) : s.Replied (s.captureTray quay addr kind) := by
  unfold State.captureTray
  split
  · exact .refl s
  · exact .putReg s _ (trayKey_mem_replyKeys h (by decide))

/-- A reply to a dead node ends there. -/
theorem State.replied_dieTray (s : State) {quay : Nat} (h : quay < 2) {r : TrayReq} {node berth since : Nat} {msg : List Byte}
    (owner : r.owner = .reply node berth msg since) : s.Replied (s.dieTray quay r) := by
  have dead : ∀ t : State, t.deadOwner r = t := fun t => by rw [State.deadOwner, owner]
  have report : ∀ t : State, t.Replied (t.report 0x1C none (trayDetail r.target quay r.kind)) := fun t => .of_frame rfl
  rw [State.dieTray, dead]
  refine State.Replied.trans ?_ (State.replied_deadDest _ _)
  refine State.Replied.trans ?_ (report _)
  refine State.Replied.trans ?_ (State.replied_captureTray _ h _ _)
  refine State.Replied.trans (t := s.putBit (.quay quay) 0x038 (r.target % 8) true) ?_ ?_
  · exact .putReg s _ (trayKey_mem_replyKeys h (by decide))
  · exact .putReg _ _ (trayKey_mem_replyKeys h (by decide))

/-- A request that leaves for its node is outstanding. -/
theorem State.replied_sendTray (s : State) (r : TrayReq) (pkt : Packet) :
    s.Replied (({ s with tray := s.tray ++ [r], trayNext := s.trayNext + 1 } : State).inject pkt) :=
  State.Replied.trans (.of_frame rfl) (State.replied_inject _ _)

theorem State.replied_issueTray (s : State) (node berth since : Nat) (msg : List Byte) (w : Sender) (c : TrayCall) :
    s.Replied (s.issueTray (.reply node berth msg since) w c true) := by
  unfold State.issueTray
  dsimp only
  cases route : s.trayRoute (bits c.addr 44 3) with
  | none =>
    rw [if_pos (by simp)]
    exact s.replied_dieTray (by decide) rfl
  | some p =>
    have hquay : p / 8 < 2 := Nat.div_lt_of_lt_mul (State.trayRoute_lt route)
    dsimp only
    split
    · exact s.replied_dieTray hquay rfl
    · exact s.replied_sendTray _ _

/-! ## The reply (14 R390) -/

theorem State.replied_postTo (s : State) (node berth : Nat) (r : List Byte) (since : Nat) : s.Replied (s.postTo node berth r since) := by
  unfold State.postTo
  split
  · have posted := s.replied_nodePost berth r
    split
    · next t h => rwa [h] at posted
    · next t h =>
      rw [h] at posted
      exact posted.trans (.of_frame rfl)
  · exact s.replied_issueTray _ _ _ _ _ _

theorem State.replied_replyTo (s : State) (m : List Byte) (result : Nat) (body : List Byte) : s.Replied (s.replyTo m result body) := by
  unfold State.replyTo
  dsimp only
  split
  · exact s.replied_postTo _ _ _ _
  · exact .refl s

end Sys2Proof.Machine
end

section
/-! SUPPORT. The ways into and out of the sleep depths (01 Table 1-9, R37, 11 R287, 17 R449, 18 R485, R486). -/

namespace Sys2Proof.Machine

open Sys2Proof.Claims

/-! ## The ports in HOLD (11 R287) -/

theorem port_ne {p q : Nat} (hp : p < 16) (hq : q < 16) (h : p ≠ q) (o : Nat) : blockBase (.port p) + o ≠ blockBase (.port q) + o := by
  rw [blockBase_port, blockBase_port, dieWindow_eq, dieWindow_eq]
  omega

/-- The registers of the ports' first pages lie in the first part of their dies' windows, away from the PD's. -/
theorem port_low (p : Nat) {o : Nat} (ho : o < 0x1000) : Claims.at_ (.port p) o % 0x400_0000 < 0x80_0000 := by
  rw [Claims.at_, blockBase_port, dieWindow_eq]
  omega

theorem port_above (p o : Nat) : dieWindow 5 ≤ Claims.at_ (.port p) o := by
  rw [Claims.at_, blockBase_port, dieWindow_eq, dieWindow_eq]
  omega

theorem port_ne_power (p o : Nat) {o' : Nat} (ho : o' < 0x1000) : Claims.at_ (.port p) o ≠ Claims.at_ .power o' := by
  have above := port_above p o
  rw [dieWindow_eq] at above
  intro e
  rw [e, Claims.at_, blockBase_power, dieWindow_eq] at above
  omega

theorem port_not_mem_replyKeys (p : Nat) {o : Nat} (ho : o < 0x1000) : Claims.at_ (.port p) o ∉ replyKeys :=
  not_mem_replyKeys (Nat.le_trans (by decide) (port_above p o)) (Nat.lt_trans (port_low p ho) (by decide))

/-- What one port does when the ports go into HOLD or come back. -/
def State.holdPort (hold : Bool) (s : State) (p : Nat) : State :=
  if hold && s.portState p == 2 then s.setPortState p 3 else if !hold && s.portState p == 3 then s.setPortState p 2 else s

/-- The state that a port is left in. -/
def heldState (hold : Bool) (v : Nat) : Nat := if hold && v == 2 then 3 else if !hold && v == 3 then 2 else v

theorem State.holdPorts_eq (s : State) (hold : Bool) : s.holdPorts hold = allPorts.foldl (State.holdPort hold) s := rfl

theorem State.portState_setPortState_same (s : State) (p : Nat) {v : Nat} (h : v < 8) : (s.setPortState p v).portState p = v :=
  (State.fldAt_putFld_same _ _ _ _ _ _ (by decide)).trans (Nat.mod_eq_of_lt h)

theorem State.portState_holdPort_same (s : State) (hold : Bool) (p : Nat) : (s.holdPort hold p).portState p = heldState hold (s.portState p) := by
  unfold State.holdPort heldState
  split
  · exact s.portState_setPortState_same p (by decide)
  · split
    · exact s.portState_setPortState_same p (by decide)
    · rfl

theorem State.portState_holdPort_other (s : State) (hold : Bool) {p q : Nat} (hp : p < 16) (hq : q < 16) (h : p ≠ q) :
    (s.holdPort hold q).portState p = s.portState p := by
  unfold State.holdPort
  split
  · exact State.fldAt_putFld_other _ 0 3 (port_ne hp hq h _)
  · split
    · exact State.fldAt_putFld_other _ 0 3 (port_ne hp hq h _)
    · rfl

theorem State.portState_foldl_holdPort_other (hold : Bool) {l : List Nat} (small : ∀ q ∈ l, q < 16) {p : Nat} (hp : p < 16) (h : p ∉ l) (s : State) :
    (l.foldl (State.holdPort hold) s).portState p = s.portState p := by
  induction l generalizing s with
  | nil => rfl
  | cons q l ih =>
    rw [List.mem_cons, not_or] at h
    exact (ih (fun x hx => small x (List.mem_cons_of_mem _ hx)) h.2 (s.holdPort hold q)).trans
      (s.portState_holdPort_other hold hp (small q (List.mem_cons_self ..)) h.1)

theorem State.portState_foldl_holdPort (hold : Bool) {l : List Nat} (nodup : l.Nodup) (small : ∀ q ∈ l, q < 16) {p : Nat} (h : p ∈ l) (s : State) :
    (l.foldl (State.holdPort hold) s).portState p = heldState hold (s.portState p) := by
  induction l generalizing s with
  | nil => simp at h
  | cons q l ih =>
    rw [List.nodup_cons] at nodup
    have small' : ∀ x ∈ l, x < 16 := fun x hx => small x (List.mem_cons_of_mem _ hx)
    have hq := small q (List.mem_cons_self ..)
    rw [List.foldl_cons]
    rcases List.mem_cons.mp h with rfl | hl
    · rw [State.portState_foldl_holdPort_other hold small' hq nodup.1, State.portState_holdPort_same]
    · have ne : p ≠ q := fun e => nodup.1 (e ▸ hl)
      rw [ih nodup.2 small' hl, s.portState_holdPort_other hold (small' p hl) hq ne]

/-- Every port goes into HOLD, or comes back, by its own state alone. -/
theorem State.portState_holdPorts (s : State) (hold : Bool) (p : Fin 16) : (s.holdPorts hold).portState p = heldState hold (s.portState p) := by
  rw [State.holdPorts_eq]
  exact State.portState_foldl_holdPort hold List.nodup_range (fun q hq => List.mem_range.mp hq) (List.mem_range.mpr p.isLt) s

theorem State.holdPorts_frame (s : State) (hold : Bool) : s.holdPorts hold = { s with regs := (s.holdPorts hold).regs } := by
  rw [State.holdPorts_eq]
  generalize allPorts = l
  induction l generalizing s with
  | nil => rfl
  | cons p l ih =>
    have step : s.holdPort hold p = { s with regs := (s.holdPort hold p).regs } := by
      unfold State.holdPort
      split
      · rfl
      · split <;> rfl
    rw [List.foldl_cons, ih, step]

theorem State.power_holdPorts (s : State) (hold : Bool) : (s.holdPorts hold).power = s.power := by rw [s.holdPorts_frame]

/-! ## Awake (01 Table 1-9, 02 R64) -/

theorem State.deliverAwake_none {s : State} (h : s.heldActs = []) : s.deliverAwake = s := by
  have none : ({ s with heldActs := [] } : State) = s := by rw [← h]
  unfold State.deliverAwake State.deliverHeld
  rw [h, none]
  split <;> rfl

/-- From IDLE a node that holds no action is awake at once. -/
theorem State.awake_fromIdle {s : State} (h : s.power.depth = 1) (acts : s.heldActs = []) :
    s.wakeNode.deliverAwake = { s with power := { s.power with depth := 0 } } := by
  rw [State.wakeNode, if_pos h]
  exact State.deliverAwake_none acts

/-- Awake in a mode: the setpoints are those of the mode, and the accumulators are lost. -/
def State.awakeIn (s : State) (m : Nat) : State :=
  let u := s.modeSetpoints m
  { u with power := { u.power with depth := 0 }, acc := [], accPoison := [] }

/-- The node left DOZE, with its ports back. -/
def State.leaveDoze (s : State) : State := (s.holdPorts false).awakeIn s.modeTarget

theorem State.wakeNode_doze {s : State} (h : s.power.depth = 2) :
    s.wakeNode = if s.leaveDoze.power.brakeN then s.leaveDoze else s.leaveDoze.protectMode 2 s.leaveDoze.now := by
  rw [State.wakeNode, if_neg (by omega), if_pos h]
  rfl

/-- Beyond leaving DOZE, a wake may force EFF (18 R485). -/
theorem State.modeChanged_wakeNode {s : State} (h : s.power.depth = 2) : s.leaveDoze.ModeChanged s.wakeNode := by
  rw [State.wakeNode_doze h]
  split
  · exact .refl _
  · exact State.modeChanged_protectMode _ 2 _

theorem State.depth_awakeIn (s : State) (m : Nat) : (s.awakeIn m).power.depth = 0 := by rfl
theorem State.acc_awakeIn (s : State) (m : Nat) : (s.awakeIn m).acc = [] := by rfl
theorem State.brakeN_awakeIn (s : State) (m : Nat) : (s.awakeIn m).power.brakeN = s.power.brakeN := by rfl
theorem State.heldActs_awakeIn (s : State) (m : Nat) : (s.awakeIn m).heldActs = s.heldActs := by rfl
theorem State.regs_awakeIn (s : State) (m : Nat) : (s.awakeIn m).regs = s.regs := by rfl
theorem State.portState_awakeIn (s : State) (m p : Nat) : (s.awakeIn m).portState p = s.portState p :=
  State.fldAt_of_reg (State.reg_of_regs (s.regs_awakeIn m) _ _) 0 3

theorem State.setpoint_awakeIn (s : State) (m : Nat) (n : Fin 4) : Tab.get 0 (s.awakeIn m).power.setpoints n = trimmed n (modeMv m) :=
  s.setpoint_writeSetpoints (fun n => trimmed n (modeMv m)) n

theorem State.depth_leaveDoze (s : State) : s.leaveDoze.power.depth = 0 := State.depth_awakeIn _ _

theorem State.acc_leaveDoze (s : State) : s.leaveDoze.acc = [] := State.acc_awakeIn _ _

theorem State.brakeN_leaveDoze (s : State) : s.leaveDoze.power.brakeN = s.power.brakeN := by
  rw [State.leaveDoze, State.brakeN_awakeIn, State.power_holdPorts]

theorem State.heldActs_leaveDoze (s : State) : s.leaveDoze.heldActs = s.heldActs := by
  rw [State.leaveDoze, State.heldActs_awakeIn, State.holdPorts_frame]

theorem State.portState_leaveDoze (s : State) (p : Fin 16) : s.leaveDoze.portState p = heldState false (s.portState p) := by
  rw [State.leaveDoze, State.portState_awakeIn, State.portState_holdPorts]

theorem State.wake_none {s : State} {w : WakeSource} (h : wakes s.power.depth w = false) : s.wake w = s := by
  rw [State.wake, h]; rfl

theorem State.wake_some {s : State} {w : WakeSource} (h : wakes s.power.depth w = true) : s.wake w = s.wakeFrom.deliverAwake := by
  rw [State.wake, h]; rfl

theorem State.wakeFrom_deep {s : State} (h : s.power.depth = 3) : s.wakeFrom = { s with power := { s.power with wakeHeld := true } } := if_pos h

theorem State.wakeFrom_light {s : State} (h : s.power.depth ≠ 3) : s.wakeFrom = s.wakeNode := if_neg h

theorem State.deliverAwake_asleep {s : State} (h : s.power.depth ≠ 0) : s.deliverAwake = s := if_neg h

/-! ## DOZE (18 R485) -/

/-- The rails of DOZE. -/
def State.dozing (s : State) : State :=
  let u := s.writeSetpoints fun _ => 550
  { u with power := { u.power with depth := 2 } }

theorem State.enterDoze_eq (s : State) : s.enterDoze = (s.holdPorts true).dozing := rfl

theorem State.dozing_frame (s : State) : s.dozing = { s with power := s.dozing.power } := by rfl

theorem State.depth_dozing (s : State) : s.dozing.power.depth = 2 := by rfl

theorem State.portState_dozing (s : State) (p : Nat) : s.dozing.portState p = s.portState p :=
  State.fldAt_of_reg (State.reg_of_regs (by rw [s.dozing_frame]) _ _) 0 3

theorem State.sameBytes_dozing (s : State) : SameBytes s s.dozing := by
  rw [s.dozing_frame]
  exact SameBytes.of_eq rfl rfl

theorem State.setpoint_dozing (s : State) (n : Fin 4) : Tab.get 0 s.dozing.power.setpoints n = 550 :=
  s.setpoint_writeSetpoints (fun _ => 550) n

theorem State.sameBytes_holdPorts (s : State) (hold : Bool) : SameBytes s (s.holdPorts hold) := by
  rw [s.holdPorts_frame]
  exact SameBytes.of_eq rfl rfl

/-! ## DEEP (17 R449, 18 R486) -/

theorem State.lifePut_frame (s : State) (off : Nat) (bytes : List Byte) : s.lifePut off bytes = { s with life := (s.lifePut off bytes).life } := by rfl

theorem State.lifeAdd_frame (s : State) (off bytes n : Nat) : s.lifeAdd off bytes n = { s with life := (s.lifeAdd off bytes n).life } := by rfl

theorem State.writeLifetime_frame (s : State) : s.writeLifetime = { s with life := s.writeLifetime.life } := by
  have written : ∃ life, s.writeLifetime = { s with life := life } := by
    unfold State.writeLifetime
    extract_lets c seq s1 s2 s3 cells others nvm digest
    have counted : s3 = { s with life := s3.life } := by
      have h1 : s1 = { s with life := s1.life } := s.lifeAdd_frame _ _ _
      have h2 : s2 = { s1 with life := s2.life } := s1.lifePut_frame _ _
      have h3 : s3 = { s2 with life := s3.life } := s2.lifePut_frame _ _
      clear_value s1 s2 s3
      rw [h3, h2, h1]
    clear_value s3 cells others nvm digest
    rw [counted]
    exact ⟨_, rfl⟩
  obtain ⟨life, e⟩ := written
  rw [e]

/-- The retention words and the lifetime record are written. -/
def State.retain (s : State) : State := { s with power := { s.power with retention := s.retained } }.writeLifetime

theorem State.retain_frame (s : State) :
    s.retain = { s with power := { s.power with retention := s.retained }, life := s.retain.life } := by
  rw [State.retain, State.writeLifetime_frame]

/-- The node in DEEP: what a loss of power leaves, with SLP_DEEP_N low. -/
def State.sunk (s : State) (from_ : Nat) : State := { s with power := { s.power with depth := 3, deepFrom := from_, slpDeepN := false } }

theorem State.enterDeep_eq (s : State) : s.enterDeep = s.retain.powerOff.sunk s.retain.clock := rfl

theorem State.clock_of_eq {s t : State} (regs : t.regs = s.regs) (tide : t.tide = s.tide) : t.clock = s.clock := by
  rw [State.clock, State.clock, State.now, State.now, State.regN, State.regN, State.reg_of_regs regs, tide]

theorem State.regs_retain (s : State) : s.retain.regs = s.regs := by rw [s.retain_frame]

theorem State.clock_retain (s : State) : s.retain.clock = s.clock := State.clock_of_eq s.regs_retain (by rw [s.retain_frame])

/-- The always-on island lies in the tide block. -/
theorem islandKey_bounds {a : Nat} (h : islandKey a = true) : blockBase .tide ≤ a ∧ a ≤ blockBase .tide + 0x320 := by
  simp only [islandKey, Bool.or_eq_true, beq_iff_eq, Bool.and_eq_true, decide_eq_true_eq] at h
  omega

/-- A loss of power leaves the always-on island alone (18 R488). -/
theorem State.island_powerOff (s : State) {a : Nat} (h : islandKey a = true) : s.powerOff.getReg a = s.getReg a := by
  have tide := islandKey_bounds h
  rw [blockBase_tide, dieWindow_eq] at tide
  have hub : a ≠ blockBase .hub + 0x010 := by rw [blockBase_hub, dieWindow_eq]; omega
  have boot : a ≠ blockBase .boot + 0x000 := by rw [blockBase_boot, dieWindow_eq]; omega
  unfold State.powerOff
  dsimp only
  rw [State.getReg_putReg_other _ _ hub, State.putFld, State.getReg_putReg_other _ _ boot]
  have kept := Tab.get_dropKeys (regDefault a) s.regs (fun k => !islandKey k) a
  simp only [Tab.dropKeys, Bool.not_not, h, Bool.not_true, Bool.false_eq_true, if_false] at kept
  exact kept

/-- Without memory cells and undefined regions every byte reads 0. -/
theorem State.byteAt_empty {s : State} (hm : s.mem = []) (hu : s.undef = []) (a : Nat) : s.byteAt a = 0 := by
  simp [State.byteAt, State.memDefault, hm, hu, Tab.get]

theorem State.mem_sunk_powerOff (s : State) (from_ : Nat) : (s.powerOff.sunk from_).mem = [] := by rfl
theorem State.undef_sunk_powerOff (s : State) (from_ : Nat) : (s.powerOff.sunk from_).undef = [] := by rfl

theorem State.byteAt_enterDeep (s : State) (a : Nat) : s.enterDeep.byteAt a = 0 := by
  rw [State.enterDeep_eq]
  exact State.byteAt_empty (State.mem_sunk_powerOff _ _) (State.undef_sunk_powerOff _ _) a

theorem State.island_enterDeep (s : State) {a : Nat} (h : islandKey a = true) : s.enterDeep.getReg a = s.getReg a := by
  have kept : ∀ (t : State) (n : Nat), (t.sunk n).getReg a = t.getReg a := fun _ _ => State.getReg_of_regs rfl a
  rw [State.enterDeep_eq, kept, State.island_powerOff _ h]
  exact State.getReg_of_regs s.regs_retain a

/-- The retention words hold what these registers hold (17 R449). -/
theorem State.retained_of_regs {s t : State} (tide : t.tide = s.tide) (ngi : t.reg .router 0x010 = s.reg .router 0x010)
    (ctrl : t.reg .tide 0x010 = s.reg .tide 0x010)
    (ports : ∀ p, p < 16 → t.reg (.port p) 0x000 = s.reg (.port p) 0x000 ∧ t.reg (.port p) 0x020 = s.reg (.port p) 0x020) :
    t.retained = s.retained := by
  have each : (allPorts.flatMap fun p => leBytes 4 (t.regN (.port p) 0x000) ++ leBytes 8 (t.regN (.port p) 0x020))
      = allPorts.flatMap fun p => leBytes 4 (s.regN (.port p) 0x000) ++ leBytes 8 (s.regN (.port p) 0x020) := by
    rw [List.flatMap, List.flatMap, List.map_congr_left]
    intro p hp
    obtain ⟨cfg, buf⟩ := ports p (List.mem_range.mp hp)
    rw [State.regN, State.regN, State.regN, State.regN, cfg, buf]
  unfold State.retained
  dsimp only
  rw [each, State.regN, State.regN, State.regN, State.regN, ngi, ctrl, tide]

/-! ## What a reply keeps for the sleep depths -/

theorem State.Replied.portState {s t : State} (h : s.Replied t) (p : Fin 16) : t.portState p = s.portState p :=
  State.fldAt_of_reg (h.regs.reg (port_not_mem_replyKeys p (by decide))) 0 3

theorem State.Replied.island {s t : State} (h : s.Replied t) {a : Nat} (ha : islandKey a = true) : t.getReg a = s.getReg a := by
  have tide := islandKey_bounds ha
  rw [blockBase_tide, dieWindow_eq] at tide
  refine h.regs a (not_mem_replyKeys ?_ ?_)
  · rw [dieWindow_eq]; omega
  · omega

theorem State.Replied.sameBytes {s t : State} (h : s.Replied t) : SameBytes s t := by
  rw [h.frame]
  exact SameBytes.of_eq rfl rfl

theorem State.Replied.clock {s t : State} (h : s.Replied t) : t.clock = s.clock := by
  have now : t.now = s.now := congrArg BitVec.toNat (h.island (a := blockBase .tide) (by decide))
  have tide : t.tide = s.tide := by rw [h.frame]
  rw [State.clock, State.clock, now, tide]

theorem State.Replied.retained {s t : State} (h : s.Replied t) : t.retained = s.retained := by
  refine State.retained_of_regs (by rw [h.frame]) (h.regs.reg (not_mem_replyKeys (by decide) (by decide)))
    (h.regs.reg (not_mem_replyKeys (by decide) (by decide))) fun p _ => ⟨?_, ?_⟩
  · exact h.regs.reg (port_not_mem_replyKeys p (by decide))
  · exact h.regs.reg (port_not_mem_replyKeys p (by decide))

/-! ## SLEEP_ENTRY -/

/-- No accepted change of depth waits any more. -/
def State.noSleeps (s : State) : State := { s with harbour := { s.harbour with sleeps := [] } }

/-- The change of depth whose mark has come. -/
def State.takeSleep (s : State) (m : Marked) : State :=
  match m.value with
  | 0 => s.noSleeps.wakeNode.deliverAwake
  | 1 => if s.power.depth = 0 then { s.noSleeps with power := { s.power with depth := 1 } } else s.noSleeps
  | 2 =>
    if !s.coresIdle then (if m.mark + 10_000_000 ≤ s.now then s.noSleeps.replyTo m.msg rcFailed else s)
    else (s.noSleeps.replyTo m.msg rcOk).enterDoze
  | _ => (s.noSleeps.replyTo m.msg rcOk).enterDeep

theorem State.sleepMark_due {s : State} {m : Marked} (h : SleepDue s m) : s.sleepMark = s.takeSleep m := by
  obtain ⟨runs, sleeps, mark, taken⟩ := h
  rw [State.sleepMark, runs, sleeps, dueMark_reached mark]
  dsimp only
  rw [taken, dropMark_only]
  rfl

end Sys2Proof.Machine
end

section
/-! Sleep and wake (01 Table 1-9, R37, 17 R449, 18 R485, R486). -/

namespace Sys2Proof.Claims

open Sys2Proof.Machine

/-! ## SLEEP_ENTRY -/

/-- A due change of depth is what the command takes. -/
theorem runs_sleepEntry {s : State} {m : Marked} {P : State → Prop} (due : SleepDue s m) (h : P (s.takeSleep m)) : Runs .sleepEntry s P :=
  ⟨s.sleepMark, rfl, by rwa [State.sleepMark_due due]⟩

section
variable {s : State} {m : Marked}

theorem takeSleep_idle (value : m.value = 1) (awake : s.power.depth = 0) :
    s.takeSleep m = { s.noSleeps with power := { s.power with depth := 1 } } := by
  simp only [State.takeSleep, value, if_pos awake]

theorem takeSleep_awake (value : m.value = 0) (idle : s.power.depth = 1) (acts : s.heldActs = []) :
    s.takeSleep m = { s.noSleeps with power := { s.power with depth := 0 } } := by
  simp only [State.takeSleep, value]
  exact State.awake_fromIdle (s := s.noSleeps) idle acts

theorem takeSleep_doze (value : m.value = 2) (idle : s.coresIdle = true) :
    s.takeSleep m = (s.noSleeps.replyTo m.msg rcOk).enterDoze := by
  simp only [State.takeSleep, value, idle, Bool.not_true, Bool.false_eq_true, if_false]

theorem takeSleep_waits (value : m.value = 2) (busy : s.coresIdle = false) (early : s.now < m.mark + 10_000_000) : s.takeSleep m = s := by
  simp only [State.takeSleep, value, busy, Bool.not_false, if_true, if_neg (Nat.not_le.mpr early)]

theorem takeSleep_deep (value : m.value = 3) : s.takeSleep m = (s.noSleeps.replyTo m.msg rcOk).enterDeep := by
  simp only [State.takeSleep, value]

theorem sleepEntry_doze (due : SleepDue s m) (value : m.value = 2) (idle : s.coresIdle = true) :
    Runs .sleepEntry s fun t => t.power.depth = 2 ∧ (∀ p : Fin 16, s.portState p = 2 → t.portState p = 3)
      ∧ (∀ n : Fin 4, Tab.get 0 t.power.setpoints n = 550) ∧ SameBytes s t := by
  apply runs_sleepEntry due
  rw [takeSleep_doze value idle]
  have replied := s.noSleeps.replied_replyTo m.msg rcOk []
  generalize s.noSleeps.replyTo m.msg rcOk = u at replied ⊢
  rw [State.enterDoze_eq]
  refine ⟨State.depth_dozing _, fun p up => ?_, State.setpoint_dozing _, fun a => ?_⟩
  · have same : u.portState p = 2 := (replied.portState p).trans up
    rw [State.portState_dozing, State.portState_holdPorts, same]
    rfl
  · calc (u.holdPorts true).dozing.byteAt a
      _ = (u.holdPorts true).byteAt a := State.sameBytes_dozing _ a
      _ = u.byteAt a := u.sameBytes_holdPorts true a
      _ = s.noSleeps.byteAt a := replied.sameBytes a
      _ = s.byteAt a := State.byteAt_of_eq rfl rfl a

theorem sleepEntry_deep (due : SleepDue s m) (value : m.value = 3) :
    Runs .sleepEntry s fun t => t.power.depth = 3 ∧ t.power.slpDeepN = false ∧ t.power.deepFrom = s.clock ∧ t.power.retention = s.retained
      ∧ (∀ a, islandKey a = true → t.getReg a = s.getReg a) ∧ ∀ a, t.byteAt a = 0 := by
  apply runs_sleepEntry due
  rw [takeSleep_deep value]
  have replied := s.noSleeps.replied_replyTo m.msg rcOk []
  generalize s.noSleeps.replyTo m.msg rcOk = u at replied ⊢
  refine ⟨rfl, rfl, ?_, ?_, fun a ha => ?_, u.byteAt_enterDeep⟩
  · calc u.retain.clock
      _ = u.clock := u.clock_retain
      _ = s.noSleeps.clock := replied.clock
      _ = s.clock := rfl
  · calc u.retain.power.retention
      _ = u.retained := by rw [u.retain_frame]
      _ = s.noSleeps.retained := replied.retained
      _ = s.retained := rfl
  · calc u.enterDeep.getReg a
      _ = u.getReg a := u.island_enterDeep ha
      _ = s.noSleeps.getReg a := replied.island ha
      _ = s.getReg a := rfl

theorem sleepEntry_idle (due : SleepDue s m) (value : m.value = 1) (awake : s.power.depth = 0) :
    Runs .sleepEntry s fun t => t.power.depth = 1 ∧ t.harbour.sleeps = [] ∧ Only s t { s with power := t.power, harbour := t.harbour } [] := by
  apply runs_sleepEntry due
  rw [takeSleep_idle value awake]
  exact ⟨rfl, rfl, Only.intro rfl rfl rfl (RegsBut.of_regs _ rfl)⟩

theorem sleepEntry_awake (due : SleepDue s m) (value : m.value = 0) (idle : s.power.depth = 1) (acts : s.heldActs = []) :
    Runs .sleepEntry s fun t => t.power.depth = 0 ∧ Only s t { s with power := t.power, harbour := t.harbour } [] := by
  apply runs_sleepEntry due
  rw [takeSleep_awake value idle acts]
  exact ⟨rfl, Only.intro rfl rfl rfl (RegsBut.of_regs _ rfl)⟩

theorem sleepEntry_waits (due : SleepDue s m) (value : m.value = 2) (busy : s.coresIdle = false) (early : s.now < m.mark + 10_000_000) :
    Runs .sleepEntry s fun t => t = s := runs_sleepEntry due (takeSleep_waits value busy early)

end

/-! ## WAKE -/

section
variable {s : State} {w : WakeSource}

theorem wake_fromIdle (depth : s.power.depth = 1) (source : w = .bell ∨ w = .berthMessage ∨ w = .engineCompletion ∨ w = .tideMark)
    (acts : s.heldActs = []) : Runs (.wake w) s fun t => t.power.depth = 0 ∧ Only s t { s with power := t.power } [] := by
  refine ⟨s.wake w, rfl, ?_⟩
  have listed : wakes s.power.depth w = true := by rw [depth]; rcases source with rfl | rfl | rfl | rfl <;> rfl
  rw [State.wake_some listed, State.wakeFrom_light (by omega), State.awake_fromIdle depth acts]
  exact ⟨rfl, Only.intro rfl rfl rfl (RegsBut.of_regs _ rfl)⟩

theorem wake_fromDoze (depth : s.power.depth = 2) (source : w = .bell ∨ w = .berthMessage ∨ w = .tideMark) (acts : s.heldActs = []) :
    Runs (.wake w) s fun t => t.power.depth = 0 ∧ t.acc = [] ∧ (∀ p : Fin 16, s.portState p = 3 → t.portState p = 2)
      ∧ (s.power.brakeN = true → ∀ n : Fin 4, Tab.get 0 t.power.setpoints n = trimmed n (modeMv s.modeTarget)) := by
  refine ⟨s.wake w, rfl, ?_⟩
  have listed : wakes s.power.depth w = true := by rw [depth]; rcases source with rfl | rfl | rfl <;> rfl
  have changed := State.modeChanged_wakeNode depth
  have woken : s.wakeNode.heldActs = [] := changed.heldActs.trans (s.heldActs_leaveDoze.trans acts)
  rw [State.wake_some listed, State.wakeFrom_light (by omega), State.deliverAwake_none woken]
  refine ⟨changed.depth.trans s.depth_leaveDoze, changed.acc.trans s.acc_leaveDoze, fun p held => ?_, fun released n => ?_⟩
  · have low := port_low p (o := 0x008) (by decide)
    have same : s.wakeNode.portState p = s.leaveDoze.portState p :=
      State.fldAt_of_reg (changed.reg (port_ne_power p 0x008 (by decide)) (by omega)) 0 3
    rw [same, State.portState_leaveDoze, held]
    rfl
  · rw [State.wakeNode_doze depth, if_pos (s.brakeN_leaveDoze.trans released)]
    exact State.setpoint_awakeIn _ _ n

theorem wake_fromDeep (depth : s.power.depth = 3) (source : w = .tideMark ∨ w = .comparator ∨ w = .management) :
    Runs (.wake w) s fun t => t.power = { s.power with wakeHeld := true } ∧ Only s t { s with power := t.power } [] := by
  refine ⟨s.wake w, rfl, ?_⟩
  have listed : wakes s.power.depth w = true := by rw [depth]; rcases source with rfl | rfl | rfl <;> rfl
  rw [State.wake_some listed, State.wakeFrom_deep depth, State.deliverAwake_asleep (by simp [depth])]
  exact ⟨rfl, Only.intro rfl rfl rfl (RegsBut.of_regs _ rfl)⟩

end

/-! ## DEEP_WAKE -/

theorem deepWake_rises {s : State} (depth : s.power.depth = 3) (held : s.power.wakeHeld = true) (late : s.power.deepFrom + 30_000_000 ≤ s.clock) :
    Runs .deepWake s fun t => t.power = { s.power with depth := 0, wakeHeld := false, slpDeepN := true } ∧ t.stage = 1
      ∧ Only s t { s with power := t.power, regs := t.regs } [at_ .boot 0x000] := by
  refine ⟨s.deepWake, rfl, ?_⟩
  have ready : ¬ (s.power.depth ≠ 3 ∨ ¬ s.power.wakeHeld ∨ s.clock < s.power.deepFrom + 30_000_000) := by
    simp [depth, held, late]
  rw [State.deepWake, if_neg ready]
  exact ⟨rfl, State.fldAt_putFld_same _ _ _ _ _ _ (by decide), Only.intro rfl rfl rfl (RegsBut.putFld _ _ _ _ (List.mem_singleton_self _))⟩

theorem deepWake_waits {s : State} (h : s.power.depth ≠ 3 ∨ s.power.wakeHeld = false ∨ s.clock < s.power.deepFrom + 30_000_000) :
    Runs .deepWake s fun t => t = s :=
  ⟨s.deepWake, rfl, if_pos (by simpa using h)⟩

/-- Settles O59, by what each depth's entry and wake does, the frame of the reply to the command and that of a forced mode. -/
theorem sleepAndWake : Obligations.SleepAndWake :=
  ⟨fun _ _ due => ⟨sleepEntry_idle due, sleepEntry_awake due, sleepEntry_doze due, sleepEntry_waits due, sleepEntry_deep due⟩,
    fun s w => ⟨fun none => ⟨s.wake w, rfl, State.wake_none none⟩, wake_fromIdle, wake_fromDoze, wake_fromDeep⟩,
    fun _ => ⟨deepWake_rises, deepWake_waits⟩⟩

end Sys2Proof.Claims
end

section
/-! Reads of RC registers (00 Table 0-3, 04 R114, 05 R137, 06 R165, 10 R261, 11 R304, 13 R346, R350, 19 R502). -/

namespace Sys2Proof.Claims

open Sys2Proof.Machine

/-- A write of 0 to all bits of a register leaves 0. -/
theorem setFld_whole_zero (w : Word) : setFld w 0 64 0 = 0 := by
  have whole : (setFld w 0 64 0).toNat = 0 := by rw [← fld_whole, fld_setFld_same _ _ _ _ (by decide), Nat.zero_mod]
  exact BitVec.eq_of_toNat_eq whole

section
variable {i : Instr} {s : State} {b : Block} {off : Nat}

/-- What a command does that answers with a register and leaves another value in it. -/
theorem runs_answer_and_put {left : Word}
    (h : exec i s = .next ((s.putReg b off left).answers 0 (leBytes 8 (s.reg b off).toNat))) :
    Runs i s fun t =>
      t.answer = { status := 0, data := leBytes 8 (s.reg b off).toNat } ∧ t.reg b off = left
        ∧ Only s t { s with regs := t.regs, answer := t.answer } [at_ b off] :=
  ⟨_, h, rfl, s.reg_putReg_same b off left, Only.intro rfl rfl rfl (RegsBut.setReg s _ (List.mem_singleton_self _))⟩

/-- A read that clears all of its register leaves 0. -/
theorem runs_readClear_whole (h : exec i s = .next (s.readClear b off 0 64)) :
    Runs i s fun t =>
      t.answer = { status := 0, data := leBytes 8 (s.reg b off).toNat } ∧ t.reg b off = 0
        ∧ Only s t { s with regs := t.regs, answer := t.answer } [at_ b off] := by
  rw [State.readClear, setFld_whole_zero] at h
  exact runs_answer_and_put h

end

/-- Settles O21: each command answers with its register and puts back what the read leaves of it. -/
theorem readClearsCounts : Obligations.ReadClearsCounts := by
  intro s reads
  refine ⟨fun _ _ => runs_readClear_whole rfl, fun _ _ => runs_readClear_whole rfl, fun _ => runs_readClear_whole rfl,
    fun _ => ⟨runs_answer_and_put rfl, runs_answer_and_put rfl⟩, fun _ => runs_answer_and_put rfl,
    fun _ => ⟨runs_answer_and_put rfl, runs_answer_and_put rfl⟩, fun _ _ => runs_answer_and_put rfl⟩

end Sys2Proof.Claims
end

section
/-! SUPPORT. Accesses within one granule and one line: the bytes and the poison that a write leaves (10 R261, R263, 04 R511). -/

namespace Sys2Proof.Machine

/-! ## Ranges that need no cut -/

theorem piecesOf_single {a n : Nat} (ne : n ≠ 0) (h : a % 256 + n ≤ 256) : piecesOf a n = [(a, n)] := by
  have whole : min n (256 - a % 256) = n := by omega
  rw [piecesOf, granules, if_neg ne]
  dsimp only
  rw [whole, Nat.sub_self]
  cases n / 256 + 1 <;> rfl

theorem unitsOf_single {a n : Nat} (ne : n ≠ 0) (h : a % poisonSize a + n ≤ poisonSize a) : unitsOf a n = [(a, n)] := by
  have whole : min n (poisonSize a - a % poisonSize a) = n := by omega
  rw [unitsOf, poisonUnits, if_neg ne]
  dsimp only
  rw [whole, Nat.sub_self]
  cases n / 32 + 1 <;> rfl

theorem poisonSize_high {a : Nat} (h : hbmEnd ≤ a) : poisonSize a = 64 := if_neg (Nat.not_lt.mpr h)

theorem State.lostAt_high (s : State) {a : Nat} (h : hbmEnd ≤ a) : s.lostAt a = false := by
  simp [State.lostAt, Nat.not_lt.mpr h]

/-! ## Bytes -/

theorem State.byteAt_putBytes_out (s : State) {a x : Nat} {bs : List Byte} (h : x < a ∨ a + bs.length ≤ x) :
    (s.putBytes a bs).byteAt x = s.byteAt x := (Memory.wrote_putBytes bs s a).out x h

theorem State.byteAt_putBytes (s : State) (a : Nat) {bs : List Byte} {i : Nat} (h : i < bs.length) :
    (s.putBytes a bs).byteAt (a + i) = bs.getD i 0 := by
  induction bs generalizing s a i with
  | nil => simp at h
  | cons b bs ih =>
    rw [State.putBytes]
    cases i with
    | zero => rw [State.byteAt_putBytes_out _ (.inl (by omega))]; exact s.byteAt_putByte_same a b
    | succ i =>
      rw [Nat.add_comm i 1, ← Nat.add_assoc, ih _ _ (by simpa using h), Nat.add_comm 1 i]
      rfl

/-- A step that writes no byte leaves every byte as it was. -/
theorem Memory.Wrote.byteAt {s t : State} (h : Memory.Wrote 0 0 s t) (x : Nat) : t.byteAt x = s.byteAt x := h.out x (.inr (Nat.zero_le x))

/-- A write within one granule stores its bytes, where the channel takes it. -/
theorem State.byteAt_memWrite {s : State} {a : Nat} {bs : List Byte} (p : Bool) (granule : a % 256 + bs.length ≤ 256)
    (reach : s.reachable a bs.length = true) (live : s.lostAt a = false) {i : Nat} (h : i < bs.length) :
    (s.memWrite a bs p).byteAt (a + i) = bs.getD i 0 := by
  have ne : bs.length ≠ 0 := by omega
  rw [State.memWrite, if_pos reach, (Memory.wrote_reportLost _ _ _ 0 0).byteAt, (Memory.wrote_touchSectors _ _ _ _ 0 0).byteAt,
    piecesOf_single ne granule, State.writePieces, State.writePieces, State.writePiece, live, if_neg Bool.false_ne_true,
    (Memory.wrote_foldPoison _ _ _ 0 0).byteAt, List.drop_zero, List.take_length]
  exact s.byteAt_putBytes a h

/-! ## Poison of wells and cisterns (04 R511) -/

/-- Beyond HBM a line reads as unpoisoned until it is marked. -/
theorem State.poisonAt_high (s : State) {x : Nat} (h : hbmEnd ≤ x) : s.poisonAt x = Tab.get false s.poison (x / 64 * 64) := by
  have unit : poisonUnit x = x / 64 * 64 := by rw [poisonUnit, poisonSize_high h]
  have base : s.poisonBase (x / 64 * 64) = false := by
    have : hbmEnd ≤ x / 64 * 64 := by unfold hbmEnd at h ⊢; omega
    simp [State.poisonBase, this]
  rw [State.poisonAt, unit, base]

theorem State.poisonAt_of_poison {s t : State} (e : t.poison = s.poison) {x : Nat} (h : hbmEnd ≤ x) : t.poisonAt x = s.poisonAt x := by
  rw [State.poisonAt_high t h, State.poisonAt_high s h, e]

theorem State.poisonAt_sameLine (s : State) {x y : Nat} (hx : hbmEnd ≤ x) (hy : hbmEnd ≤ y) (h : x / 64 = y / 64) :
    s.poisonAt x = s.poisonAt y := by
  rw [State.poisonAt_high s hx, State.poisonAt_high s hy, h]

theorem State.poisonAt_putPoison_same (s : State) (a : Nat) (p : Bool) : (s.putPoison a p).poisonAt a = p := by
  have base : (s.putPoison a p).poisonBase (poisonUnit a) = s.poisonBase (poisonUnit a) := rfl
  rw [State.poisonAt, base]
  exact Tab.get_set_same _ _ _ _

theorem State.poisonAt_putPoison_other (s : State) {a x : Nat} (p : Bool) (ha : hbmEnd ≤ a) (hx : hbmEnd ≤ x) (h : x / 64 ≠ a / 64) :
    (s.putPoison a p).poisonAt x = s.poisonAt x := by
  have unit : poisonUnit a = a / 64 * 64 := by rw [poisonUnit, poisonSize_high ha]
  rw [State.poisonAt_high _ hx, State.poisonAt_high _ hx, State.putPoison, unit]
  exact Tab.get_set_other _ _ _ _ _ _ (by omega)

theorem State.poison_putBytes (s : State) (a : Nat) (bs : List Byte) : (s.putBytes a bs).poison = s.poison := by
  induction bs generalizing s a with
  | nil => rfl
  | cons b bs ih => exact ih (s.putByte a b) (a + 1)

/-- What a write to a line beyond HBM makes of its poison. -/
theorem State.writePoison_high (s : State) (p : Bool) {a : Nat} (n : Nat) (h : hbmEnd ≤ a) :
    s.writePoison p (a, n) = if p then s.putPoison a true else if n = 64 then s.putPoison a false else s := by
  have out : ¬ a < hbmEnd := Nat.not_lt.mpr h
  simp only [State.writePoison, poisonSize_high h, decide_eq_false out, Bool.and_false, Bool.false_eq_true, if_false]

section
variable {s : State} {a : Nat} {bs : List Byte} (high : hbmEnd ≤ a) (ne : bs ≠ []) (line : a % 64 + bs.length ≤ 64)
include high ne line

/-- A write within one line beyond HBM: its bytes and the line's poison, and no channel is met. -/
theorem State.memWrite_line (p : Bool) (reach : s.reachable a bs.length = true) :
    s.memWrite a bs p = (s.putBytes a bs).writePoison p (a, bs.length) := by
  have len : bs.length ≠ 0 := fun e => ne (List.length_eq_zero_iff.mp e)
  have out : ¬ a < hbmEnd := Nat.not_lt.mpr high
  have pieces : piecesOf a bs.length = [(a, bs.length)] := piecesOf_single len (by omega)
  have units : unitsOf a bs.length = [(a, bs.length)] := unitsOf_single len (by rw [poisonSize_high high]; exact line)
  have lost : ∀ t : State, t.lostAt a = false := fun t => t.lostAt_high high
  rw [State.memWrite, if_pos reach, pieces, State.writePieces, State.writePieces, State.writePiece, lost, if_neg Bool.false_ne_true,
    List.drop_zero, List.take_length, units]
  simp [State.reportLost, State.touchSectors, pieces, units, lost, out]

end

/-- A read within one line beyond HBM reads as poisoned where its line does. -/
theorem State.poison_memRead_line (s : State) {x k : Nat} (high : hbmEnd ≤ x) (ne : k ≠ 0) (line : x % 64 + k ≤ 64)
    (reach : s.reachable x k = true) : (s.memRead x k).poison = s.poisonAt x := by
  have start : hbmEnd ≤ x / 64 * 64 := by unfold hbmEnd at high ⊢; omega
  have span : (x + k + 63) / 64 * 64 - x / 64 * 64 = 64 := by omega
  have units : unitsOf (x / 64 * 64) 64 = [(x / 64 * 64, 64)] :=
    unitsOf_single (by decide) (by rw [poisonSize_high start]; omega)
  have same : s.poisonAt (x / 64 * 64) = s.poisonAt x := s.poisonAt_sameLine start high (by omega)
  rw [State.memRead, if_pos reach]
  simp [piecesOf_single ne (by omega : x % 256 + k ≤ 256), s.lostAt_high high, State.linePoison, State.poisonIn, span, units, same]

end Sys2Proof.Machine
end

section
/-! Poison of a well or cistern line (04 R511). -/

namespace Sys2Proof.Claims

open Sys2Proof.Machine

/-- Settles O37, by the equation of a write within one line: the bytes are stored, then the line's poison is set, cleared or left. -/
theorem poisonedLines : Obligations.PoisonedLines := by
  intro s a bs p high ne line reach t
  have len : bs.length ≠ 0 := fun e => ne (List.length_eq_zero_iff.mp e)
  have written : t = (s.putBytes a bs).writePoison p (a, bs.length) := State.memWrite_line high ne line p reach
  rw [State.writePoison_high _ p _ high] at written
  have unmarked : ∀ x, hbmEnd ≤ x → (s.putBytes a bs).poisonAt x = s.poisonAt x :=
    fun x hx => State.poisonAt_of_poison (s.poison_putBytes a bs) hx
  have highAt : ∀ x, x / 64 = a / 64 → hbmEnd ≤ x := fun x hx => by unfold hbmEnd at high ⊢; omega
  refine ⟨fun poisoned => ?_, fun clean whole => ?_, fun clean part => ?_, fun i hi => ?_, fun x hx => ?_, fun x hx other => ?_,
    fun x k same nz fits reachX => ?_⟩
  · rw [written, if_pos poisoned, State.poisonAt_putPoison_same]
  · rw [written, clean, if_neg Bool.false_ne_true, if_pos whole, State.poisonAt_putPoison_same]
  · rw [written, clean, if_neg Bool.false_ne_true, if_neg (Nat.ne_of_lt part), unmarked a high]
  · exact State.byteAt_memWrite p (by omega) reach (s.lostAt_high high) hi
  · exact (Memory.wrote_memWrite s a bs p).out x hx
  · rw [written]
    split
    · rw [State.poisonAt_putPoison_other _ _ high hx other, unmarked x hx]
    · split
      · rw [State.poisonAt_putPoison_other _ _ high hx other, unmarked x hx]
      · exact unmarked x hx
  · rw [t.poison_memRead_line (highAt x same) nz fits reachX, t.poisonAt_sameLine (highAt x same) high same]

end Sys2Proof.Claims
end

section
/-! SUPPORT. What a unit's read of memory leaves as it was: every field but the channels it used, and every register but their counters of transfers
(10 R257, R263). -/

namespace Sys2Proof.Machine

open Sys2Proof.Claims

/-! ## Registers apart from the counters -/

/-- The counters of transfers stand in the second half of a channel's 64 bytes, in the last part of a die's window. -/
theorem transferKeys_place {a : Nat} (h : a ∈ transferKeys) : 0x20 ≤ a % 0x40 ∧ 0x100_0000 ≤ a % 0x400_0000 := by
  refine ⟨?_, memKeys_high (List.mem_append_left _ h)⟩
  simp only [transferKeys, List.mem_flatMap, List.mem_map] at h
  obtain ⟨ch, -, off, hoff, e⟩ := h
  rw [Claims.at_, groupOf, chOff, blockBase_stack, dieWindow_eq] at e
  simp only [List.mem_cons, List.not_mem_nil, or_false] at hoff
  omega

theorem chState_not_mem_transferKeys (ch : Nat) : Claims.at_ (groupOf ch) (chOff ch 0x100) ∉ transferKeys := by
  intro h
  have place := (transferKeys_place h).1
  rw [Claims.at_, groupOf, chOff, blockBase_stack, dieWindow_eq] at place
  omega

theorem regionTable_not_mem_transferKeys {o : Nat} (h : o < 0x2000) : Claims.at_ .regionTable o ∉ transferKeys := by
  intro hk
  have place := (transferKeys_place hk).2
  have base : blockBase .regionTable = dieWindow 4 + 0x10_0000 := rfl
  rw [Claims.at_, base, dieWindow_eq] at place
  omega

/-! ## The read -/

/-- What moving sectors may change. -/
structure State.Served (s t : State) : Prop where
  frame : t = { s with regs := t.regs, channels := t.channels }
  regs  : RegsBut s t transferKeys

theorem State.Served.refl (s : State) : s.Served s := ⟨rfl, RegsBut.refl _ _⟩

theorem State.Served.trans {s t u : State} (h : s.Served t) (k : t.Served u) : s.Served u :=
  ⟨k.frame.trans (by rw [h.frame]), h.regs.trans k.regs⟩

theorem counterKey_mem {ch off : Nat} (hch : ch < 192) (hoff : off ∈ [0x120, 0x128, 0x130, 0x138]) :
    Claims.at_ (groupOf ch) (chOff ch off) ∈ transferKeys := by
  rw [transferKeys, List.mem_flatMap]
  exact ⟨ch, List.mem_range.mpr hch, List.mem_map_of_mem hoff⟩

theorem State.served_putReg (s : State) {b : Block} {o : Nat} (v : Word) (h : Claims.at_ b o ∈ transferKeys) : s.Served (s.putReg b o v) :=
  ⟨rfl, RegsBut.setReg s v h⟩

theorem State.served_countLoss (s : State) {ch : Nat} (hch : ch < 192) (cfg : Word) (m : Moved) : s.Served (s.countLoss ch cfg m) := by
  have turned : s.Served (if m.turn = 0 then s else s.addWrap (groupOf ch) (chOff ch 0x130) 0 64 m.turn) := by
    split
    · exact .refl s
    · exact s.served_putReg _ (counterKey_mem hch (by decide))
  unfold State.countLoss
  dsimp only
  generalize (if m.turn = 0 then s else _) = t at turned ⊢
  split
  · split
    · exact turned
    · exact turned.trans (t.served_putReg _ (counterKey_mem hch (by decide)))
  · exact .refl s

theorem State.served_touchSector (s : State) (write : Bool) {ch : Nat} (hch : ch < 192) (loc : Nat) : s.Served (s.touchSector write ch loc) := by
  have moved : s.Served (s.setChannel ch ((s.channel ch).access (s.mcCfg ch) write loc).chan) := ⟨rfl, RegsBut.refl _ _⟩
  have lost := moved.trans (State.served_countLoss _ hch (s.mcCfg ch) ((s.channel ch).access (s.mcCfg ch) write loc))
  unfold State.touchSector
  dsimp only
  split
  · exact lost.trans (State.served_putReg _ _ (counterKey_mem hch (by cases write <;> decide)))
  · exact lost

theorem State.served_touchSectors (s : State) (write : Bool) (a n : Nat) : s.Served (s.touchSectors write a n) := by
  unfold State.touchSectors
  induction unitsOf a n generalizing s with
  | nil => exact .refl s
  | cons u us ih =>
    refine State.Served.trans ?_ (ih _)
    dsimp only
    split
    · exact s.served_touchSector write (s.decodeHbm_channel_lt _) _
    · exact .refl s

/-! ## HBM as it was -/

theorem State.Served.sameBytes {s t : State} (h : s.Served t) : SameBytes s t := by
  rw [h.frame]
  exact SameBytes.of_eq rfl rfl

/-- HBM holds the same bytes, its channels take the same accesses, and no commit was taken or begun. -/
structure State.HbmAlike (s t : State) : Prop where
  bytes   : SameBytes s t
  commits : t.commits = s.commits
  table   : ∀ o, o < 0x2000 → t.reg .regionTable o = s.reg .regionTable o
  state   : ∀ ch, t.reg (groupOf ch) (chOff ch 0x100) = s.reg (groupOf ch) (chOff ch 0x100)

namespace State.HbmAlike

theorem trans {s t u : State} (h : s.HbmAlike t) (k : t.HbmAlike u) : s.HbmAlike u :=
  ⟨fun a => (k.bytes a).trans (h.bytes a), k.commits.trans h.commits, fun o ho => (k.table o ho).trans (h.table o ho),
    fun ch => (k.state ch).trans (h.state ch)⟩

theorem of_served {s t : State} (h : s.Served t) : s.HbmAlike t :=
  ⟨h.sameBytes, by rw [h.frame], fun _ ho => h.regs.reg (regionTable_not_mem_transferKeys ho),
    fun ch => h.regs.reg (chState_not_mem_transferKeys ch)⟩

theorem of_fields {s t : State} (mem : t.mem = s.mem) (undef : t.undef = s.undef) (commits : t.commits = s.commits) (regs : t.regs = s.regs) :
    s.HbmAlike t :=
  ⟨SameBytes.of_eq mem undef, commits, fun _ _ => State.reg_of_regs regs _ _, fun _ => State.reg_of_regs regs _ _⟩

section

variable {s t : State} (h : s.HbmAlike t)
include h

theorem chState (ch : Nat) : t.chState ch = s.chState ch := State.fldAt_of_reg (h.state ch) 0 2

/-- The channel function depends on the region table alone. -/
theorem decodeHbm {a : Nat} (ha : a < hbmEnd) : t.decodeHbm a = s.decodeHbm a := by
  have entry : t.reg .regionTable (0x1000 + 8 * (a / 0x4000_0000)) = s.reg .regionTable (0x1000 + 8 * (a / 0x4000_0000)) :=
    h.table _ (by unfold hbmEnd at ha; omega)
  unfold State.decodeHbm State.spreadCount State.fldAt
  rw [entry, h.table 0x000 (by decide)]

theorem lostAt (a : Nat) : t.lostAt a = s.lostAt a := by
  unfold State.lostAt
  by_cases ha : a < hbmEnd
  · rw [h.decodeHbm ha, h.chState]
  · simp [ha]

theorem commitPending (b : Block) : t.commitPending b = s.commitPending b := by rw [State.commitPending, State.commitPending, h.commits]

end

end State.HbmAlike

/-! ## A read that meets no lost channel -/

theorem State.reportLost_none {s : State} {a n : Nat} (live : ∀ p ∈ piecesOf a n, s.lostAt p.1 = false) : s.reportLost a n = s := by
  have none : (piecesOf a n).find? (fun p => s.lostAt p.1) = none := List.find?_eq_none.mpr fun p hp => by simp [live p hp]
  rw [State.reportLost, none]

/-- A read that meets no lost channel reports nothing. -/
theorem State.served_afterRead {s : State} {a n : Nat} (live : ∀ p ∈ piecesOf a n, s.lostAt p.1 = false) : s.Served (s.afterRead a n) := by
  have served := s.served_touchSectors false a n
  rwa [State.afterRead, State.reportLost_none fun p hp => ((State.HbmAlike.of_served served).lostAt p.1).trans (live p hp)]

/-- A read leaves all but the channels it used, and may report a lost one. -/
theorem State.afterRead_frame (s : State) (a n : Nat) :
    s.afterRead a n = { s with regs := (s.afterRead a n).regs, channels := (s.afterRead a n).channels, reports := (s.afterRead a n).reports } := by
  have served := (s.served_touchSectors false a n).frame
  unfold State.afterRead State.reportLost
  split
  · rw [served]
  · dsimp only [State.report]
    rw [served]

theorem State.regsBut_afterRead (s : State) (a n : Nat) : RegsBut s (s.afterRead a n) transferKeys := by
  have report : (s.afterRead a n).regs = (s.touchSectors false a n).regs := by
    unfold State.afterRead State.reportLost
    split <;> rfl
  exact (s.served_touchSectors false a n).regs.trans (RegsBut.of_regs _ report)

/-- An unpoisoned read met no lost channel. -/
theorem State.live_of_memRead {s : State} {a n : Nat} (ok : (s.memRead a n).ok = true) (clean : (s.memRead a n).poison = false) :
    ∀ p ∈ piecesOf a n, s.lostAt p.1 = false := by
  intro p hp
  unfold State.memRead at ok clean
  split at clean
  · exact (Bool.or_eq_false_iff.mp (Bool.eq_false_iff.mpr (List.any_eq_false.mp clean p hp))).1
  · next h => simp [h] at ok

end Sys2Proof.Machine
end

section
/-! SUPPORT. The operations of core queues, one equation per case (04 R96–R105). -/

namespace Sys2Proof.Machine

open Sys2Proof.Claims

/-! ## A queue after a write -/

/-- Two offsets of a block name two registers. -/
theorem offset_ne (b : Block) {o o' : Nat} (h : o' ≠ o) : blockBase b + o' ≠ blockBase b + o := by omega

theorem at_ne (b : Block) {o o' : Nat} (h : o' ≠ o) : Claims.at_ b o' ≠ Claims.at_ b o := offset_ne b h

section
variable (s : State)

@[simp] theorem State.queue_setQueue_same (c q : Nat) (r : QueueRun) : (s.setQueue c q r).queue c q = r := Tab.get_set_same _ _ _ _

theorem State.queues_setQueue_other (c q : Nat) (r : QueueRun) {k : Nat} (h : k ≠ 6 * c + q) :
    Tab.get {} (s.setQueue c q r).queues k = Tab.get {} s.queues k := Tab.get_set_other _ _ _ _ _ _ h

theorem State.queue_setQueue_other (c q : Nat) (r : QueueRun) {q' : Nat} (h : q' ≠ q) : (s.setQueue c q r).queue c q' = s.queue c q' :=
  s.queues_setQueue_other c q r (by omega)

/-- A queue depends on the table of queues alone. -/
theorem State.queue_of_queues {s t : State} (h : t.queues = s.queues) (c q : Nat) : t.queue c q = s.queue c q := by
  simp only [State.queue, h]

/-- A field that is written with what it holds reads as before. -/
theorem State.fldAt_lt (b : Block) (o l n : Nat) : s.fldAt b o l n < 2 ^ n := fld_lt _ _ _

theorem State.qHead_lt (c q : Nat) : s.qHead c q < 65536 := s.fldAt_lt _ _ 0 16
theorem State.qTail_lt (c q : Nat) : s.qTail c q < 65536 := s.fldAt_lt _ _ 0 16

end

/-! ## What a queue's operations may change -/

/-- The queues, and the registers listed. -/
structure State.Queued (keys : List Nat) (s t : State) : Prop where
  frame : t = { s with regs := t.regs, queues := t.queues }
  regs  : RegsBut s t keys

namespace State.Queued

variable {keys : List Nat}

theorem refl (s : State) : State.Queued keys s s := ⟨rfl, RegsBut.refl _ _⟩

theorem trans {s t u : State} (h : State.Queued keys s t) (k : State.Queued keys t u) : State.Queued keys s u :=
  ⟨k.frame.trans (by rw [h.frame]), h.regs.trans k.regs⟩

theorem mono {more : List Nat} {s t : State} (h : State.Queued keys s t) (sub : ∀ a ∈ keys, a ∈ more) : State.Queued more s t :=
  ⟨h.frame, h.regs.mono sub⟩

theorem setQueue (s : State) (c q : Nat) (r : QueueRun) : State.Queued keys s (s.setQueue c q r) := ⟨rfl, RegsBut.of_regs _ rfl⟩

theorem putFld (s : State) {b : Block} {o : Nat} (l n v : Nat) (h : Claims.at_ b o ∈ keys) : State.Queued keys s (s.putFld b o l n v) :=
  ⟨rfl, RegsBut.putFld s l n v h⟩

theorem putBit (s : State) {b : Block} {o : Nat} (i : Nat) (v : Bool) (h : Claims.at_ b o ∈ keys) : State.Queued keys s (s.putBit b o i v) :=
  ⟨rfl, RegsBut.putBit s i v h⟩

theorem only {s t : State} (h : State.Queued keys s t) : Only s t { s with regs := t.regs, queues := t.queues } keys :=
  Only.intro h.frame rfl rfl h.regs

end State.Queued

/-! ## Halting (04 R104, R105) -/

/-- The registers that a halt writes. -/
def haltKeys (c q : Nat) : List Nat := [Claims.at_ (.core c) (qOff q 0x120), Claims.at_ (.core c) 0x030]

theorem qOff_ne_wake (q : Nat) {o : Nat} (h : 0x030 < o) : qOff q o ≠ 0x030 := by unfold qOff; omega

theorem State.queueState_halted {s : State} {c q : Nat} {h : Halted} (halted : (s.queue c q).halted = some h) : s.queueState c q = 3 := by
  rw [State.queueState, halted]
  rfl

theorem State.queued_haltQueue (s : State) (c q code : Nat) (h : Halted) : State.Queued (haltKeys c q) s (s.haltQueue c q code h) := by
  unfold State.haltQueue State.queueError State.wakeCause
  exact ((Queued.putFld s _ _ _ (by simp [haltKeys])).trans (.setQueue _ _ _ _)).trans (.putBit _ _ _ (by simp [haltKeys]))

theorem State.queues_haltQueue (s : State) (c q code : Nat) (h : Halted) :
    (s.haltQueue c q code h).queues = (s.setQueue c q { s.queue c q with halted := some h }).queues := by
  simp [State.haltQueue, State.wakeCause, State.queueError, State.setQueue]

theorem State.queue_haltQueue (s : State) (c q code : Nat) (h : Halted) :
    (s.haltQueue c q code h).queue c q = { s.queue c q with halted := some h } := by
  rw [State.queue_of_queues (s.queues_haltQueue c q code h), State.queue_setQueue_same]

theorem State.error_haltQueue (s : State) (c q code : Nat) (h : Halted) :
    (s.haltQueue c q code h).fldAt (.core c) (qOff q 0x120) 8 56 = (code + h.addr * 2 ^ 8) % 2 ^ 56 := by
  have error : (s.queueError c q code h.addr).fldAt (.core c) (qOff q 0x120) 8 56 = (code + h.addr * 2 ^ 8) % 2 ^ 56 :=
    State.fldAt_putFld_same _ _ _ _ _ _ (by decide)
  rw [State.haltQueue, State.wakeCause, State.fldAt_putBit_other _ _ _ _ _ (offset_ne _ (qOff_ne_wake q (by decide))), ← error]
  exact State.fldAt_of_reg (State.reg_of_regs (State.setQueue_regs _ _ _ _) _ _) _ _

/-- A halted queue shows its status, the descriptor's address and the source of the wake. -/
theorem State.haltedAt_haltQueue {s t : State} {c q code : Nat} (h : Halted) (small : code < 2 ^ 8)
    (others : ∀ k, k ≠ 6 * c + q → Tab.get {} t.queues k = Tab.get {} s.queues k) : HaltedAt s (t.haltQueue c q code h) c q code h := by
  have halted : ((t.haltQueue c q code h).queue c q).halted = some h := by rw [State.queue_haltQueue]
  refine ⟨halted, State.queueState_halted halted, ?_, State.bitAt_putBit_same _ _ _ _ _ (by decide), fun k hk => ?_⟩
  · rw [State.error_haltQueue]; omega
  · rw [State.queues_haltQueue, State.queues_setQueue_other _ c q _ hk, others k hk]

/-! ## The oldest descriptor in progress (04 R100, R104) -/

/-- A queue whose oldest descriptor has not failed goes on. -/
theorem State.settleQueue_goesOn {s : State} {c q : Nat} (h : ∀ r, (s.queue c q).running.head? = some r → r.done = none ∨ r.done = some 0) :
    s.settleQueue c q = s := by
  unfold State.settleQueue
  dsimp only
  split
  · next r rs _ running =>
    rcases h r (by rw [running]; rfl) with done | done <;> simp [done]
  · rfl

theorem noneFailed_head {s : State} {c q : Nat} (h : NoneFailed s c q) {r : Running} (head : (s.queue c q).running.head? = some r) :
    r.done = none ∨ r.done = some 0 := h r (List.mem_of_head? head)

/-- A queue other than the FLE's halts with the error of its oldest descriptor. -/
theorem State.settleQueue_fails {s : State} {c q code : Nat} {r : Running} {rs : List Running} (fle : q ≠ 2)
    (halted : (s.queue c q).halted = none) (again : (s.queue c q).again = none) (running : (s.queue c q).running = r :: rs)
    (done : r.done = some code) (error : code ≠ 0) :
    s.settleQueue c q = (s.setQueue c q { s.queue c q with running := rs }).haltQueue c q code r.toHalted := by
  obtain ⟨n, rfl⟩ : ∃ n, code = n + 1 := ⟨code - 1, by omega⟩
  simp only [State.settleQueue, halted, running, again, Option.isSome_none, Bool.false_eq_true, if_false, done, State.endSummaries, if_neg fle]

/-! ## The chain FIFO and its reserved slot (04 R99) -/

/-- The reserved slot's entry changes the FIFO and the slot alone. -/
theorem State.queued_enterReserved {keys : List Nat} (s : State) (c q : Nat) : State.Queued keys s (s.enterReserved c q) := by
  unfold State.enterReserved
  dsimp only
  split
  · split
    · exact .setQueue s c q _
    · exact .refl s
  · exact .refl s

theorem State.regs_enterReserved (s : State) (c q : Nat) : (s.enterReserved c q).regs = s.regs := by
  unfold State.enterReserved
  dsimp only
  split
  · split <;> rfl
  · rfl

theorem State.queues_enterReserved_other (s : State) (c q : Nat) {k : Nat} (h : k ≠ 6 * c + q) :
    Tab.get {} (s.enterReserved c q).queues k = Tab.get {} s.queues k := by
  unfold State.enterReserved
  dsimp only
  split
  · split
    · exact s.queues_setQueue_other c q _ h
    · rfl
  · rfl

theorem State.queue_enterReserved (s : State) (c q : Nat) :
    (s.enterReserved c q).queue c q =
      { s.queue c q with chains := ((s.enterReserved c q).queue c q).chains, reserved := ((s.enterReserved c q).queue c q).reserved } := by
  unfold State.enterReserved
  dsimp only
  split
  · split
    · rw [State.queue_setQueue_same]
    · rfl
  · rfl

theorem State.enterReserved_enters {s : State} {c q a : Nat} (reserved : (s.queue c q).reserved = some a)
    (room : (s.queue c q).chains.length < 4) :
    s.enterReserved c q = s.setQueue c q { s.queue c q with chains := (s.queue c q).chains ++ [{ addr := a }], reserved := none } := by
  simp only [State.enterReserved, reserved, if_pos room]

/-- A halted queue stays so while an entry takes a free place in its FIFO. -/
theorem haltedAt_enterReserved {s t : State} {c q code : Nat} {h : Halted} (k : HaltedAt s t c q code h) :
    HaltedAt s (t.enterReserved c q) c q code h := by
  obtain ⟨halted, -, status, wake, others⟩ := k
  have same : ((t.enterReserved c q).queue c q).halted = some h := by rw [State.queue_enterReserved]; exact halted
  have regs := State.reg_of_regs (t.regs_enterReserved c q)
  exact ⟨same, State.queueState_halted same, (State.fldAt_of_reg (regs _ _) _ _).trans status,
    (State.bitAt_of_reg (regs _ _) _).trans wake, fun k hk => (t.queues_enterReserved_other c q hk).trans (others k hk)⟩

/-- A halt, and the entry that takes a place freed in the FIFO. -/
theorem State.queued_halt_enter (s : State) (c q code : Nat) (h : Halted) :
    State.Queued (haltKeys c q) s ((s.haltQueue c q code h).enterReserved c q) :=
  (s.queued_haltQueue c q code h).trans (State.queued_enterReserved _ c q)

/-! ## Fetching a descriptor (04 R99, R104) -/

/-- A fetch that fails does so with ACCESS or POISON. -/
theorem State.fetchDesc_error_lt {s : State} {c q a code : Nat} (h : s.fetchDesc c q a = .error code) : code < 2 ^ 8 := by
  unfold State.fetchDesc at h
  dsimp only at h
  repeat' split at h
  all_goals cases h <;> decide

/-- A fetched descriptor met no lost channel. -/
theorem State.served_fetch {s : State} {c q a : Nat} {d : List Byte} (h : s.fetchDesc c q a = .ok d) :
    s.Served (s.afterRead a (descSize q)) := by
  unfold State.fetchDesc at h
  dsimp only at h
  split at h
  · split at h
    · cases h
    · next ok =>
      split at h
      · cases h
      · next clean => exact State.served_afterRead (State.live_of_memRead (by simpa using ok) (by simpa using clean))
  · cases h

/-! ## Starting a descriptor (04 R99, R100) -/

/-- A queue once the head of its source is taken from it. -/
def QueueRun.taken (r : QueueRun) (ring : Bool) : QueueRun := if ring then r else r.take

theorem QueueRun.taken_frame (r : QueueRun) (ring : Bool) :
    r.taken ring = { r with next := (r.taken ring).next, chains := (r.taken ring).chains } := by
  unfold QueueRun.taken QueueRun.take
  split
  · rfl
  · split <;> rfl

/-- A descriptor that its engine takes up: it waits for nothing, and has not ended (04 R100, 06 R167, 08 R233). -/
theorem startRunning_enters {s : State} {c q : Nat} {d : List Byte} (h : Enters s c q d) (a : Nat) (ring alone : Bool) :
    startRunning q a ring alone d = { addr := a, desc := d, ring := ring, alone := alone } ∧ (headerOk q d && !s.waitOk c d) = false := by
  unfold Enters at h
  split at h
  · next ok => simp [startRunning, ok, h]
  · next bad => rcases h with rfl | rfl <;> simp [startRunning, bad]

section
variable {s : State} {c q : Nat} {e : ChainEntry} {ring : Bool} (runs : s.coreRuns c = true) (halted : (s.queue c q).halted = none)
  (again : (s.queue c q).again = none) (head : s.headOf c q = some (e, ring)) (free : s.hbmWaits e.addr (descSize q) = false)
include runs halted again head free

/-- The head of the source waits for a FENCE or its counter. -/
theorem State.startDesc_waits {d : List Byte} (fetched : s.fetchDesc c q e.addr = .ok d) (ok : headerOk q d = true)
    (wait : (hdrFence d = true ∧ (s.queue c q).running ≠ []) ∨ s.waitOk c d = false) : s.startDesc c q = s := by
  have waits : (headerOk q d && ((hdrFence d && !(s.queue c q).running.isEmpty) || !s.waitOk c d)) = true := by
    rcases wait with ⟨fence, busy⟩ | wait
    · simp [ok, fence, busy]
    · simp [ok, wait]
  simp only [State.startDesc, runs, halted, again, head, free, fetched, waits, Bool.not_true, Option.isSome_none, Bool.or_self,
    Bool.false_eq_true, if_false, if_true]

/-- The head of the source is taken. -/
theorem State.startDesc_starts {d : List Byte} (fetched : s.fetchDesc c q e.addr = .ok d)
    (go : (headerOk q d && ((hdrFence d && !(s.queue c q).running.isEmpty) || !s.waitOk c d)) = false) :
    s.startDesc c q =
      (((s.afterRead e.addr (descSize q)).setQueue c q { (s.queue c q).taken ring with
          running := (s.queue c q).running ++ [startRunning q e.addr ring e.dispatcher d], next := chainRest q e ring d }).settleQueue c q).enterReserved
        c q := by
  simp only [State.startDesc, runs, halted, again, head, free, fetched, go, Bool.not_true, Option.isSome_none, Bool.or_self,
    Bool.false_eq_true, if_false]
  rfl

/-- The head of the source cannot be fetched. -/
theorem State.startDesc_error {code : Nat} (fetched : s.fetchDesc c q e.addr = .error code) (idle : (s.queue c q).running = []) :
    s.startDesc c q =
      (((s.afterRead e.addr (descSize q)).setQueue c q ((s.queue c q).taken ring)).haltQueue c q code
        { addr := e.addr, fetched := false, ring := ring, last := false, alone := e.dispatcher }).enterReserved c q := by
  simp only [State.startDesc, runs, halted, again, head, free, fetched, idle, Bool.not_true, Option.isSome_none, Bool.or_self,
    Bool.false_eq_true, if_false, List.isEmpty_nil, if_true]
  rfl

end

/-! ## Starting a descriptor again (04 R104) -/

section
variable {s : State} {c q : Nat} {h : Halted} (again : (s.queue c q).again = some h) (free : s.hbmWaits h.addr (descSize q) = false)
include again free

theorem State.startAgain_waits {d : List Byte} (fetched : s.fetchDesc c q h.addr = .ok d) (wait : (headerOk q d && !s.waitOk c d) = true) :
    s.startAgain c q = s := by
  simp only [State.startAgain, again, free, fetched, wait, Bool.false_eq_true, if_false, if_true]

theorem State.startAgain_starts {d : List Byte} (fetched : s.fetchDesc c q h.addr = .ok d) (go : (headerOk q d && !s.waitOk c d) = false) :
    s.startAgain c q =
      ((s.afterRead h.addr (descSize q)).setQueue c q { s.queue c q with
        again := none, running := startRunning q h.addr h.ring h.alone d :: (s.queue c q).running
        next := if (s.queue c q).running.isEmpty && !h.ring then chainRest q { addr := h.addr, dispatcher := h.alone } h.ring d
          else (s.queue c q).next }).settleQueue c q := by
  simp only [State.startAgain, again, free, fetched, go, Bool.false_eq_true, if_false]

theorem State.startAgain_error {code : Nat} (fetched : s.fetchDesc c q h.addr = .error code) :
    s.startAgain c q =
      ((s.afterRead h.addr (descSize q)).setQueue c q { s.queue c q with again := none }).haltQueue c q code { h with fetched := false } := by
  simp only [State.startAgain, again, free, fetched, Bool.false_eq_true, if_false]

end

/-! ## RESUME and SKIP (04 R104) -/

/-- A run of bytes reads as its bytes do. -/
theorem State.bytesAt_congr {s t : State} (h : SameBytes s t) (a n : Nat) : t.bytesAt a n = s.bytesAt a n := by
  induction n generalizing a with
  | zero => rfl
  | succ n ih => rw [State.bytesAt, State.bytesAt, h a, ih]

section
variable (s : State) (x : Tab QueueRun)

theorem State.memRead_queues (a n : Nat) : ({ s with queues := x } : State).memRead a n = s.memRead a n := by
  have reach : ({ s with queues := x } : State).reachable = s.reachable := rfl
  have lost : ({ s with queues := x } : State).lostAt = s.lostAt := rfl
  have poison : ({ s with queues := x } : State).linePoison = s.linePoison := rfl
  have same : SameBytes s { s with queues := x } := SameBytes.of_eq rfl rfl
  have bytes : ∀ b m, ({ s with queues := x } : State).bytesAt b m = s.bytesAt b m := State.bytesAt_congr same
  simp only [State.memRead, reach, lost, poison, bytes]

theorem State.fetchDesc_queues (c q a : Nat) : ({ s with queues := x } : State).fetchDesc c q a = s.fetchDesc c q a := by
  rw [State.fetchDesc, State.memRead_queues, State.fetchDesc]

theorem State.hbmWaits_queues (a n : Nat) : ({ s with queues := x } : State).hbmWaits a n = s.hbmWaits a n := rfl
theorem State.waitOk_queues (c : Nat) (d : List Byte) : ({ s with queues := x } : State).waitOk c d = s.waitOk c d := rfl

end

/-- A halted queue whose descriptor is to run again. -/
def State.unhalted (s : State) (c q : Nat) (h : Halted) : State := s.setQueue c q { s.queue c q with halted := none, again := some h }

section
variable (s : State) (c q : Nat) (h : Halted)

theorem State.queue_unhalted : (s.unhalted c q h).queue c q = { s.queue c q with halted := none, again := some h } := s.queue_setQueue_same c q _

theorem State.again_unhalted : ((s.unhalted c q h).queue c q).again = some h := by rw [State.queue_unhalted]

theorem State.queues_unhalted_other {k : Nat} (hk : k ≠ 6 * c + q) : Tab.get {} (s.unhalted c q h).queues k = Tab.get {} s.queues k :=
  s.queues_setQueue_other c q _ hk

theorem State.fetchDesc_unhalted (a : Nat) : (s.unhalted c q h).fetchDesc c q a = s.fetchDesc c q a := s.fetchDesc_queues _ c q a

theorem State.hbmWaits_unhalted (a n : Nat) : (s.unhalted c q h).hbmWaits a n = s.hbmWaits a n := s.hbmWaits_queues _ a n

theorem State.waitOk_unhalted (d : List Byte) : (s.unhalted c q h).waitOk c d = s.waitOk c d := s.waitOk_queues _ c d

end

theorem State.resumeQueue_eq {s : State} {c q : Nat} {h : Halted} (halted : (s.queue c q).halted = some h) (runs : s.coreRuns c = true) :
    s.resumeQueue c q = (s.unhalted c q h).startAgain c q := by
  have same : (s.setQueue c q { s.queue c q with halted := none, again := some h }).coreRuns c = true := runs
  simp only [State.resumeQueue, halted, same, if_true]
  rfl

theorem State.skipQueue_eq {s : State} {c q : Nat} {h : Halted} (halted : (s.queue c q).halted = some h) :
    s.skipQueue c q =
      ((s.setQueue c q { s.queue c q with halted := none, next := if h.fetched || h.ring then (s.queue c q).next else none }).retireSlot c q
        h.ring).settleQueue c q := by
  simp only [State.skipQueue, halted]

theorem State.queued_retireSlot {keys : List Nat} (s : State) {c q : Nat} (ring : Bool) (h : Claims.at_ (.core c) (qOff q 0x118) ∈ keys) :
    State.Queued keys s (s.retireSlot c q ring) := by
  unfold State.retireSlot
  split
  · exact .putFld s _ _ _ h
  · exact .refl s

theorem State.queues_retireSlot (s : State) (c q : Nat) (ring : Bool) : (s.retireSlot c q ring).queues = s.queues := by
  unfold State.retireSlot
  split <;> simp

/-- A counter modulo a power of two reads as the sum. -/
theorem State.fldAt_addWrap_same (s : State) (b : Block) (o l n x : Nat) (h : l + n ≤ 64) :
    (s.addWrap b o l n x).fldAt b o l n = (s.fldAt b o l n + x) % 2 ^ n := s.fldAt_putFld_same b o l n _ h

theorem State.qHead_retireSlot (s : State) (c q : Nat) (ring : Bool) :
    (s.retireSlot c q ring).qHead c q = (s.qHead c q + if ring then 1 else 0) % 65536 := by
  cases ring with
  | true => simpa [State.retireSlot, State.qHead] using s.fldAt_addWrap_same (.core c) (qOff q 0x118) 0 16 1 (by decide)
  | false => simpa [State.retireSlot] using (Nat.mod_eq_of_lt (s.qHead_lt c q)).symm

end Sys2Proof.Machine
end

section
/-! Entries of a core queue and the start of its descriptors (04 R98–R105, R117). -/

namespace Sys2Proof.Claims

open Sys2Proof.Machine

/-! ## Entries -/

theorem only_putReg_answers (s : State) (b : Block) (o : Nat) (v : Word) :
    Only s ((s.putReg b o v).answers 0) { s with regs := (s.putReg b o v).regs, answer := ((s.putReg b o v).answers 0).answer } [at_ b o] :=
  Only.intro rfl rfl rfl (RegsBut.setReg s v (List.mem_singleton_self _))

theorem only_setQueue_answers (s : State) (c q : Nat) (r : QueueRun) :
    Only s ((s.setQueue c q r).answers 0) { s with queues := (s.setQueue c q r).queues, answer := ((s.setQueue c q r).answers 0).answer } [] :=
  Only.intro rfl rfl rfl (RegsBut.of_regs _ rfl)

theorem reg_putN_answers (s : State) (b : Block) (o n : Nat) : ((s.putN b o n).answers 0).reg b o = BitVec.ofNat 64 n :=
  s.reg_putReg_same b o _

/-- A bit of a register is set, and no other register changes. -/
theorem bit_set_answers (s : State) (b : Block) (o : Nat) {i : Nat} (h : i < 64) :
    ((s.putBit b o i true).answers 0).bitAt b o i = true
      ∧ Only s ((s.putBit b o i true).answers 0)
          { s with regs := (s.putBit b o i true).regs, answer := ((s.putBit b o i true).answers 0).answer } [at_ b o] :=
  ⟨s.bitAt_putBit_same b o i true h, only_putReg_answers s b o _⟩

theorem qTailWriteRule : QTailWriteRule := by
  intro s c q v
  refine ⟨fun online fits => ⟨_, rfl, ?_⟩, fun refused => ⟨_, rfl, ?_⟩⟩
  · have taken : s.writeQTail c q v.toNat = s.putN (.core c) (qOff q 0x110) (v.toNat % 65536) := by
      rw [State.writeQTail, if_neg (not_not.mpr online), if_neg (Nat.not_lt.mpr fits)]
    have fits64 : v.toNat % 65536 % 2 ^ 64 % 2 ^ 16 = v.toNat % 65536 := by omega
    rw [taken]
    generalize v.toNat % 65536 = n at fits64 ⊢
    refine ⟨?_, only_putReg_answers s _ _ _⟩
    rw [State.qTail, State.fldAt, reg_putN_answers, fld, bits, BitVec.toNat_ofNat, Nat.shiftRight_zero, fits64]
  · have rejected : s.writeQTail c q v.toNat = s.putBit (.core c) (qOff q 0x120) 6 true := by
      rw [State.writeQTail]
      split
      · rfl
      · next online => exact if_pos (refused.resolve_left online)
    rw [rejected]
    exact bit_set_answers s _ _ (by decide)

theorem chainFifoOfFour : ChainFifoOfFour := by
  refine ⟨fun s c q v => ?_, fun s c q a reserved room => ?_⟩
  · have address : fld v 0 48 % 2 ^ 48 = fld v 0 48 := Nat.mod_eq_of_lt (fld_lt v 0 48)
    refine ⟨fun online room => ⟨(s.enterChain c q (fld v 0 48)).answers 0, rfl, ?_⟩,
      fun online full => ⟨(s.enterChain c q (fld v 0 48)).answers 0, rfl, ?_⟩,
      fun offline => ⟨(s.enterChain c q (fld v 0 48)).answers 0, rfl, ?_⟩⟩
    · rw [State.enterChain, if_neg (not_not.mpr online), if_pos room, address]
      exact ⟨s.queue_setQueue_same c q _, only_setQueue_answers s c q _⟩
    · rw [State.enterChain, if_neg (not_not.mpr online), if_neg (Nat.not_lt.mpr full)]
      exact bit_set_answers s _ _ (by decide)
    · rw [State.enterChain, if_pos offline]
  · refine ⟨s.enterReserved c q, rfl, ?_⟩
    rw [State.enterReserved_enters reserved room]
    exact ⟨s.queue_setQueue_same c q _, Only.intro rfl rfl rfl (RegsBut.of_regs _ rfl)⟩

/-- Settles O16, by the branches of a write to the tail and of an entry into the FIFO. -/
theorem queueEntries : Obligations.QueueEntries := ⟨qTailWriteRule, chainFifoOfFour⟩

/-! ## Starting -/

/-- A queue's work around a read of memory has the frame of both. -/
theorem onlyRead_of_queued {s v u t : State} {keys : List Nat} (h : State.Queued keys s v) (read : v.Served u) (k : State.Queued keys u t) :
    OnlyRead s t { s with queues := t.queues } keys := by
  have channels : t.channels = u.channels := by rw [k.frame]
  refine ⟨k.frame.trans (by rw [channels, read.frame, h.frame]), ?_, fun a => (k.only.2.2 a).trans ((read.sameBytes a).trans (h.only.2.2 a))⟩
  have first := h.regs.mono (more := keys ++ transferKeys) fun _ => List.mem_append_left _
  exact (first.trans (read.regs.mono fun _ => List.mem_append_right _)).trans (k.regs.mono fun _ => List.mem_append_left _)

/-- A new descriptor behind others none of which has failed. -/
theorem noneFailed_append {s t : State} {c q : Nat} {x : Running} (h : NoneFailed s c q)
    (running : (t.queue c q).running = (s.queue c q).running ++ [x]) (going : x.done = none) : NoneFailed t c q := by
  intro r hr
  rw [running, List.mem_append, List.mem_singleton] at hr
  rcases hr with hr | rfl
  · exact h r hr
  · exact .inl going

theorem descriptorStarts : DescriptorStarts := by
  intro s c q e ring d runs halted again head fetched enters fence failed
  obtain ⟨free, fetched⟩ := fetched
  obtain ⟨run, met⟩ := startRunning_enters enters e.addr ring e.dispatcher
  have go : (headerOk q d && ((hdrFence d && !(s.queue c q).running.isEmpty) || !s.waitOk c d)) = false := by
    cases ok : headerOk q d with
    | false => rfl
    | true =>
      cases fenced : hdrFence d with
      | false => simpa [ok] using met
      | true => simpa [ok, fence ok fenced] using met
  have served := State.served_fetch fetched
  refine ⟨s.startDesc c q, rfl, ?_⟩
  rw [State.startDesc_starts runs halted again head free fetched go, run]
  generalize s.afterRead e.addr (descSize q) = u at served ⊢
  have others : ∀ k, Tab.get {} u.queues k = Tab.get {} s.queues k := fun k => by rw [served.frame]
  rw [State.settleQueue_goesOn fun r => noneFailed_head (noneFailed_append failed (by rw [State.queue_setQueue_same]) rfl)]
  have queue := ((s.queue c q).taken_frame ring)
  refine ⟨?_, ?_, ?_, fun k hk => ?_, onlyRead_of_queued (.refl s) served ?_⟩
  · rw [State.queue_enterReserved, State.queue_setQueue_same]
  · rw [State.queue_enterReserved, State.queue_setQueue_same]
  · rw [State.queue_enterReserved, State.queue_setQueue_same, queue]; exact halted
  · rw [State.queues_enterReserved_other _ _ _ hk, State.queues_setQueue_other _ _ _ _ hk, others]
  · exact (State.Queued.setQueue u _ _ _).trans (State.queued_enterReserved _ _ _)

/-- A descriptor with a reserved header that no engine refuses itself ends MALFORMED. -/
theorem startRunning_malformed {q : Nat} {d : List Byte} (bad : headerOk q d = false) (fle : q ≠ 2) (sv : q ≠ 3) (a : Nat) (ring alone : Bool) :
    startRunning q a ring alone d = { addr := a, desc := d, ring := ring, alone := alone, done := some 1 } := by
  simp [startRunning, bad, fle, sv]

section
variable {s : State} {c : Fin 256} {q : Fin 6} {e : ChainEntry} {ring : Bool} (runs : s.coreRuns c = true) (halted : (s.queue c q).halted = none)
  (again : (s.queue c q).again = none) (head : s.headOf c q = some (e, ring)) (free : s.hbmWaits e.addr (descSize q) = false)
  (idle : (s.queue c q).running = [])
include runs halted again head free idle

/-- The fetch fails: the queue halts before its descriptor has started. -/
theorem descriptorStart_unfetched {code : Nat} (fetched : s.fetchDesc c q e.addr = .error code) :
    Runs (.descriptorStart c q) s fun t =>
      HaltedAt s t c q code { addr := e.addr, fetched := false, ring := ring, last := false, alone := e.dispatcher }
        ∧ t = { s with regs := t.regs, channels := t.channels, queues := t.queues, reports := t.reports }
        ∧ RegsBut s t ([at_ (.core c) (qOff q 0x120), at_ (.core c) 0x030] ++ transferKeys) ∧ SameBytes s t := by
  refine ⟨s.startDesc c q, rfl, ?_⟩
  rw [State.startDesc_error runs halted again head free fetched idle]
  have frame := s.afterRead_frame e.addr (descSize q)
  have regs := s.regsBut_afterRead e.addr (descSize q)
  generalize s.afterRead e.addr (descSize q) = u at frame regs ⊢
  have others : ∀ k, k ≠ 6 * c.val + q.val → Tab.get {} (u.setQueue c q ((s.queue c q).taken ring)).queues k = Tab.get {} s.queues k :=
    fun k hk => by rw [State.queues_setQueue_other _ _ _ _ hk, frame]
  have halt := haltedAt_enterReserved (State.haltedAt_haltQueue
    { addr := e.addr, fetched := false, ring := ring, last := false, alone := e.dispatcher } (State.fetchDesc_error_lt fetched) others)
  have queued := (State.Queued.setQueue u c q ((s.queue c q).taken ring)).trans (State.queued_halt_enter _ c q code
    { addr := e.addr, fetched := false, ring := ring, last := false, alone := e.dispatcher })
  generalize ((u.setQueue c q ((s.queue c q).taken ring)).haltQueue c q code _).enterReserved c q = t at halt queued ⊢
  have channels : t.channels = u.channels := by rw [queued.frame]
  have reports : t.reports = u.reports := by rw [queued.frame]
  refine ⟨halt, queued.frame.trans (by rw [channels, reports, frame]), ?_, fun a => ?_⟩
  · exact (regs.mono fun _ => List.mem_append_right _).trans (queued.regs.mono fun _ => List.mem_append_left _)
  · refine (queued.only.2.2 a).trans (State.byteAt_of_eq ?_ ?_ a) <;> rw [frame]

/-- The header is reserved: the descriptor ends MALFORMED as it starts. -/
theorem descriptorStart_malformed {d : List Byte} (fetched : s.fetchDesc c q e.addr = .ok d) (bad : headerOk q d = false) (fle : q.val ≠ 2)
    (sv : q.val ≠ 3) :
    Runs (.descriptorStart c q) s fun t =>
      HaltedAt s t c q 1 { addr := e.addr, fetched := true, ring := ring, last := hdrLast d, alone := e.dispatcher }
        ∧ OnlyRead s t { s with queues := t.queues } [at_ (.core c) (qOff q 0x120), at_ (.core c) 0x030] := by
  refine ⟨s.startDesc c q, rfl, ?_⟩
  have served := State.served_fetch fetched
  rw [State.startDesc_starts runs halted again head free fetched (by rw [bad]; rfl), startRunning_malformed bad fle sv, idle]
  generalize s.afterRead e.addr (descSize q) = u at served ⊢
  have frame := (s.queue c q).taken_frame ring
  have others : ∀ k, Tab.get {} u.queues k = Tab.get {} s.queues k := fun k => by rw [served.frame]
  rw [State.settleQueue_fails fle (by rw [State.queue_setQueue_same, frame]; exact halted) (by rw [State.queue_setQueue_same, frame]; exact again)
    (by rw [State.queue_setQueue_same]; rfl) rfl (by decide)]
  refine ⟨haltedAt_enterReserved (State.haltedAt_haltQueue _ (by decide) fun k hk => ?_), onlyRead_of_queued (.refl s) served ?_⟩
  · rw [State.queues_setQueue_other _ _ _ _ hk, State.queues_setQueue_other _ _ _ _ hk, others k]
  · exact ((State.Queued.setQueue u _ _ _).trans (.setQueue _ _ _ _)).trans (State.queued_halt_enter _ _ _ _ _)

end

theorem descriptorStartHalts : DescriptorStartHalts := fun _ _ _ _ _ runs halted again head free =>
  ⟨fun _ fetched ok wait => ⟨_, rfl, State.startDesc_waits runs halted again head free fetched ok wait⟩,
    fun idle => ⟨fun _ => descriptorStart_unfetched runs halted again head free idle,
      fun _ => descriptorStart_malformed runs halted again head free idle⟩⟩

/-- Settles O17, by the equation of a start for each outcome of the fetch and of the checks. -/
theorem descriptorStarting : Obligations.DescriptorStarting := ⟨descriptorStarts, descriptorStartHalts⟩

end Sys2Proof.Claims
end

section
/-! SUPPORT. What the abort of an engine's work leaves as it was, and what a FLUSH makes of a queue (04 R104, 05 R131, 06 R168, 08 R231–R233). -/

namespace Sys2Proof.Machine

open Sys2Proof.Claims

/-! ## Steps one after the other -/

/-- What every step of a fold does from state to state, the whole fold does. -/
theorem foldl_of_steps {α : Type} {R : State → State → Prop} (refl : ∀ s, R s s) (trans : ∀ {s t u}, R s t → R t u → R s u)
    {f : State → α → State} (step : ∀ s x, R s (f s x)) (l : List α) (s : State) : R s (l.foldl f s) := by
  induction l generalizing s with
  | nil => exact refl s
  | cons x l ih => exact trans (step s x) (ih _)

/-- Steps that leave the queues as they are. -/
theorem queues_foldl {α : Type} {f : State → α → State} (step : ∀ s x, (f s x).queues = s.queues) (l : List α) (s : State) :
    (l.foldl f s).queues = s.queues :=
  foldl_of_steps (R := fun s t => t.queues = s.queues) (fun _ => rfl) (fun h k => k.trans h) step l s

/-! ## The queues while a solver's work is aborted (08 R231–R233) -/

theorem State.queues_memWrite (s : State) (a : Nat) (bs : List Byte) (p : Bool) : (s.memWrite a bs p).queues = s.queues := by
  rw [(Memory.touched_memWrite s a bs p).frame]

theorem State.queues_updateStatus (s : State) (a : Nat) (f : List Byte → List Byte) : (s.updateStatus a f).queues = s.queues := by
  rw [(Memory.touched_updateStatus s a f).frame]

theorem State.queues_setSvRun (s : State) (c : Nat) (r : SvRun) : (s.setSvRun c r).queues = s.queues := rfl

theorem State.queues_setCtl (s : State) (d : List Byte) (off n v : Nat) : (s.setCtl d off n v).queues = s.queues := s.queues_memWrite _ _ _

theorem State.queues_voidBatch (s : State) (d : List Byte) (keep own : List Nat) : (s.voidBatch d keep own).queues = s.queues := by
  unfold State.voidBatch
  split
  · rfl
  · dsimp only
    split
    · rfl
    · exact s.queues_updateStatus _ _

theorem State.queues_leaveCrew (s : State) (die : Nat) (d : List Byte) : (s.leaveCrew die d).queues = s.queues := by
  unfold State.leaveCrew
  simp only [apply_ite State.queues, ite_self, State.setDispatcher_queues, State.queues_setCtl]

theorem State.queues_retireSlots (s : State) (die ring : Nat) : (s.retireSlots die ring).queues = s.queues := by
  simp [State.retireSlots]

theorem State.queues_batchDone (s : State) (status : Nat) : (s.batchDone status).queues = s.queues := by
  unfold State.batchDone
  refine (queues_foldl (fun s die => ?_) _ _).trans rfl
  refine queues_foldl (fun s ring => ?_) _ _
  rw [State.queues_retireSlots, State.setDispatcher_queues]

theorem State.queues_passHeads (s : State) (die c : Nat) : (s.passHeads die c).queues = s.queues := by
  refine queues_foldl (fun s ring => ?_) _ _
  simp [apply_ite State.queues]

theorem State.queues_forgetSlots (s : State) (c : Nat) (waiting : Bool) : (s.forgetSlots c waiting).queues = s.queues := by
  have left : ∀ (l : List (List Byte)) (t : State), (l.foldl (fun s d => (s.voidBatch d [] []).leaveCrew (dieOf c) d) t).queues = t.queues :=
    queues_foldl fun s d => by rw [State.queues_leaveCrew, State.queues_voidBatch]
  unfold State.forgetSlots
  cases waiting with
  | true =>
    simp only [if_true]
    rw [queues_foldl (fun s ring => s.queues_retireSlots _ ring), left, State.setDispatcher_queues, State.queues_passHeads]
  | false =>
    simp only [Bool.false_eq_true, if_false]
    rw [left, State.setDispatcher_queues]

theorem State.queues_dropEntered (s : State) (c : Nat) : (s.dropEntered c).queues = s.queues := by
  unfold State.dropEntered
  rw [queues_foldl fun s d => by rw [State.queues_leaveCrew, State.queues_voidBatch], State.queues_forgetSlots]

theorem State.queues_writeLane (lanes lane base : Nat) (s : State) (w : Nat) (vs : List Nat) :
    (State.writeLane lanes lane base s w vs).queues = s.queues := by
  induction vs generalizing s w with
  | nil => rfl
  | cons v vs ih => rw [State.writeLane, ih, State.memWriteN, State.queues_memWrite]

theorem State.queues_leaveImage (s : State) (c : Nat) : (s.leaveImage c).queues = s.queues := by
  unfold State.leaveImage
  dsimp only
  rw [State.queues_setSvRun, queues_foldl fun s e => State.queues_writeLane _ _ _ s _ _]

theorem State.queues_writeProblem (s : State) (d : List Byte) (i lane core : Nat) (v : Solved) : (s.writeProblem d i lane core v).queues = s.queues := by
  rw [State.writeProblem, State.writeRecord, State.queues_memWrite, State.queues_memWrite]

theorem State.queues_countSv (s : State) (c n : Nat) : (s.countSv c n).queues = s.queues := by
  simp [State.countSv, apply_ite State.queues]

theorem State.queues_writeSegment (s : State) (c : Nat) (d : List Byte) : (s.writeSegment c d).queues = s.queues := by
  have written : ∀ (seg : List Solved) (first : Nat) (t : State),
      (seg.zipIdx.foldl (fun s e => s.writeProblem d (first + e.2) e.2 c e.1) t).queues = t.queues :=
    fun seg first => queues_foldl (fun s e => s.queues_writeProblem d _ _ _ _) seg.zipIdx
  unfold State.writeSegment
  simp only [apply_ite State.queues, ite_self, State.queues_batchDone, State.queues_setSvRun, State.queues_updateStatus, State.queues_countSv,
    written, State.queues_leaveImage]

theorem State.queues_abortRun (s : State) (c : Nat) : (s.abortRun c).queues = s.queues := by
  unfold State.abortRun
  dsimp only
  split
  · simp only [apply_ite State.queues, ite_self, State.queues_leaveCrew, State.queues_setSvRun, State.queues_updateStatus, State.drawnN_queues,
      State.queues_writeSegment, State.queues_voidBatch]
  · rfl

theorem State.queues_abortSv (s : State) (c : Nat) : (s.abortSv c).queues = s.queues := by
  rw [State.abortSv, State.queues_dropEntered, State.queues_abortRun]

/-! ## The Matrix Engine and the Flow Engine (05 R131, 06 R168) -/

/-- An aborted MXE descriptor writes its bank alone. -/
theorem State.abortMxe_frame (s : State) (c e : Nat) : s.abortMxe c e = { s with acc := (s.abortMxe c e).acc } := by
  have trans : ∀ {s t u : State}, t = { s with acc := t.acc } → u = { t with acc := u.acc } → u = { s with acc := u.acc } :=
    fun h k => k.trans (by rw [h])
  refine foldl_of_steps (R := fun s t => t = { s with acc := t.acc }) (fun _ => rfl) trans (fun s x => ?_) _ _
  refine foldl_of_steps (R := fun s t => t = { s with acc := t.acc }) (fun _ => rfl) trans (fun s r => ?_) _ _
  exact foldl_of_steps (R := fun s t => t = { s with acc := t.acc }) (fun _ => rfl) trans (fun s j => rfl) _ _

theorem State.queues_lateWrites (s : State) (ws : List LateWrite) : (s.lateWrites ws).queues = s.queues :=
  queues_foldl (fun s _ => s.queues_memWrite _ _ _) ws s

theorem State.queues_endSummaries (s : State) (c q : Nat) (r : Running) : (s.endSummaries c q r).queues = s.queues := by
  simp only [State.endSummaries, apply_ite State.queues, ite_self, State.queues_lateWrites]

theorem State.queues_abortFle (s : State) (c : Nat) : (s.abortFle c).queues = s.queues := by
  refine queues_foldl (fun s x => ?_) _ _
  simp only [apply_ite State.queues, ite_self, State.queues_endSummaries]

theorem State.abortFle_idle {s : State} {c : Nat} (idle : (s.queue c 2).running = []) : s.abortFle c = s := by
  rw [State.abortFle, idle]
  rfl

/-! ## FLUSH (04 R104) -/

/-- The engine of a queue gives up its work. -/
def State.abortWork (s : State) (c q : Nat) : State :=
  if q = 3 then s.abortSv c else if q = 2 then s.abortFle c else if q ≤ 1 then s.abortMxe c q else s

theorem State.flushQueue_eq (s : State) (c q : Nat) :
    s.flushQueue c q = (((s.abortWork c q).dropPumpTray c q).abortError c q).dropPending c q := rfl

theorem State.queues_abortWork (s : State) (c q : Nat) : (s.abortWork c q).queues = s.queues := by
  have mxe : (s.abortMxe c q).queues = s.queues := by rw [s.abortMxe_frame]
  simp only [State.abortWork, apply_ite State.queues, ite_self, State.queues_abortSv, State.queues_abortFle, mxe]

/-- Of an MXE queue the bank changes; a pump, or an idle FLE, has nothing to give up. -/
theorem State.abortWork_frame {s : State} {c q : Nat} (sv : q ≠ 3) (fle : q = 2 → (s.queue c q).running = []) :
    s.abortWork c q = { s with acc := (s.abortWork c q).acc } := by
  unfold State.abortWork
  rw [if_neg sv]
  split
  · next two => subst two; rw [State.abortFle_idle (fle rfl)]
  · split
    · exact s.abortMxe_frame c q
    · rfl

theorem State.abortWork_pump {s : State} {c q : Nat} (sv : q ≠ 3) (fle : q = 2 → (s.queue c q).running = []) (mxe : 1 < q) :
    s.abortWork c q = s := by
  unfold State.abortWork
  rw [if_neg sv]
  split
  · next two => subst two; exact State.abortFle_idle (fle rfl)
  · exact if_neg (Nat.not_le.mpr mxe)

/-- The registers that a FLUSH writes. -/
def flushKeys (c q : Nat) : List Nat := [Claims.at_ (.core c) (qOff q 0x118), Claims.at_ (.core c) (qOff q 0x120)]

theorem State.queued_abortError (s : State) (c q : Nat) : State.Queued (flushKeys c q) s (s.abortError c q) := by
  unfold State.abortError State.queueError
  split
  · exact .putFld s _ _ _ (by simp [flushKeys])
  · exact .refl s

theorem State.queued_dropPending (s : State) (c q : Nat) : State.Queued (flushKeys c q) s (s.dropPending c q) :=
  (State.Queued.setQueue s c q {}).trans (.putFld _ _ _ _ (by simp [flushKeys]))

theorem State.queues_dropPending (s : State) (c q : Nat) : (s.dropPending c q).queues = (s.setQueue c q {}).queues := by
  rw [State.dropPending, State.putFld_queues]

theorem State.queues_abortError (s : State) (c q : Nat) : (s.abortError c q).queues = s.queues := by
  unfold State.abortError State.queueError
  split
  · exact State.putFld_queues _ _ _ _ _ _
  · rfl

/-- A FLUSH empties its own queue and leaves every other. -/
theorem State.queues_flushQueue (s : State) (c q : Nat) : (s.flushQueue c q).queues = Tab.set {} s.queues (6 * c + q) {} := by
  have tray : ∀ t : State, (t.dropPumpTray c q).queues = t.queues := fun _ => rfl
  rw [State.flushQueue_eq, State.queues_dropPending, State.setQueue, State.queues_abortError, tray, State.queues_abortWork]

theorem State.queue_flushQueue (s : State) (c q : Nat) : (s.flushQueue c q).queue c q = {} := by
  rw [State.queue, State.queues_flushQueue, Tab.get_set_same]

theorem State.regs_setQueue_putFld_other {s : State} {c q o l n v : Nat} (r : QueueRun) {o' : Nat} (h : o' ≠ o) :
    ((s.setQueue c q r).putFld (.core c) o l n v).reg (.core c) o' = s.reg (.core c) o' := by
  rw [State.reg_putFld_other _ (offset_ne _ h)]
  exact State.reg_of_regs (State.setQueue_regs _ _ _ _) _ _

theorem State.reg_dropPending_other (s : State) (c q : Nat) {o : Nat} (h : o ≠ qOff q 0x118) :
    (s.dropPending c q).reg (.core c) o = s.reg (.core c) o := State.regs_setQueue_putFld_other _ h

theorem State.qTail_dropPending (s : State) (c q : Nat) : (s.dropPending c q).qTail c q = s.qTail c q :=
  State.fldAt_of_reg (s.reg_dropPending_other c q (by unfold qOff; omega)) 0 16

theorem State.qHead_dropPending (s : State) (c q : Nat) : (s.dropPending c q).qHead c q = s.qTail c q := by
  have head := State.fldAt_putFld_same (s.setQueue c q {}) (.core c) (qOff q 0x118) 0 16 (s.qTail c q) (by decide)
  have small : s.qTail c q < 2 ^ 16 := s.qTail_lt c q
  rw [Nat.mod_eq_of_lt small] at head
  exact head

/-- An empty queue whose ring has no slot to start is IDLE. -/
theorem State.queueState_idle {s : State} {c q : Nat} (empty : s.queue c q = {}) (ring : s.qHead c q = s.qTail c q) : s.queueState c q = 0 := by
  have next : s.ringNext c q = s.qTail c q := by
    rw [State.ringNext, empty, ring]
    exact Nat.mod_eq_of_lt (s.qTail_lt c q)
  have none : s.headOf c q = none := by simp [State.headOf, State.ringPending, empty, next]
  simp [State.queueState, empty, none]

/-- The low bits of a field. -/
theorem State.fldAt_low (s : State) (b : Block) (o l : Nat) {n m : Nat} (h : m ≤ n) : s.fldAt b o l m = s.fldAt b o l n % 2 ^ m := by
  rw [State.fldAt, State.fldAt, fld, fld, bits, bits, Nat.mod_mod_of_dvd _ (Nat.pow_dvd_pow 2 h)]

/-- Where a descriptor ran, Q_STATUS shows its status. -/
theorem State.status_abortError {s : State} {c q : Nat} {r : Running} {rs : List Running} (running : (s.queue c q).running = r :: rs) :
    (s.abortError c q).fldAt (.core c) (qOff q 0x120) 8 8 = 4 := by
  have error : (s.abortError c q).fldAt (.core c) (qOff q 0x120) 8 56 = (4 + r.addr * 2 ^ 8) % 2 ^ 56 := by
    rw [State.abortError, running]
    exact State.fldAt_putFld_same _ _ _ _ _ _ (by decide)
  rw [State.fldAt_low _ _ _ _ (by decide : 8 ≤ 56), error]
  omega

end Sys2Proof.Machine
end

section
/-! RESUME, SKIP and FLUSH of a core queue (04 R104). -/

namespace Sys2Proof.Claims

open Sys2Proof.Machine

/-! ## RESUME -/

section
variable {s : State} {c : Fin 256} {q : Fin 6} {h : Halted} (halted : (s.queue c q).halted = some h) (runs : s.coreRuns c = true)
  (free : s.hbmWaits h.addr (descSize q) = false)
include halted runs free

/-- The descriptor starts again, ahead of the others. -/
theorem resume_starts {d : List Byte} (fetched : s.fetchDesc c q h.addr = .ok d) (enters : Enters s c q d) :
    Runs (.resume c q) s fun t =>
      t.queue c q = { s.queue c q with
        halted := none, again := none
        running := { addr := h.addr, desc := d, ring := h.ring, alone := h.alone } :: (s.queue c q).running
        next := if (s.queue c q).running = [] ∧ h.ring = false then chainRest q { addr := h.addr, dispatcher := h.alone } false d
          else (s.queue c q).next }
        ∧ (∀ k, k ≠ 6 * c.val + q.val → Tab.get {} t.queues k = Tab.get {} s.queues k)
        ∧ OnlyRead s t { s with queues := t.queues } [] := by
  refine ⟨s.resumeQueue c q, rfl, ?_⟩
  obtain ⟨run, met⟩ := startRunning_enters enters h.addr h.ring h.alone
  have others : ∀ k, k ≠ 6 * c.val + q.val → Tab.get {} (s.unhalted c q h).queues k = Tab.get {} s.queues k :=
    fun k hk => s.queues_unhalted_other c q h hk
  have unhalted : State.Queued [] s (s.unhalted c q h) := .setQueue s c q _
  have fetchedU := (s.fetchDesc_unhalted c q h _).trans fetched
  rw [State.resumeQueue_eq halted runs, State.startAgain_starts (s.again_unhalted c q h) ((s.hbmWaits_unhalted c q h _ _).trans free) fetchedU
    (by rw [State.waitOk_unhalted]; exact met), run, State.queue_unhalted]
  have served := State.served_fetch fetchedU
  generalize s.unhalted c q h = v at served others unhalted ⊢
  generalize v.afterRead h.addr (descSize q) = u at served ⊢
  rw [State.settleQueue_goesOn fun r hr => by rw [State.queue_setQueue_same] at hr; cases hr; exact .inl rfl]
  refine ⟨?_, fun k hk => ?_, onlyRead_of_queued unhalted served (.setQueue u c q _)⟩
  · rw [State.queue_setQueue_same]
    cases ring : h.ring <;> cases (s.queue c q).running <;> rfl
  · rw [State.queues_setQueue_other _ _ _ _ hk, ← others k hk, served.frame]

/-- The descriptor waits for its counter, no longer halted. -/
theorem resume_waits {d : List Byte} (fetched : s.fetchDesc c q h.addr = .ok d) (ok : headerOk q d = true) (wait : s.waitOk c d = false) :
    Runs (.resume c q) s fun t =>
      t.queue c q = { s.queue c q with halted := none, again := some h } ∧ Only s t { s with queues := t.queues } [] := by
  refine ⟨s.resumeQueue c q, rfl, ?_⟩
  have waits : (headerOk q d && !(s.unhalted c q h).waitOk c d) = true := by rw [State.waitOk_unhalted, ok, wait]; rfl
  rw [State.resumeQueue_eq halted runs, State.startAgain_waits (s.again_unhalted c q h) ((s.hbmWaits_unhalted c q h _ _).trans free)
    ((s.fetchDesc_unhalted c q h _).trans fetched) waits]
  exact ⟨s.queue_unhalted c q h, Only.intro rfl rfl rfl (RegsBut.of_regs _ rfl)⟩

/-- The descriptor cannot be fetched again. -/
theorem resume_unfetched {code : Nat} (fetched : s.fetchDesc c q h.addr = .error code) :
    Runs (.resume c q) s fun t => HaltedAt s t c q code { h with fetched := false } ∧ (t.queue c q).running = (s.queue c q).running := by
  refine ⟨s.resumeQueue c q, rfl, ?_⟩
  have others : ∀ k, k ≠ 6 * c.val + q.val → Tab.get {} (s.unhalted c q h).queues k = Tab.get {} s.queues k :=
    fun k hk => s.queues_unhalted_other c q h hk
  rw [State.resumeQueue_eq halted runs, State.startAgain_error (s.again_unhalted c q h) ((s.hbmWaits_unhalted c q h _ _).trans free)
    ((s.fetchDesc_unhalted c q h _).trans fetched), State.queue_unhalted]
  generalize s.unhalted c q h = v at others ⊢
  have frame := v.afterRead_frame h.addr (descSize q)
  generalize v.afterRead h.addr (descSize q) = u at frame ⊢
  refine ⟨State.haltedAt_haltQueue _ (State.fetchDesc_error_lt fetched) fun k hk => ?_, ?_⟩
  · rw [State.queues_setQueue_other _ _ _ _ hk, ← others k hk, frame]
  · rw [State.queue_haltQueue, State.queue_setQueue_same]

end

/-! ## SKIP -/

theorem skip_retires {s : State} {c : Fin 256} {q : Fin 6} {h : Halted} (halted : (s.queue c q).halted = some h) (failed : NoneFailed s c q) :
    Runs (.skip c q) s fun t =>
      t.queue c q = { s.queue c q with halted := none, next := if h.fetched || h.ring then (s.queue c q).next else none }
        ∧ t.qHead c q = (s.qHead c q + if h.ring then 1 else 0) % 65536
        ∧ Only s t { s with regs := t.regs, queues := t.queues } [at_ (.core c) (qOff q 0x118)] := by
  refine ⟨s.skipQueue c q, rfl, ?_⟩
  rw [State.skipQueue_eq halted]
  generalize hr : ({ s.queue c q with halted := none, next := if h.fetched || h.ring then (s.queue c q).next else none } : QueueRun) = r
  have queue : ((s.setQueue c q r).retireSlot c q h.ring).queue c q = r := by
    rw [State.queue_of_queues (State.queues_retireSlot _ _ _ _), State.queue_setQueue_same]
  have head : (s.setQueue c q r).qHead c q = s.qHead c q := State.fldAt_of_reg (State.reg_of_regs (State.setQueue_regs _ _ _ _) _ _) 0 16
  rw [State.settleQueue_goesOn fun x hx => noneFailed_head failed (by rw [queue, ← hr] at hx; exact hx)]
  exact ⟨queue, by rw [State.qHead_retireSlot, head],
    ((State.Queued.setQueue s c q r).trans (State.queued_retireSlot _ _ (List.mem_singleton_self _))).only⟩

theorem haltedQueueGoesOn : HaltedQueueGoesOn :=
  ⟨fun _ _ _ _ halted runs free =>
      ⟨fun _ => resume_starts halted runs free, fun _ => resume_waits halted runs free, fun _ => resume_unfetched halted runs free⟩,
    fun _ _ _ _ => skip_retires⟩

/-! ## FLUSH -/

theorem flushEmptiesQueue : FlushEmptiesQueue := by
  intro s c q
  refine ⟨s.flushQueue c q, rfl, ?_⟩
  have empty := s.queue_flushQueue c q
  have queues := s.queues_flushQueue c q
  have given := s.queues_abortWork c q
  have frame := State.abortWork_frame (s := s) (c := c) (q := q)
  have pump := State.abortWork_pump (s := s) (c := c) (q := q)
  rw [State.flushQueue_eq] at empty queues ⊢
  generalize s.abortWork c q = w at empty queues given frame pump ⊢
  have tray : w.dropPumpTray c q = { w with tray := (w.dropPumpTray c q).tray } := rfl
  generalize w.dropPumpTray c q = u at empty queues tray ⊢
  have queued := (u.queued_abortError c q).trans (State.queued_dropPending _ c q)
  have head : ((u.abortError c q).dropPending c q).qHead c q = ((u.abortError c q).dropPending c q).qTail c q := by
    rw [State.qHead_dropPending, State.qTail_dropPending]
  refine ⟨empty, head, State.queueState_idle empty head, fun _ r rs running => ?_, fun sv fle => ⟨fun k hk => ?_, fun later => ?_, ?_⟩⟩
  · have same : (u.queue c q).running = r :: rs := by
      rw [State.queue_of_queues (s := s) (by rw [tray]; exact given)]; exact running
    rw [State.fldAt_of_reg (State.reg_dropPending_other _ c q (by unfold qOff; omega))]
    exact State.status_abortError same
  · rw [queues]
    exact Tab.get_set_other _ _ _ _ _ _ hk
  · rw [queued.frame, tray, pump sv fle later]
  · have acc : ((u.abortError c q).dropPending c q).acc = w.acc := by rw [queued.frame, tray]
    have trayed : ((u.abortError c q).dropPending c q).tray = u.tray := by rw [queued.frame]
    have unread : RegsBut s u (flushKeys c q) := RegsBut.of_regs _ (by rw [tray, frame sv fle])
    exact Only.intro (queued.frame.trans (by rw [acc, trayed, tray, frame sv fle])) rfl rfl (unread.trans queued.regs)

/-- Settles O18, by the equation of a second start for each outcome of its fetch, and by what a FLUSH leaves of its queue. -/
theorem haltedAndFlushed : Obligations.HaltedAndFlushed := ⟨haltedQueueGoesOn, flushEmptiesQueue⟩

end Sys2Proof.Claims
end

section
/-! SUPPORT. The requests for a core's state, one equation per case (04 R116, R117, Table 4-9). -/

namespace Sys2Proof.Machine

open Sys2Proof.Claims

/-! ## Steps that each do their part -/

/-- A fold in which each step does its element's part, and undoes no other's, has done the part of every element. -/
theorem foldl_establishes {P : State → Nat → Prop} {f : State → Nat → State} (does : ∀ s i, P (f s i) i)
    (keeps : ∀ s i j, P s j → P (f s i) j) {l : List Nat} {j : Nat} (h : j ∈ l) (s : State) : P (l.foldl f s) j := by
  have kept : ∀ (l : List Nat) (s : State), P s j → P (l.foldl f s) j := fun l s =>
    foldl_of_steps (R := fun s t => P s j → P t j) (fun _ => id) (fun h k hs => k (h hs)) (fun s i => keeps s i j) l s
  induction l generalizing s with
  | nil => simp at h
  | cons i l ih =>
    rcases List.mem_cons.mp h with rfl | h
    · exact kept l _ (does s j)
    · exact ih h _

theorem mem_queues {q : Nat} (h : q < 6) : q ∈ [0, 1, 2, 3, 4, 5] := by simp only [List.mem_cons]; omega

/-! ## A core's state -/

theorem State.coreState_of_reg {s t : State} {c : Nat} (h : t.reg (.core c) 0x008 = s.reg (.core c) 0x008) : t.coreState c = s.coreState c :=
  State.fldAt_of_reg h 0 2

theorem State.coreState_putFld_other (s : State) (c : Nat) {o : Nat} (l n v : Nat) (h : 0x008 ≠ o) :
    (s.putFld (.core c) o l n v).coreState c = s.coreState c := State.coreState_of_reg (s.reg_putFld_other (offset_ne _ h))

theorem State.coreState_putFld_same (s : State) (c : Nat) {st : Nat} (h : st < 4) : (s.putFld (.core c) 0x008 0 2 st).coreState c = st := by
  have same := s.fldAt_putFld_same (.core c) 0x008 0 2 st (by decide)
  rwa [Nat.mod_eq_of_lt (show st < 2 ^ 2 from h)] at same

theorem rejectAddr_core (c : Nat) : rejectAddr (.core c) = Claims.at_ (.core c) 0x2F0 := by
  simp [rejectAddr, commitAddr, commitOff, Claims.at_]

/-- A core takes its berths' clearing on as it stops (14 R382). -/
theorem State.startClear_frame (s : State) (owner : Nat) : s.startClear owner = { s with berths := (s.startClear owner).berths } := by
  refine foldl_of_steps (R := fun s t => t = { s with berths := t.berths }) (fun _ => rfl) (fun h k => k.trans (by rw [h])) (fun s b => ?_) _ _
  split <;> rfl

/-- A core that leaves service. -/
def State.shutCore (s : State) (c st : Nat) : State := (s.putFld (.core c) 0x008 0 2 st).putBit (.core c) 0x008 3 false

theorem State.regs_stopCore (s : State) (c st : Nat) : (s.stopCore c st).regs = (s.shutCore c st).regs := by
  rw [State.stopCore, State.startClear_frame]; rfl

theorem State.stopCore_frame (s : State) (c st : Nat) :
    s.stopCore c st = { s with regs := (s.stopCore c st).regs, berths := (s.stopCore c st).berths } := by
  have shut : s.shutCore c st = { s with regs := (s.shutCore c st).regs } := by
    have first : s.putFld (.core c) 0x008 0 2 st = { s with regs := (s.putFld (.core c) 0x008 0 2 st).regs } := rfl
    rw [State.shutCore]
    generalize s.putFld (.core c) 0x008 0 2 st = u at first ⊢
    rw [first]; rfl
  rw [s.regs_stopCore c st]
  have stop := (s.shutCore c st).startClear_frame c
  change (s.shutCore c st).startClear c = { s with regs := (s.shutCore c st).regs, berths := ((s.shutCore c st).startClear c).berths }
  generalize (s.shutCore c st).startClear c = t at stop ⊢
  generalize s.shutCore c st = u at stop shut ⊢
  rw [stop, shut]

theorem State.regsBut_stopCore (s : State) (c st : Nat) : RegsBut s (s.stopCore c st) [Claims.at_ (.core c) 0x008] := by
  refine RegsBut.trans (t := s.shutCore c st) ?_ (RegsBut.of_regs _ (s.regs_stopCore c st))
  exact (RegsBut.putFld s _ _ _ (List.mem_singleton_self _)).trans (RegsBut.putBit _ _ _ (List.mem_singleton_self _))

theorem State.coreState_stopCore (s : State) (c : Nat) {st : Nat} (h : st < 4) : (s.stopCore c st).coreState c = st := by
  rw [State.coreState_of_reg (State.reg_of_regs (s.regs_stopCore c st) _ _), State.shutCore, State.coreState,
    State.fldAt_putBit_field _ _ _ _ _ _ _ (by decide)]
  exact s.coreState_putFld_same c h

theorem State.waiting_stopCore (s : State) (c st : Nat) : (s.stopCore c st).bitAt (.core c) 0x008 3 = false := by
  rw [State.bitAt_of_reg (State.reg_of_regs (s.regs_stopCore c st) _ _)]
  exact State.bitAt_putBit_same _ _ _ _ _ (by decide)

theorem State.queues_stopCore (s : State) (c st : Nat) : (s.stopCore c st).queues = s.queues := by rw [State.stopCore_frame]

/-! ## OFFLINE_DRAIN and OFFLINE_ABORT -/

/-- A draining core changes its SV queue alone. -/
theorem State.queue_drainSv_other (s : State) (c : Nat) {q : Nat} (h : q ≠ 3) : (s.drainSv c).queue c q = s.queue c q := by
  unfold State.drainSv
  dsimp only
  rw [State.queue_setQueue_other _ _ _ _ h]
  refine State.queue_of_queues ?_ c q
  rw [State.queues_forgetSlots, State.queues_dropEntered]
  split
  · simp only [apply_ite State.queues, ite_self, State.queues_voidBatch]
  · rfl

theorem State.queue_flushCore (s : State) (c : Nat) {q : Nat} (h : q < 6) : (s.flushCore c).queue c q = {} := by
  refine foldl_establishes (P := fun s q => s.queue c q = {}) (fun s q => s.queue_flushQueue c q) (fun s x q empty => ?_) (mem_queues h) s
  rw [State.queue, State.queues_flushQueue]
  by_cases same : 6 * c + q = 6 * c + x
  · rw [same, Tab.get_set_same]
  · rw [Tab.get_set_other _ _ _ _ _ _ same]; exact empty

/-! ## ONLINE -/

/-- A queue starts empty, with its ring's indices at 0. -/
def State.openQueue (s : State) (c q : Nat) : State :=
  ((s.setQueue c q {}).putN (.core c) (qOff q 0x110) 0).putN (.core c) (qOff q 0x118) 0

/-- The queues start empty and the event counters at 0. -/
def State.openQueues (s : State) (c : Nat) : State :=
  (List.range 16).foldl (fun s i => s.putN (.core c) (0x040 + 8 * i) 0) ([0, 1, 2, 3, 4, 5].foldl (fun s q => s.openQueue c q) s)

/-- The pilot core starts with this hart and a new lvseed. -/
def State.startPilot (s : State) (c : Nat) (x : Hart) : State :=
  let s := s.setHart c x
  { s with lvseed := Tab.set (Config.entropy c) s.lvseed c (Config.freeWord s.draws) }.drawn

/-- The hart at PILOT_PC. -/
def State.pilotHart (s : State) (c : Nat) : Hart := { pc := BitVec.ofNat 64 (wellBase c + s.fldAt (.core c) 0x018 0 22) }

theorem State.pilotHart_of_reg {s t : State} {c : Nat} (h : t.reg (.core c) 0x018 = s.reg (.core c) 0x018) : t.pilotHart c = s.pilotHart c := by
  rw [State.pilotHart, State.pilotHart, State.fldAt_of_reg h]

/-- The core is ONLINE with its banks cleared, and its pilot core starts. -/
def State.startCore (s : State) (c : Nat) : State :=
  ((s.putFld (.core c) 0x008 0 2 0).clearBanks c).startPilot c (((s.putFld (.core c) 0x008 0 2 0).clearBanks c).pilotHart c)

theorem State.onlineCore_eq {s : State} {c : Nat} (h : s.coreState c = 2) : s.onlineCore c = (s.openQueues c).startCore c := by
  rw [State.onlineCore, if_pos h]
  simp only [State.startCore, State.startPilot, State.pilotHart, State.openQueues, State.openQueue]

/-- What a started queue reads as. -/
def State.Fresh (s : State) (c q : Nat) : Prop := s.queue c q = {} ∧ s.qHead c q = 0 ∧ s.qTail c q = 0

theorem State.fresh_of_eq {s t : State} {c q : Nat} (h : s.Fresh c q) (queues : t.queues = s.queues)
    (regs : ∀ o, 0x100 ≤ o → t.reg (.core c) o = s.reg (.core c) o) : t.Fresh c q := by
  obtain ⟨empty, head, tail⟩ := h
  exact ⟨(State.queue_of_queues queues c q).trans empty, (State.fldAt_of_reg (regs _ (by unfold qOff; omega)) 0 16).trans head,
    (State.fldAt_of_reg (regs _ (by unfold qOff; omega)) 0 16).trans tail⟩

theorem State.queues_openQueue (s : State) (c q : Nat) : (s.openQueue c q).queues = (s.setQueue c q {}).queues := by
  rw [State.openQueue, State.putN_queues, State.putN_queues]

theorem State.reg_openQueue_other (s : State) (c q : Nat) {o : Nat} (tail : o ≠ qOff q 0x110) (head : o ≠ qOff q 0x118) :
    (s.openQueue c q).reg (.core c) o = s.reg (.core c) o := by
  rw [State.openQueue, State.putN, State.reg_putReg_other _ _ (offset_ne _ head), State.putN, State.reg_putReg_other _ _ (offset_ne _ tail)]
  exact State.reg_of_regs (State.setQueue_regs _ _ _ _) _ _

theorem State.zero_putN (s : State) (b : Block) (o l n : Nat) : (s.putN b o 0).fldAt b o l n = 0 := by
  simp [State.fldAt, State.putN, fld, bits]

theorem State.fresh_openQueue (s : State) (c q : Nat) : (s.openQueue c q).Fresh c q := by
  have ne : qOff q 0x110 ≠ qOff q 0x118 := by unfold qOff; omega
  refine ⟨?_, State.zero_putN _ _ _ 0 16, ?_⟩
  · rw [State.queue_of_queues (s.queues_openQueue c q), State.queue_setQueue_same]
  · exact (State.fldAt_of_reg (State.reg_putReg_other _ _ (offset_ne _ ne)) 0 16).trans (State.zero_putN (s.setQueue c q {}) _ _ 0 16)

theorem State.fresh_openQueue_other {s : State} {c q : Nat} (x : Nat) (h : s.Fresh c q) : (s.openQueue c x).Fresh c q := by
  by_cases same : q = x
  · rw [same]; exact s.fresh_openQueue c x
  obtain ⟨empty, head, tail⟩ := h
  refine ⟨?_, (State.fldAt_of_reg (s.reg_openQueue_other c x ?_ ?_) 0 16).trans head,
    (State.fldAt_of_reg (s.reg_openQueue_other c x ?_ ?_) 0 16).trans tail⟩
  · rw [State.queue_of_queues (s.queues_openQueue c x), State.queue_setQueue_other _ _ _ _ same, empty]
  all_goals unfold qOff; omega


/-- The second state differs from the first in its registers and queues alone. -/
def State.QueueFrame (s t : State) : Prop := t = { s with regs := t.regs, queues := t.queues }

theorem State.QueueFrame.trans {s t u : State} (h : s.QueueFrame t) (k : t.QueueFrame u) : s.QueueFrame u := Eq.trans k (by rw [h])

theorem State.queueFrame_putN (s : State) (b : Block) (o n : Nat) : s.QueueFrame (s.putN b o n) := rfl

theorem State.queueFrame_openQueue (s : State) (c q : Nat) : s.QueueFrame (s.openQueue c q) :=
  .trans (.trans (show s.QueueFrame (s.setQueue c q {}) from rfl) (State.queueFrame_putN _ _ _ _)) (State.queueFrame_putN _ _ _ _)

theorem State.queueFrame_openQueues (s : State) (c : Nat) : s.QueueFrame (s.openQueues c) :=
  .trans (foldl_of_steps (R := State.QueueFrame) (fun _ => rfl) State.QueueFrame.trans (fun s q => s.queueFrame_openQueue c q) [0, 1, 2, 3, 4, 5] s)
    (foldl_of_steps (R := State.QueueFrame) (fun _ => rfl) State.QueueFrame.trans (fun s _ => s.queueFrame_putN _ _ _) _ _)

/-- The registers below the event counters keep their values. -/
theorem State.reg_openQueues_low (s : State) (c : Nat) {o : Nat} (h : o < 0x040) : (s.openQueues c).reg (.core c) o = s.reg (.core c) o := by
  have queues := foldl_of_steps (R := fun s t => t.reg (.core c) o = s.reg (.core c) o) (fun _ => rfl) (fun h k => k.trans h)
    (fun s q => s.reg_openQueue_other c q (o := o) (by unfold qOff; omega) (by unfold qOff; omega)) [0, 1, 2, 3, 4, 5] s
  refine .trans ?_ queues
  exact foldl_of_steps (R := fun s t => t.reg (.core c) o = s.reg (.core c) o) (fun _ => rfl) (fun h k => k.trans h)
    (fun s i => State.reg_putReg_other s _ (offset_ne _ (by omega))) _ _

theorem State.fresh_openQueues (s : State) (c : Nat) {q : Nat} (h : q < 6) : (s.openQueues c).Fresh c q := by
  have queues : ([0, 1, 2, 3, 4, 5].foldl (fun s q => s.openQueue c q) s).Fresh c q :=
    foldl_establishes (P := fun s q => s.Fresh c q) (fun s q => s.fresh_openQueue c q) (fun s x q fresh => State.fresh_openQueue_other x fresh)
      (mem_queues h) s
  have counters : ∀ (l : List Nat), (∀ i ∈ l, i < 16) → ∀ t : State, t.Fresh c q →
      (l.foldl (fun s i => s.putN (.core c) (0x040 + 8 * i) 0) t).Fresh c q := by
    intro l
    induction l with
    | nil => exact fun _ _ fresh => fresh
    | cons i l ih =>
      intro small t fresh
      have i16 := small i (List.mem_cons_self ..)
      refine ih (fun i hi => small i (List.mem_cons_of_mem _ hi)) _ (State.fresh_of_eq fresh (State.putN_queues _ _ _ _) fun o ho => ?_)
      exact State.reg_putReg_other t _ (offset_ne _ (by omega))
  exact counters _ (fun i hi => List.mem_range.mp hi) _ queues

theorem State.counter_openQueues (s : State) (c : Nat) {i : Nat} (h : i < 16) : (s.openQueues c).reg (.core c) (0x040 + 8 * i) = 0 := by
  refine foldl_establishes (P := fun s i => s.reg (.core c) (0x040 + 8 * i) = 0) (fun s i => s.reg_putReg_same _ _ _) (fun s x i zero => ?_)
    (List.mem_range.mpr h) _
  by_cases same : i = x
  · rw [same]; exact s.reg_putReg_same _ _ _
  · exact (State.reg_putReg_other s _ (offset_ne _ (by omega))).trans zero

end Sys2Proof.Machine
end

section
/-! PROOF. Pilot waits and the requests for a core's state (04 R105, R116, R117, Table 4-9): O19. -/

namespace Sys2Proof.Machine

open Sys2Proof.Claims

/-! ## The started core -/

theorem State.hart_startPilot (s : State) (c : Nat) (x : Hart) : (s.startPilot c x).hart c = x := s.hart_setHart_same c x

theorem State.startCore_frame (s : State) (c : Nat) :
    s.startCore c = { s with regs := (s.putFld (.core c) 0x008 0 2 0).regs, acc := (s.clearBanks c).acc, accPoison := (s.clearBanks c).accPoison
                             harts := (s.startCore c).harts, lvseed := (s.startCore c).lvseed, draws := s.draws + 1 } := by
  have started : ∀ (w : Tab Word) (x : Hart), (({ s with regs := w } : State).clearBanks c).startPilot c x
      = { s with regs := w, acc := (s.clearBanks c).acc, accPoison := (s.clearBanks c).accPoison
                 harts := ((({ s with regs := w } : State).clearBanks c).startPilot c x).harts
                 lvseed := ((({ s with regs := w } : State).clearBanks c).startPilot c x).lvseed, draws := s.draws + 1 } := fun _ _ => rfl
  have put : s.putFld (.core c) 0x008 0 2 0 = { s with regs := (s.putFld (.core c) 0x008 0 2 0).regs } := rfl
  rw [State.startCore, put]
  exact started _ _

theorem State.regs_startCore (s : State) (c : Nat) : (s.startCore c).regs = (s.putFld (.core c) 0x008 0 2 0).regs := by
  rw [State.startCore_frame]

theorem State.queues_startCore (s : State) (c : Nat) : (s.startCore c).queues = s.queues := by rw [State.startCore_frame]

theorem State.hart_startCore (s : State) (c : Nat) : (s.startCore c).hart c = s.pilotHart c := by
  have cleared : ∀ u : State, (u.clearBanks c).regs = u.regs := fun _ => rfl
  rw [State.startCore, State.hart_startPilot, State.pilotHart_of_reg (State.reg_of_regs (cleared _) _ _)]
  exact State.pilotHart_of_reg (s.reg_putFld_other (offset_ne _ (by decide)))

theorem State.coreState_startCore (s : State) (c : Nat) : (s.startCore c).coreState c = 0 := by
  rw [State.coreState_of_reg (State.reg_of_regs (s.regs_startCore c) _ _)]
  exact s.coreState_putFld_same c (by decide)

theorem State.reg_startCore_other (s : State) (c : Nat) {o : Nat} (h : o ≠ 0x008) : (s.startCore c).reg (.core c) o = s.reg (.core c) o :=
  (State.reg_of_regs (s.regs_startCore c) _ _).trans (s.reg_putFld_other (offset_ne _ h))

/-- The elements of the core's two accumulator banks read 0. -/
theorem State.acc_startCore (s : State) (c : Nat) {k : Nat} (low : 2 * c * 65536 ≤ k) (high : k < (2 * c + 2) * 65536) :
    Tab.get 0 (s.startCore c).acc k = 0 := by
  have acc : (s.startCore c).acc = Tab.dropKeys s.acc fun k => decide (2 * c * 65536 ≤ k) && decide (k < (2 * c + 2) * 65536) := by
    rw [State.startCore_frame]
    rfl
  rw [acc, Tab.get_dropKeys, if_pos (by simp [low, high])]

/-! ## The requests (04 Table 4-9) -/

/-- A request is written to CORE_CTRL first. -/
def State.asked (s : State) (c req : Nat) : State := s.putFld (.core c) 0x000 0 2 req

/-- What a core does on a request. -/
def State.requested (s : State) (c req : Nat) : State :=
  match req with
  | 0 => s
  | 1 => s.drainCore c
  | 2 => s.abortCore c
  | _ => s.onlineCore c

theorem State.coreRequest_eq (s : State) (c req : Nat) : s.coreRequest c req = (s.asked c req).requested c (req % 4) := rfl

theorem exec_offlineDrain (c : Fin 256) (s : State) : exec (.offlineDrain c) s = .next ((s.asked c 1).requested c 1) :=
  congrArg Host.Outcome.next (s.coreRequest_eq c 1)

theorem exec_offlineAbort (c : Fin 256) (s : State) : exec (.offlineAbort c) s = .next ((s.asked c 2).requested c 2) :=
  congrArg Host.Outcome.next (s.coreRequest_eq c 2)

theorem exec_online (c : Fin 256) (s : State) : exec (.online c) s = .next ((s.asked c 3).requested c 3) :=
  congrArg Host.Outcome.next (s.coreRequest_eq c 3)

theorem State.requested_drain (s : State) (c : Nat) : s.requested c 1 = s.drainCore c := rfl
theorem State.requested_abort (s : State) (c : Nat) : s.requested c 2 = s.abortCore c := rfl
theorem State.requested_online (s : State) (c : Nat) : s.requested c 3 = s.onlineCore c := rfl

theorem State.coreState_asked (s : State) (c req : Nat) : (s.asked c req).coreState c = s.coreState c :=
  s.coreState_putFld_other c 0 2 req (by decide)

theorem State.queues_asked (s : State) (c req : Nat) : (s.asked c req).queues = s.queues := State.putFld_queues _ _ _ _ _ _

theorem State.asked_frame (s : State) (c req : Nat) : s.asked c req = { s with regs := (s.asked c req).regs } := rfl

theorem State.pilotHart_asked (s : State) (c req : Nat) : (s.asked c req).pilotHart c = s.pilotHart c :=
  State.pilotHart_of_reg (s.reg_putFld_other (offset_ne _ (by decide)))

theorem State.reject_frame (s : State) (b : Block) : s.reject b = { s with regs := (s.reject b).regs } := rfl

theorem State.drainCore_eq {s : State} {c : Nat} (h : s.coreState c = 0) : s.drainCore c = (s.drainSv c).putFld (.core c) 0x008 0 2 1 := if_pos h

theorem State.abortCore_eq {s : State} {c : Nat} (h : s.coreState c ≤ 1) :
    s.abortCore c = (((s.putFld (.core c) 0x008 0 2 1).flushCore c).forgetSlots c true).stopCore c 2 := if_pos h

theorem State.queue_abortCore {s : State} {c q : Nat} (h : s.coreState c ≤ 1) (hq : q < 6) : (s.abortCore c).queue c q = {} := by
  rw [State.abortCore_eq h, State.queue_of_queues (State.queues_stopCore _ _ _), State.queue_of_queues (State.queues_forgetSlots _ _ _),
    State.queue_flushCore _ _ hq]

/-! ## WFI and PILOT_WAKE (04 R105) -/

theorem waitForInterrupt_waits {s : State} {c : Nat} (runs : s.hartRuns c = true) (clear : s.mayWake c = false) :
    waitForInterrupt c s = s.putBit (.core c) 0x008 3 true := by simp [waitForInterrupt, runs, clear]

theorem waitForInterrupt_goesOn {s : State} {c : Nat} (runs : s.hartRuns c = true) (set : s.mayWake c = true) :
    waitForInterrupt c s = s.nextPc c := by simp [waitForInterrupt, runs, set]

theorem wakePilot_goesOn {s : State} {c : Nat} (runs : s.coreRuns c = true) (waits : s.bitAt (.core c) 0x008 3 = true) (set : s.mayWake c = true) :
    wakePilot c s = (s.putBit (.core c) 0x008 3 false).nextPc c := by simp [wakePilot, runs, waits, set]

theorem State.putBit_frame (s : State) (b : Block) (o i : Nat) (v : Bool) : s.putBit b o i v = { s with regs := (s.putBit b o i v).regs } := rfl

theorem State.hart_putBit (s : State) (b : Block) (o i : Nat) (v : Bool) (h : Nat) : (s.putBit b o i v).hart h = s.hart h := by
  rw [State.hart, State.putBit_harts, State.hart]

theorem State.hart_setHart_other (s : State) {h k : Nat} (x : Hart) (ne : k ≠ h) : (s.setHart h x).hart k = s.hart k :=
  Tab.get_set_other _ _ _ _ _ _ ne

/-- A hart past its instruction, which counts. -/
def Hart.retired (x : Hart) : Hart := { x with pc := x.pc + 4, instret := x.instret + 1 }

theorem State.nextPc_eq (s : State) (h : Nat) : s.nextPc h = s.setHart h (s.hart h).retired := rfl

end Sys2Proof.Machine

namespace Sys2Proof.Claims

open Sys2Proof.Machine

/-- A request that its core's state refuses sets CFG_REJECT only. -/
theorem reject_asked (s : State) (c req : Nat) :
    ((s.asked c req).reject (.core c)).bitAt (.core c) 0x2F0 0 = true
      ∧ Only s ((s.asked c req).reject (.core c)) { s with regs := ((s.asked c req).reject (.core c)).regs } [at_ (.core c) 0x000, at_ (.core c) 0x2F0] := by
  have set := (s.asked c req).bit_reject (.core c)
  rw [rejectAddr_core] at set
  have regs : RegsBut s ((s.asked c req).reject (.core c)) [at_ (.core c) 0x000, at_ (.core c) 0x2F0] :=
    (RegsBut.putFld s _ _ _ (List.mem_cons_self ..)).trans (RegsBut.setReg _ _ (by rw [rejectAddr_core]; simp))
  have frame : (s.asked c req).reject (.core c) = { s with regs := ((s.asked c req).reject (.core c)).regs } := by
    have asked := s.asked_frame c req
    have rejected := (s.asked c req).reject_frame (.core c)
    generalize (s.asked c req).reject (.core c) = t at rejected ⊢
    generalize s.asked c req = u at asked rejected
    rw [rejected, asked]
  generalize (s.asked c req).reject (.core c) = t at set regs frame ⊢
  exact ⟨set, frame, regs, SameBytes.of_eq (by rw [frame]) (by rw [frame])⟩

theorem drain_accepted {s : State} {c : Fin 256} (h : s.coreState c = 0) :
    Runs (.offlineDrain c) s fun t => t.coreState c = 1 ∧ ∀ q : Fin 6, q ≠ 3 → t.queue c q = s.queue c q := by
  refine ⟨_, exec_offlineDrain c s, ?_⟩
  rw [State.requested_drain, State.drainCore_eq ((s.coreState_asked c 1).trans h)]
  refine ⟨State.coreState_putFld_same _ _ (by decide), fun q sv => ?_⟩
  rw [State.queue_of_queues (State.putFld_queues _ _ _ _ _ _), State.queue_drainSv_other _ _ (fun e => sv (Fin.ext e)),
    State.queue_of_queues (s.queues_asked c 1)]

theorem abort_accepted {s : State} {c : Fin 256} (h : s.coreState c ≤ 1) :
    Runs (.offlineAbort c) s fun t => t.coreState c = 2 ∧ ∀ q : Fin 6, t.queue c q = {} := by
  have may : (s.asked c 2).coreState c ≤ 1 := by rwa [s.coreState_asked c 2]
  refine ⟨_, exec_offlineAbort c s, ?_⟩
  rw [State.requested_abort]
  refine ⟨?_, fun q => State.queue_abortCore may q.isLt⟩
  rw [State.abortCore_eq may]
  exact State.coreState_stopCore _ _ (by decide)

theorem online_accepted {s : State} {c : Fin 256} (h : s.coreState c = 2) :
    Runs (.online c) s fun t =>
      t.coreState c = 0
        ∧ (∀ q : Fin 6, t.queue c q = {} ∧ t.qHead c q = 0 ∧ t.qTail c q = 0)
        ∧ (∀ i : Fin 16, t.reg (.core c) (0x040 + 8 * i.val) = 0)
        ∧ t.hart c = { pc := BitVec.ofNat 64 (wellBase c + s.fldAt (.core c) 0x018 0 22) }
        ∧ (∀ k, 2 * c.val * 65536 ≤ k → k < (2 * c.val + 2) * 65536 → Tab.get 0 t.acc k = 0)
        ∧ t = { s with regs := t.regs, queues := t.queues, acc := t.acc, accPoison := t.accPoison, harts := t.harts
                       lvseed := t.lvseed, draws := s.draws + 1 } := by
  refine ⟨_, exec_online c s, ?_⟩
  rw [State.requested_online, State.onlineCore_eq ((s.coreState_asked c 3).trans h)]
  have frame := ((s.asked c 3).openQueues c).startCore_frame c
  have queues : (s.asked c 3).QueueFrame ((s.asked c 3).openQueues c) := (s.asked c 3).queueFrame_openQueues c
  have hart : (((s.asked c 3).openQueues c).startCore c).hart c = s.pilotHart c := by
    rw [State.hart_startCore, State.pilotHart_of_reg (State.reg_openQueues_low _ _ (by decide)), State.pilotHart_asked]
  refine ⟨State.coreState_startCore _ _, fun q => ?_, fun i => ?_, hart, fun k => State.acc_startCore _ _, ?_⟩
  · exact State.fresh_of_eq ((s.asked c 3).fresh_openQueues c q.isLt) (State.queues_startCore _ _)
      fun o ho => State.reg_startCore_other _ _ (by omega)
  · rw [State.reg_startCore_other _ _ (by omega)]
    exact State.counter_openQueues _ _ i.isLt
  · have asked := s.asked_frame c 3
    generalize ((s.asked c 3).openQueues c).startCore c = t at frame ⊢
    generalize (s.asked c 3).openQueues c = v at frame queues
    generalize s.asked c 3 = u at queues asked
    rw [frame, queues, asked]

theorem drained_stops {s : State} {c : Fin 256} (draining : s.coreState c = 1) (empty : s.coreEmpty c = true) (out : s.writesOut c = false) :
    Runs (.coreDrainDone c) s fun t =>
      t.coreState c = 2 ∧ t.bitAt (.core c) 0x008 3 = false
        ∧ Only s t { s with regs := t.regs, berths := t.berths } [at_ (.core c) 0x008] := by
  have done : s.drainDone c = s.stopCore c 2 := if_pos ⟨draining, empty, by rw [out]; rfl⟩
  refine ⟨s.drainDone c, rfl, ?_⟩
  rw [done]
  have frame := s.stopCore_frame c 2
  exact ⟨s.coreState_stopCore c (by decide), s.waiting_stopCore c 2, frame, s.regsBut_stopCore c 2,
    SameBytes.of_eq (by rw [frame]) (by rw [frame])⟩

theorem undrained_stays {s : State} {c : Fin 256} (h : s.coreState c ≠ 1 ∨ s.coreEmpty c = false ∨ s.writesOut c = true) :
    Runs (.coreDrainDone c) s fun t => t = s := by
  refine ⟨s.drainDone c, rfl, if_neg ?_⟩
  rintro ⟨draining, empty, out⟩
  rcases h with h | h | h
  · exact h draining
  · simp [h] at empty
  · simp [h] at out

theorem coreStateRequests : CoreStateRequests := by
  intro s c refused
  refine ⟨drain_accepted, fun h => ?_, abort_accepted, fun h => ?_, online_accepted, fun h => ?_, drained_stops, undrained_stays⟩
  · refine ⟨_, exec_offlineDrain c s, ?_⟩
    rw [State.requested_drain, State.drainCore, if_neg (by rwa [s.coreState_asked c 1])]
    exact reject_asked s c 1
  · refine ⟨_, exec_offlineAbort c s, ?_⟩
    rw [State.requested_abort, State.abortCore, if_neg (by rw [s.coreState_asked c 2]; omega)]
    exact reject_asked s c 2
  · refine ⟨_, exec_online c s, ?_⟩
    rw [State.requested_online, State.onlineCore, if_neg (by rwa [s.coreState_asked c 3])]
    exact reject_asked s c 3

/-! ## WFI and PILOT_WAKE (04 R105) -/

theorem pilotWaits {s : State} {c : Fin 256} (runs : s.hartRuns c = true) (clear : s.mayWake c = false) :
    Runs (.wfi c) s fun t =>
      t.reg (.core c) 0x008 = setBit (s.reg (.core c) 0x008) 3 true ∧ Only s t { s with regs := t.regs } [at_ (.core c) 0x008] := by
  refine ⟨waitForInterrupt c s, rfl, ?_⟩
  rw [waitForInterrupt_waits runs clear]
  exact ⟨s.reg_putReg_same _ _ _, Only.intro (s.putBit_frame _ _ _ _) rfl rfl (RegsBut.putBit s _ _ (List.mem_singleton_self _))⟩

theorem pilotWakes {s : State} {c : Fin 256} (runs : s.coreRuns c = true) (waits : s.bitAt (.core c) 0x008 3 = true) (set : s.mayWake c = true) :
    Runs (.pilotWake c) s fun t =>
      t.reg (.core c) 0x008 = setBit (s.reg (.core c) 0x008) 3 false
        ∧ t.hart c = { s.hart c with pc := (s.hart c).pc + 4, instret := (s.hart c).instret + 1 }
        ∧ (∀ h, h ≠ c.val → t.hart h = s.hart h)
        ∧ Only s t { s with regs := t.regs, harts := t.harts } [at_ (.core c) 0x008] := by
  refine ⟨wakePilot c s, rfl, ?_⟩
  rw [wakePilot_goesOn runs waits set, State.nextPc_eq, s.hart_putBit]
  change _ ∧ _ = (s.hart c).retired ∧ _
  generalize (s.hart c).retired = x
  have regs : ∀ u : State, (u.setHart c x).regs = u.regs := fun u => u.setHart_regs c x
  have bits : RegsBut s (s.putBit (.core c) 0x008 3 false) [at_ (.core c) 0x008] := RegsBut.putBit s _ _ (List.mem_singleton_self _)
  refine ⟨?_, State.hart_setHart_same _ _ _, fun h ne => (State.hart_setHart_other _ _ ne).trans (s.hart_putBit _ _ _ _ h), ?_⟩
  · rw [State.reg_of_regs (regs _)]
    exact s.reg_putReg_same _ _ _
  · refine Only.intro ?_ rfl rfl (bits.trans (RegsBut.of_regs _ (regs _)))
    have put := s.putBit_frame (.core c) 0x008 3 false
    generalize s.putBit (.core c) 0x008 3 false = u at put ⊢
    rw [put]
    rfl

theorem pilotWaitsAndWakes : PilotWaitsAndWakes := by
  refine ⟨fun s c => pilotWaits, fun s c runs set => ?_, fun s c => pilotWakes⟩
  exact ⟨waitForInterrupt c s, rfl, waitForInterrupt_goesOn runs set⟩

/-- Settles O19, by the equation of each request in each state of a core; a stopped, drained or started core is described field by field. -/
theorem coresAndPilots : Obligations.CoresAndPilots := ⟨pilotWaitsAndWakes, coreStateRequests⟩

end Sys2Proof.Claims
end

section
/-! PROOF. The end of a pump's descriptor (04 R100, R101): the first part of O20. -/

namespace Sys2Proof.Machine

open Sys2Proof.Claims

/-- With EVT the descriptor's event counter counts it (04 R101). -/
def State.countEvent (s : State) (c : Nat) (d : List Byte) : State :=
  if (hdr d).testBit 28 then s.evtAdd c (bits (hdr d) 24 4) else s

/-- With NOTIFY the queue's source is set (04 R101). -/
def State.notify (s : State) (c q : Nat) (d : List Byte) : State := if hdrNotify d then s.wakeCause c (8 + q) else s

/-- The offset of the descriptor's event counter. -/
def evtOff (d : List Byte) : Nat := 0x040 + 8 * bits (hdr d) 24 4

theorem evtOff_lt (d : List Byte) : evtOff d < 0x0C0 := by
  have : bits (hdr d) 24 4 < 2 ^ 4 := Nat.mod_lt _ (by decide)
  unfold evtOff
  omega

theorem evtOff_ne_wake (d : List Byte) : evtOff d ≠ 0x030 := by unfold evtOff; omega

theorem State.reg_checkWait_other (s : State) (c : Nat) {o : Nat} (h : o ≠ 0x030) : (s.checkWait c).reg (.core c) o = s.reg (.core c) o :=
  s.getReg_checkWait_other c (at_ne _ h)

theorem State.queued_checkWait {keys : List Nat} (s : State) {c : Nat} (h : Claims.at_ (.core c) 0x030 ∈ keys) :
    State.Queued keys s (s.checkWait c) := by
  unfold State.checkWait
  split
  · exact .putBit s _ _ h
  · exact .refl s

theorem State.reg_countEvent_other (s : State) (c : Nat) (d : List Byte) {o : Nat} (event : o ≠ evtOff d) (wake : o ≠ 0x030) :
    (s.countEvent c d).reg (.core c) o = s.reg (.core c) o := by
  unfold State.countEvent
  split
  · exact (State.reg_checkWait_other _ c wake).trans (s.reg_putFld_other (offset_ne _ event))
  · rfl

theorem State.event_countEvent (s : State) (c : Nat) (d : List Byte) :
    (s.countEvent c d).fldAt (.core c) (evtOff d) 0 32 = (s.fldAt (.core c) (evtOff d) 0 32 + if (hdr d).testBit 28 then 1 else 0) % 2 ^ 32 := by
  unfold State.countEvent
  split
  · exact (State.fldAt_of_reg (State.reg_checkWait_other _ c (evtOff_ne_wake d)) 0 32).trans (s.fldAt_addWrap_same _ _ 0 32 1 (by decide))
  · exact (Nat.mod_eq_of_lt (s.fldAt_lt _ _ 0 32)).symm

theorem State.reg_notify_other (s : State) (c q : Nat) (d : List Byte) {o : Nat} (wake : o ≠ 0x030) :
    (s.notify c q d).reg (.core c) o = s.reg (.core c) o := by
  unfold State.notify
  split
  · exact s.reg_putReg_other _ (offset_ne _ wake)
  · rfl

theorem State.wake_notify (s : State) {c q : Nat} {d : List Byte} (small : 8 + q < 64) (notify : hdrNotify d = true) :
    (s.notify c q d).bitAt (.core c) 0x030 (8 + q) = true := by
  rw [State.notify, if_pos notify]
  exact State.bitAt_putBit_same _ _ _ _ _ small

theorem State.queues_countEvent (s : State) (c : Nat) (d : List Byte) : (s.countEvent c d).queues = s.queues := by
  unfold State.countEvent State.evtAdd
  split
  · rw [State.checkWait_frame]
    exact s.addWrap_queues (.core c) (0x040 + 8 * bits (hdr d) 24 4) 0 32 1
  · rfl

theorem State.queues_notify (s : State) (c q : Nat) (d : List Byte) : (s.notify c q d).queues = s.queues := by
  unfold State.notify
  split
  · exact State.putBit_queues _ _ _ _ _
  · rfl

theorem State.queued_countEvent {keys : List Nat} (s : State) {c : Nat} {d : List Byte} (event : Claims.at_ (.core c) (evtOff d) ∈ keys)
    (wake : Claims.at_ (.core c) 0x030 ∈ keys) : State.Queued keys s (s.countEvent c d) := by
  unfold State.countEvent State.evtAdd
  split
  · exact .trans (.putFld s _ _ _ event) (State.queued_checkWait _ wake)
  · exact .refl s

theorem State.queued_notify {keys : List Nat} (s : State) {c : Nat} (q : Nat) (d : List Byte) (wake : Claims.at_ (.core c) 0x030 ∈ keys) :
    State.Queued keys s (s.notify c q d) := by
  unfold State.notify
  split
  · exact .putBit s _ _ wake
  · exact .refl s

/-- The queue after its oldest descriptor has left, before the next one is looked at. -/
def State.leave (s : State) (c q : Nat) (r : Running) : State :=
  ((s.setQueue c q { s.queue c q with running := (s.queue c q).running.drop 1 }).retireSlot c q r.ring)

theorem State.retireDesc_eq (s : State) (c q : Nat) (r : Running) :
    s.retireDesc c q r =
      ((((s.leave c q r).addWrap (.core c) (qOff q 0x128) 0 64 1).countEvent c r.desc).notify c q r.desc).settleQueue c q := rfl

/-- The queue after its oldest descriptor has been counted. -/
def State.counted (s : State) (c q : Nat) (r : Running) : State :=
  (((s.leave c q r).addWrap (.core c) (qOff q 0x128) 0 64 1).countEvent c r.desc).notify c q r.desc

section

variable {s : State} {c q : Nat} {r : Running}

theorem State.queues_counted : (s.counted c q r).queues = (s.setQueue c q { s.queue c q with running := (s.queue c q).running.drop 1 }).queues := by
  rw [State.counted, State.queues_notify, State.queues_countEvent, State.addWrap_queues, State.leave, State.queues_retireSlot]

theorem State.queue_counted : (s.counted c q r).queue c q = { s.queue c q with running := (s.queue c q).running.drop 1 } := by
  rw [State.queue_of_queues State.queues_counted, State.queue_setQueue_same]

theorem State.reg_leave_other {o : Nat} (h : o ≠ qOff q 0x118) : (s.leave c q r).reg (.core c) o = s.reg (.core c) o := by
  unfold State.leave State.retireSlot
  split
  · exact (State.reg_putFld_other _ (offset_ne _ h)).trans (State.reg_of_regs (State.setQueue_regs _ _ _ _) _ _)
  · exact State.reg_of_regs (State.setQueue_regs _ _ _ _) _ _

theorem State.qHead_leave : (s.leave c q r).qHead c q = (s.qHead c q + if r.ring then 1 else 0) % 65536 := by
  rw [State.leave, State.qHead_retireSlot]
  exact congrArg (fun x => (x + if r.ring then 1 else 0) % 65536) (State.fldAt_of_reg (State.reg_of_regs (State.setQueue_regs _ _ _ _) _ _) 0 16)

/-- The registers of a pump's queue stand above the event counters. -/
theorem evtOff_lt_qOff (h : 4 ≤ q) {o : Nat} (ho : 0x110 ≤ o) (d : List Byte) : qOff q o ≠ evtOff d := by
  have := evtOff_lt d
  unfold qOff
  omega

theorem State.reg_counted_other {o : Nat} (done : o ≠ qOff q 0x128) (event : o ≠ evtOff r.desc) (wake : o ≠ 0x030) :
    (s.counted c q r).reg (.core c) o = (s.leave c q r).reg (.core c) o := by
  rw [State.counted, State.reg_notify_other _ _ _ _ wake, State.reg_countEvent_other _ _ _ event wake]
  exact State.reg_putFld_other _ (offset_ne _ done)

theorem State.qHead_counted (h : 4 ≤ q) : (s.counted c q r).qHead c q = (s.qHead c q + if r.ring then 1 else 0) % 65536 := by
  refine (State.fldAt_of_reg (State.reg_counted_other ?_ (evtOff_lt_qOff h (by decide) _) (qOff_ne_wake _ (by decide))) 0 16).trans State.qHead_leave
  unfold qOff
  omega

theorem State.qDone_counted (h : 4 ≤ q) :
    (s.counted c q r).regN (.core c) (qOff q 0x128) = (s.regN (.core c) (qOff q 0x128) + 1) % 2 ^ 64 := by
  have whole : ∀ t : State, t.regN (.core c) (qOff q 0x128) = t.fldAt (.core c) (qOff q 0x128) 0 64 := fun t => (fld_whole _).symm
  have wake := qOff_ne_wake q (o := 0x128) (by decide)
  have last : (s.counted c q r).reg (.core c) (qOff q 0x128) = ((s.leave c q r).addWrap (.core c) (qOff q 0x128) 0 64 1).reg (.core c) (qOff q 0x128) := by
    rw [State.counted, State.reg_notify_other _ _ _ _ wake, State.reg_countEvent_other _ _ _ (evtOff_lt_qOff h (by decide) _) wake]
  have left : (s.leave c q r).fldAt (.core c) (qOff q 0x128) 0 64 = s.fldAt (.core c) (qOff q 0x128) 0 64 :=
    State.fldAt_of_reg (State.reg_leave_other (by unfold qOff; omega)) 0 64
  rw [whole, whole, State.fldAt_of_reg last, State.fldAt_addWrap_same _ _ _ _ _ _ (by decide), left]

theorem State.event_counted (h : 4 ≤ q) :
    (s.counted c q r).fldAt (.core c) (evtOff r.desc) 0 32
      = (s.fldAt (.core c) (evtOff r.desc) 0 32 + if (hdr r.desc).testBit 28 then 1 else 0) % 2 ^ 32 := by
  have before : ((s.leave c q r).addWrap (.core c) (qOff q 0x128) 0 64 1).fldAt (.core c) (evtOff r.desc) 0 32 = s.fldAt (.core c) (evtOff r.desc) 0 32 :=
    State.fldAt_of_reg ((State.reg_putFld_other _ (offset_ne _ (evtOff_lt_qOff h (by decide) _).symm)).trans
      (State.reg_leave_other (evtOff_lt_qOff h (by decide) _).symm)) 0 32
  rw [State.counted, State.fldAt_of_reg (State.reg_notify_other _ _ _ _ (evtOff_ne_wake _)), State.event_countEvent, before]

/-- The registers that the end of a descriptor writes. -/
def retireKeys (c q : Nat) (d : List Byte) : List Nat :=
  [Claims.at_ (.core c) (qOff q 0x128), Claims.at_ (.core c) (qOff q 0x118), Claims.at_ (.core c) (evtOff d), Claims.at_ (.core c) 0x030]

theorem State.queued_counted : State.Queued (retireKeys c q r.desc) s (s.counted c q r) :=
  ((((State.Queued.setQueue s c q _).trans (State.queued_retireSlot _ _ (by simp [retireKeys]))).trans
    (.putFld _ _ _ _ (by simp [retireKeys]))).trans (State.queued_countEvent _ (by simp [retireKeys]) (by simp [retireKeys]))).trans
    (State.queued_notify _ _ _ (by simp [retireKeys]))

/-- A queue whose other descriptors have not failed goes on after the oldest one. -/
theorem State.retireDesc_counted {rs : List Running} (running : (s.queue c q).running = r :: rs)
    (fine : ∀ x ∈ rs, x.done = none ∨ x.done = some 0) : s.retireDesc c q r = s.counted c q r := by
  rw [State.retireDesc_eq]
  refine State.settleQueue_goesOn (s := s.counted c q r) fun x head => ?_
  rw [State.queue_counted, running] at head
  exact fine x (List.mem_of_head? head)

theorem State.completePump_counted {p : Nat} {rs : List Running} (halted : (s.queue c (4 + p)).halted = none) (again : (s.queue c (4 + p)).again = none)
    (running : (s.queue c (4 + p)).running = r :: rs) (done : r.done = some 0) (fine : ∀ x ∈ rs, x.done = none ∨ x.done = some 0)
    (post : pmPost r.desc = 0) : s.completePump c p = s.counted c (4 + p) r := by
  have completing : s.completing c (4 + p) = some r := by simp [State.completing, halted, again, running, done]
  simp [State.completePump, completing, post, State.pumpPost, State.retireDesc_counted running fine]

end

end Sys2Proof.Machine

namespace Sys2Proof.Claims

open Sys2Proof.Machine

theorem pumpCompleteRetires : PumpCompleteRetires := by
  intro s c p r rs runs halted again running done fine post
  have exec_eq : exec (.pumpComplete c p) s = .next (s.counted c (4 + p) r) := by
    rw [← State.completePump_counted halted again running done fine post]
    exact congrArg Host.Outcome.next (if_pos runs)
  have pump : 4 ≤ 4 + p.val := Nat.le_add_right _ _
  refine ⟨_, exec_eq, ?_, State.qDone_counted pump, State.qHead_counted pump, State.event_counted pump, fun notify => ?_,
    State.queued_counted.only⟩
  · rw [State.queue_counted, running]
    rfl
  · exact State.wake_notify _ (by omega) notify

end Sys2Proof.Claims
end

section
/-! PROOF. A pump's malformed descriptor (04 R112): a part of O20. -/

namespace Sys2Proof.Machine

open Sys2Proof.Claims

section

variable {s : State} {c p : Nat} {r : Running}

theorem QueueRun.current_single {x : QueueRun} (running : x.running = [r]) (open' : r.done = none) : x.current = some r := by
  simp [QueueRun.current, running, open']

theorem State.updateCurrent_single {q : Nat} (f : Running → Running) (running : (s.queue c q).running = [r]) (open' : r.done = none) :
    s.updateCurrent c q f = (s.setQueue c q { s.queue c q with running := [f r] }).settleQueue c q := by
  simp [State.updateCurrent, running, replaceCurrent, open']

/-- The end of the only descriptor in progress with an error halts the queue. -/
theorem State.endCurrent_error {q code : Nat} (fle : q ≠ 2) (halted : (s.queue c q).halted = none) (again : (s.queue c q).again = none)
    (running : (s.queue c q).running = [r]) (open' : r.done = none) (error : code ≠ 0) :
    s.endCurrent c q code = ((s.setQueue c q { s.queue c q with running := [{ r with done := some code, writes := [] }] }).setQueue c q
      { s.queue c q with running := [] }).haltQueue c q code r.toHalted := by
  have queue := s.queue_setQueue_same c q { s.queue c q with running := [{ r with done := some code, writes := [] }] }
  rw [State.endCurrent, State.updateCurrent_single _ running open',
    State.settleQueue_fails (rs := []) fle (by rw [queue]; exact halted) (by rw [queue]; exact again) (by rw [queue]) rfl error, queue]
  rfl

theorem State.runPump_malformed (running : (s.queue c (4 + p)).running = [r]) (open' : r.done = none) (bad : s.pumpMalformed r.desc = true) :
    s.runPump c p = s.endCurrent c (4 + p) 1 := by
  simp [State.runPump, QueueRun.current_single running open', bad]

end

end Sys2Proof.Machine

namespace Sys2Proof.Claims

open Sys2Proof.Machine

theorem pumpMalformedHalts {s : State} {c : Fin 256} {p : Fin 2} {r : Running} (runs : s.coreRuns c = true)
    (halted : (s.queue c (4 + p)).halted = none) (again : (s.queue c (4 + p)).again = none) (running : (s.queue c (4 + p)).running = [r])
    (open' : r.done = none) (bad : s.pumpMalformed r.desc = true) :
    Runs (.pumpDescriptor c p) s fun t =>
      t.queueState c (4 + p) = 3 ∧ t.fldAt (.core c) (qOff (4 + p) 0x120) 8 8 = 1
        ∧ Only s t { s with regs := t.regs, queues := t.queues } [at_ (.core c) (qOff (4 + p) 0x120), at_ (.core c) 0x030] := by
  have pump : s.runPump c p = _ :=
    (State.runPump_malformed running open' bad).trans (State.endCurrent_error (by omega) halted again running open' (by decide))
  refine ⟨s.runPump c p, congrArg Host.Outcome.next (if_pos runs), ?_⟩
  rw [pump]
  refine ⟨State.queueState_halted (by rw [State.queue_haltQueue]), ?_, ?_⟩
  · rw [State.fldAt_low _ _ _ _ (by decide : 8 ≤ 56), State.error_haltQueue]
    omega
  · exact State.Queued.only (((State.Queued.setQueue s c _ _).trans (.setQueue _ c _ _)).trans (State.queued_haltQueue _ c _ _ _))

end Sys2Proof.Claims
end

section
/-! SUPPORT. A pump's accesses of HBM within one granule (04 R112–R114, 10 R251, R263). -/

namespace Sys2Proof.Machine

open Sys2Proof.Claims

/-! ## Bytes and numbers -/

/-- The bytes of the number that bytes read as are these bytes. -/
theorem leBytes_leNat (bs : List Byte) : leBytes bs.length (leNat bs) = bs := by
  induction bs with
  | nil => rfl
  | cons b bs ih =>
    have low : BitVec.ofNat 8 (leNat (b :: bs)) = b := by
      apply BitVec.eq_of_toNat_eq
      rw [BitVec.toNat_ofNat, leNat]
      have := b.isLt
      omega
    have high : leNat (b :: bs) / 256 = leNat bs := by
      rw [leNat]
      have := b.isLt
      omega
    rw [List.length_cons, leBytes, low, high, ih]

@[simp] theorem State.length_bytesAt (s : State) (a n : Nat) : (s.bytesAt a n).length = n := by
  induction n generalizing a with
  | zero => rfl
  | succ n ih => rw [State.bytesAt, List.length_cons, ih]

/-- A range reads as bytes that it holds one by one. -/
theorem State.bytesAt_eq {s : State} {a : Nat} {bs : List Byte} (h : ∀ i, i < bs.length → s.byteAt (a + i) = bs.getD i 0) :
    s.bytesAt a bs.length = bs := by
  induction bs generalizing a with
  | nil => rfl
  | cons b bs ih =>
    have first : s.byteAt a = b := h 0 (Nat.succ_pos _)
    rw [List.length_cons, State.bytesAt, first, ih fun i hi => ?_]
    rw [Nat.add_assoc, Nat.add_comm 1 i]
    exact h (i + 1) (Nat.succ_lt_succ hi)

/-! ## The size and place of an element -/

theorem Fmt.size_cases (f : Fmt) : f.size = 1 ∨ f.size = 2 ∨ f.size = 4 ∨ f.size = 8 := by
  unfold Fmt.size Fmt.width fmtWidth
  split <;> decide

/-- An aligned element lies in one granule. -/
theorem granule_of_aligned {f : Fmt} {a : Nat} (h : a % f.size = 0) : a % 256 + f.size ≤ 256 := by
  rcases f.size_cases with e | e | e | e <;> rw [e] at h ⊢ <;> omega

theorem Fmt.size_ne_zero (f : Fmt) : f.size ≠ 0 := by rcases f.size_cases with e | e | e | e <;> omega

/-- A register of a core's block is neither in the region table nor in a stack. -/
theorem State.HbmAlike.putFld_core (s : State) (c : Nat) {o : Nat} (l n v : Nat) (h : o < 0x1000) : s.HbmAlike (s.putFld (.core c) o l n v) := by
  have table : blockBase .regionTable = dieWindow 4 + 0x10_0000 := rfl
  refine ⟨SameBytes.of_eq (s.putFld_mem _ _ _ _ _) (s.putFld_undef _ _ _ _ _), s.putFld_commits _ _ _ _ _, fun o' ho => s.reg_putFld_other ?_,
    fun ch => s.reg_putFld_other ?_⟩
  · rw [table, blockBase_core, dieWindow_eq, dieWindow_eq]
    omega
  · rw [groupOf, chOff, blockBase_stack, blockBase_core, dieWindow_eq, dieWindow_eq]
    omega

theorem State.HbmAlike.hbmWaits {s t : State} (h : s.HbmAlike t) {a n : Nat} (ha : a < hbmEnd) (ne : n ≠ 0) (granule : a % 256 + n ≤ 256) :
    t.hbmWaits a n = s.hbmWaits a n := by
  simp [State.hbmWaits, piecesOf_single ne granule, h.decodeHbm ha, h.commitPending, State.chWaits, h.chState]

/-! ## Accesses within one granule -/

theorem placeOf_hbm {a : Nat} (h : a < hbmEnd) : placeOf a = .hbm := if_pos h

theorem testBit_hbm {a : Nat} (h : a < hbmEnd) : a.testBit 47 = false := Nat.testBit_lt_two_pow (by unfold hbmEnd at h; omega)

section

variable {s : State} {a n : Nat}

theorem State.remoteTray_hbm (h : a < hbmEnd) : s.remoteTray a = false := by simp [State.remoteTray, testBit_hbm h]

theorem State.localAddr_hbm (h : a < hbmEnd) : s.localAddr a = a := by simp [State.localAddr, State.ownTray, testBit_hbm h]

theorem State.pumpWaits_hbm (h : a < hbmEnd) : s.pumpWaits a n = s.hbmWaits a n := by
  simp [State.pumpWaits, State.remoteTray_hbm h, State.localAddr_hbm h]

theorem State.mayFetch_hbm (h : a < hbmEnd) : s.mayFetch a = true := by
  simp [State.mayFetch, State.localAddr_hbm h, placeOf_hbm h]

theorem State.reachable_hbm (ne : n ≠ 0) (granule : a % 256 + n ≤ 256) (inside : a + n ≤ hbmEnd) : s.reachable a n = true := by
  simp [State.reachable, piecesOf_single ne granule, placeOf_hbm (show a < hbmEnd by omega), inside]

/-- A pump's unpoisoned read within one granule of a live channel returns the bytes. -/
theorem State.pumpRead_hbm (ne : n ≠ 0) (granule : a % 256 + n ≤ 256) (inside : a + n ≤ hbmEnd) (live : s.lostAt a = false)
    (clean : s.linePoison a n = false) : s.pumpRead a n = (some (s.bytesAt a n, false), s.afterRead a n) := by
  have place := placeOf_hbm (show a < hbmEnd by omega)
  have read : s.memRead a n = { ok := true, data := s.bytesAt a n, poison := false } := by
    simp [State.memRead, State.reachable_hbm ne granule inside, piecesOf_single ne granule, live, clean]
  simp [State.pumpRead, inWindow, place, State.nodeRead, read]

/-- A pump's write within HBM is a write of memory. -/
theorem State.pumpWrite_hbm {bs : List Byte} (p : Bool) (ne : bs.length ≠ 0) (granule : a % 256 + bs.length ≤ 256)
    (inside : a + bs.length ≤ hbmEnd) : s.pumpWrite a bs p = (s.memWrite a bs p, true) := by
  have place := placeOf_hbm (show a < hbmEnd by omega)
  simp [State.pumpWrite, inWindow, place, State.nodeWrite, State.reachable_hbm ne granule inside]

end

end Sys2Proof.Machine
end

section
/-! PROOF. A pump's copy of one element within HBM (04 R112, R113): O20. -/

namespace Sys2Proof.Machine

open Sys2Proof.Claims

/-! ## The descriptor of a copy -/

/-- A strided descriptor of one unconverted element. -/
structure CopiesOne (d : List Byte) : Prop where
  ok      : pumpOk d = true
  shape   : pmShape d = 0
  convert : pmConvert d = false
  scale   : pmScale d = false
  inner   : pmInner d = 1
  rows    : pmRows d = 1
  src     : pmSrc d + (pmSrcFmt d).size ≤ hbmEnd
  dst     : pmDst d + (pmSrcFmt d).size ≤ hbmEnd

theorem rowAddrs_single {base size : Nat} (stride : Int) (h : base < 2 ^ 48) : rowAddrs base stride size 1 1 = [some base] := by
  have stays : plus48 base 0 = base := by
    unfold plus48
    omega
  simp [rowAddrs, List.range_succ, stays]

theorem chunksOf_single (size a : Nat) : chunksOf size [some a] = [{ addr := some a, first := 0, count := 1 }] := rfl

namespace CopiesOne

variable {d : List Byte} (h : CopiesOne d)
include h

theorem sameFmt : pmDstFmt d = pmSrcFmt d := by
  have fmt := h.ok
  simp only [pumpOk, Bool.and_eq_true, h.convert, Bool.false_or, beq_iff_eq] at fmt
  obtain ⟨⟨⟨⟨⟨⟨⟨⟨-, same⟩, -⟩, -⟩, -⟩, -⟩, -⟩, -⟩, -⟩ := fmt
  rw [pmDstFmt, pmSrcFmt, same]

theorem aligned : pmSrc d % (pmSrcFmt d).size = 0 ∧ pmDst d % (pmSrcFmt d).size = 0 := by
  have place := h.ok
  simp only [pumpOk, Bool.and_eq_true, beq_iff_eq] at place
  obtain ⟨⟨⟨⟨⟨⟨-, src⟩, dst⟩, -⟩, -⟩, -⟩, -⟩ := place
  exact ⟨src, h.sameFmt ▸ dst⟩

theorem src_lt : pmSrc d < hbmEnd := by have := h.src; have := (pmSrcFmt d).size_ne_zero; omega

theorem dst_lt : pmDst d < hbmEnd := by have := h.dst; have := (pmSrcFmt d).size_ne_zero; omega

theorem auxCount_zero : auxCount d = 0 := by simp [auxCount, h.shape, h.scale]

theorem auxFetches_nil : auxFetches d = [] := by simp [auxFetches, h.auxCount_zero, chunksOf]

theorem srcFetches_single : srcFetches d [] = [{ key := 1, addr := some (pmSrc d), size := (pmSrcFmt d).size }] := by
  have small : pmSrc d < 2 ^ 48 := by have := h.src_lt; unfold hbmEnd at this; omega
  simp [srcFetches, srcAddrs, h.shape, h.inner, h.rows, rowAddrs_single _ small, chunksOf_single]

theorem dstAddrs_single : dstAddrs d [] = [some (pmDst d)] := by
  have small : pmDst d < 2 ^ 48 := by have := h.dst_lt; unfold hbmEnd at this; omega
  simp [dstAddrs, h.shape, h.inner, h.rows, rowAddrs_single _ small]

end CopiesOne

/-! ## The read phase -/

section

variable {s : State} {c q : Nat} {r : Running}

/-- The element is read, where its channel takes the access and is not lost, and no reply of another node is awaited. -/
theorem State.pumpReadPhase_single (h : CopiesOne r.desc) (remote : r.remote = []) (free : s.hbmWaits (pmSrc r.desc) (pmSrcFmt r.desc).size = false)
    (live : s.lostAt (pmSrc r.desc) = false) (clean : s.linePoison (pmSrc r.desc) (pmSrcFmt r.desc).size = false) :
    s.pumpReadPhase c q r = (s.afterRead (pmSrc r.desc) (pmSrcFmt r.desc).size).planWrites c q r.desc []
      [{ data := s.bytesAt (pmSrc r.desc) (pmSrcFmt r.desc).size }] := by
  have read := s.pumpRead_hbm (pmSrcFmt r.desc).size_ne_zero (granule_of_aligned h.aligned.1) h.src live clean
  have local' : s.localAddr (pmSrc r.desc) = pmSrc r.desc := State.localAddr_hbm h.src_lt
  have reply : r.reply 1 false = none := by simp [Running.reply, remote]
  simp [State.pumpReadPhase, h.auxFetches_nil, State.reachFetches, State.fetchesWait, State.fetched, State.takeFetches, auxEntries, h.srcFetches_single,
    State.mayFetch_hbm h.src_lt, reply, State.pumpWaits_hbm h.src_lt, free, State.remoteTray_hbm h.src_lt, local', read]

/-! ## The plan of the write -/

/-- The descriptor with its one write planned. -/
def plannedRun (r : Running) (bs : List Byte) : Running :=
  { r with moved := true, code := 0, writes := [{ addr := pmDst r.desc, data := bs, poison := false }], remote := [] }

theorem gotElems_single {n : Nat} {bs : List Byte} (ne : n ≠ 0) (len : bs.length = n) :
    gotElems n [{ data := bs }] = [{ code := leNat bs, poison := false }] := by
  have one : bs.length / n = 1 := by rw [len]; exact Nat.div_self (Nat.pos_of_ne_zero ne)
  have all : byteFld bs 0 n = leNat bs := by rw [byteFld, List.drop_zero, ← len, List.take_length]
  simp [gotElems, one, List.range_succ, all]

/-- One unpoisoned element is one write of its bytes. -/
theorem elemWrites_single (s : State) {a : Nat} {bs : List Byte} :
    elemWrites s bs.length [some a] [{ code := leNat bs, poison := false }] = [{ addr := a, data := bs, poison := false }] := by
  simp [elemWrites, chunksOf_single, runWrites, elemBytes, leBytes_leNat]

/-- The state in which the one element has been taken: no event is counted. -/
def State.taken (s : State) (c q : Nat) : State := ((s.drawnN 1).countConv (.core c) (0x280 + 8 * (q - 4)) 0 0).countForm c q 0

theorem State.planWrites_single {bs : List Byte} (h : CopiesOne r.desc) (len : bs.length = (pmSrcFmt r.desc).size) :
    s.planWrites c q r.desc [] [{ data := bs }] =
      (s.taken c q).updateCurrent c q fun x => { x with moved := true, code := 0
                                                        writes := [{ addr := pmDst r.desc, data := bs, poison := false }], remote := [] } := by
  have elems := gotElems_single (pmSrcFmt r.desc).size_ne_zero len
  have reach : auxReach r.desc 0 = 1 := by simp [auxReach, h.auxCount_zero, pmCount, h.inner, h.rows]
  have writes := elemWrites_single s (a := pmDst r.desc) (bs := bs)
  rw [len] at writes
  simp [State.planWrites, auxEntries, elems, reach, pmCount, h.inner, h.rows, pumpConvert, h.convert, h.dstAddrs_single, h.sameFmt, writes, worse,
    State.taken]

theorem State.hbmAlike_taken (s : State) (c : Nat) {q : Nat} (hq : q < 6) : s.HbmAlike (s.taken c q) := by
  have form : ∀ u : State, u.HbmAlike (u.countForm c q 0) := by
    intro u
    unfold State.countForm
    split
    · split
      · exact .of_fields rfl rfl rfl rfl
      · exact .of_fields rfl rfl rfl rfl
    · exact .of_fields rfl rfl rfl rfl
  have drawn : s.HbmAlike (s.drawnN 1) := .of_fields rfl rfl rfl rfl
  exact ((drawn.trans (.putFld_core _ c _ _ _ (by omega))).trans (.putFld_core _ c _ _ _ (by omega))).trans (form _)

theorem State.queues_taken (s : State) (c q : Nat) : (s.taken c q).queues = s.queues := by
  have form : ∀ u : State, (u.countForm c q 0).queues = u.queues := by
    intro u
    unfold State.countForm
    split
    · split <;> rfl
    · rfl
  rw [State.taken, form, State.countConv, State.addSat_queues, State.addSat_queues, State.drawnN_queues]

/-- A change that leaves the only descriptor in progress without an error changes it and nothing else. -/
theorem State.updateCurrent_fine (f : Running → Running) (running : (s.queue c q).running = [r]) (open' : r.done = none)
    (fine : (f r).done = none ∨ (f r).done = some 0) :
    s.updateCurrent c q f = s.setQueue c q { s.queue c q with running := [f r] } := by
  rw [State.updateCurrent_single f running open']
  refine State.settleQueue_goesOn fun x head => ?_
  rw [State.queue_setQueue_same] at head
  obtain rfl : f r = x := by simpa using head
  exact fine

/-! ## The whole copy -/

/-- The state in which the write is planned. -/
def State.planned (s : State) (c q : Nat) (r : Running) : State :=
  let u := (s.afterRead (pmSrc r.desc) (pmSrcFmt r.desc).size).taken c q
  u.setQueue c q { u.queue c q with running := [plannedRun r (s.bytesAt (pmSrc r.desc) (pmSrcFmt r.desc).size)] }

theorem State.running_planned : ((s.planned c q r).queue c q).running = [plannedRun r (s.bytesAt (pmSrc r.desc) (pmSrcFmt r.desc).size)] := by
  rw [State.planned, State.queue_setQueue_same]

section

variable (h : CopiesOne r.desc) (live : s.lostAt (pmSrc r.desc) = false)
include h live

theorem State.live_pieces : ∀ p ∈ piecesOf (pmSrc r.desc) (pmSrcFmt r.desc).size, s.lostAt p.1 = false := by
  rw [piecesOf_single (pmSrcFmt r.desc).size_ne_zero (granule_of_aligned h.aligned.1)]
  simpa using live

theorem State.hbmAlike_planned (hq : q < 6) : s.HbmAlike (s.planned c q r) := by
  have read := State.HbmAlike.of_served (State.served_afterRead (State.live_pieces h live))
  exact (read.trans (State.hbmAlike_taken _ c hq)).trans (.of_fields rfl rfl rfl rfl)

variable (running : (s.queue c q).running = [r]) (open' : r.done = none) (remote : r.remote = [])
  (free : s.hbmWaits (pmSrc r.desc) (pmSrcFmt r.desc).size = false) (clean : s.linePoison (pmSrc r.desc) (pmSrcFmt r.desc).size = false)
include running open' remote free clean

theorem State.pumpReadPhase_planned : s.pumpReadPhase c q r = s.planned c q r := by
  have served := State.served_afterRead (State.live_pieces h live)
  have queues : ((s.afterRead (pmSrc r.desc) (pmSrcFmt r.desc).size).taken c q).queues = s.queues := by
    rw [State.queues_taken, served.frame]
  rw [State.pumpReadPhase_single h remote free live clean, State.planWrites_single h (s.length_bytesAt _ _),
    State.updateCurrent_fine _ (by rw [State.queue_of_queues queues]; exact running) open' (.inl open')]
  rfl

end

/-- One write within a granule of HBM, where its channel takes the access, is made, and the descriptor ends. -/
theorem State.pumpWritePhase_single {u : State} {x : LateWrite} (code : Nat) (ne : x.data.length ≠ 0)
    (granule : x.addr % 256 + x.data.length ≤ 256) (inside : x.addr + x.data.length ≤ hbmEnd) (free : u.hbmWaits x.addr x.data.length = false) :
    State.pumpWritePhase c q r u code [x] = (u.memWrite x.addr x.data x.poison).endCurrent c q code := by
  have low : x.addr < hbmEnd := by omega
  simp [State.pumpWritePhase, State.remoteTray_hbm low, State.pumpWaits_hbm low, free, State.localAddr_hbm low,
    State.pumpWrite_hbm x.poison ne granule inside]

/-- The state in which the element has been copied. -/
def State.copied (s : State) (c q : Nat) (r : Running) : State :=
  (s.planned c q r).memWrite (pmDst r.desc) (s.bytesAt (pmSrc r.desc) (pmSrcFmt r.desc).size) false

theorem State.running_copied : ((s.copied c q r).queue c q).running = [plannedRun r (s.bytesAt (pmSrc r.desc) (pmSrcFmt r.desc).size)] := by
  rw [State.copied, State.queue_of_queues (State.queues_memWrite _ _ _ _), State.running_planned]

/-- A pump copies one element: it reads it, plans its one write, makes it, and the descriptor ends with status 0. -/
theorem State.runPump_copies {p : Nat} (hp : p < 2) (h : CopiesOne r.desc) (good : s.pumpMalformed r.desc = false)
    (running : (s.queue c (4 + p)).running = [r]) (open' : r.done = none) (start : r.moved = false) (remote : r.remote = [])
    (srcFree : s.hbmWaits (pmSrc r.desc) (pmSrcFmt r.desc).size = false) (dstFree : s.hbmWaits (pmDst r.desc) (pmSrcFmt r.desc).size = false)
    (live : s.lostAt (pmSrc r.desc) = false) (clean : s.linePoison (pmSrc r.desc) (pmSrcFmt r.desc).size = false) :
    s.runPump c p = (s.copied c (4 + p) r).endCurrent c (4 + p) 0 := by
  have ne := (pmSrcFmt r.desc).size_ne_zero
  have granule := granule_of_aligned h.aligned.2
  have planned : s.pumpReadPhase c (4 + p) r = s.planned c (4 + p) r := State.pumpReadPhase_planned h live running open' remote srcFree clean
  have current : ((s.planned c (4 + p) r).queue c (4 + p)).current = some (plannedRun r (s.bytesAt (pmSrc r.desc) (pmSrcFmt r.desc).size)) :=
    QueueRun.current_single State.running_planned open'
  have free : (s.planned c (4 + p) r).hbmWaits (pmDst r.desc) (pmSrcFmt r.desc).size = false :=
    ((State.hbmAlike_planned h live (by omega)).hbmWaits h.dst_lt ne granule).trans dstFree
  have len := s.length_bytesAt (pmSrc r.desc) (pmSrcFmt r.desc).size
  have write := State.pumpWritePhase_single (c := c) (q := 4 + p) (r := plannedRun r (s.bytesAt (pmSrc r.desc) (pmSrcFmt r.desc).size))
    (u := s.planned c (4 + p) r) (x := { addr := pmDst r.desc, data := s.bytesAt (pmSrc r.desc) (pmSrcFmt r.desc).size, poison := false }) 0
    (by rw [len]; exact ne) (by rw [len]; exact granule) (by rw [len]; exact h.dst) (by rw [len]; exact free)
  have first := QueueRun.current_single running open'
  simp only [State.runPump, first, good, start, planned, current, Bool.false_eq_true, if_false]
  exact (if_pos rfl).trans write

end

end Sys2Proof.Machine

namespace Sys2Proof.Claims

open Sys2Proof.Machine

theorem pumpCopies {s : State} {c : Fin 256} {p : Fin 2} {r : Running} (runs : s.coreRuns c = true) (h : CopiesOne r.desc)
    (good : s.pumpMalformed r.desc = false) (running : (s.queue c (4 + p)).running = [r]) (open' : r.done = none) (start : r.moved = false)
    (remote : r.remote = []) (srcFree : s.hbmWaits (pmSrc r.desc) (pmSrcFmt r.desc).size = false)
    (dstFree : s.hbmWaits (pmDst r.desc) (pmSrcFmt r.desc).size = false) (srcLive : s.lostAt (pmSrc r.desc) = false)
    (dstLive : s.lostAt (pmDst r.desc) = false) (clean : s.linePoison (pmSrc r.desc) (pmSrcFmt r.desc).size = false) :
    Runs (.pumpDescriptor c p) s fun t =>
      t.bytesAt (pmDst r.desc) (pmSrcFmt r.desc).size = s.bytesAt (pmSrc r.desc) (pmSrcFmt r.desc).size
        ∧ ((t.queue c (4 + p)).running.map (·.done)) = [some 0]
        ∧ (∀ a, a < pmDst r.desc ∨ pmDst r.desc + (pmSrcFmt r.desc).size ≤ a → t.byteAt a = s.byteAt a) := by
  have len := s.length_bytesAt (pmSrc r.desc) (pmSrcFmt r.desc).size
  have alike : s.HbmAlike (s.planned c (4 + p) r) := State.hbmAlike_planned h srcLive (by omega)
  have ended : s.runPump c p = _ :=
    (State.runPump_copies p.isLt h good running open' start remote srcFree dstFree srcLive clean).trans
      (State.updateCurrent_fine _ State.running_copied open' (.inr rfl))
  refine ⟨s.runPump c p, congrArg Host.Outcome.next (if_pos runs), ?_⟩
  rw [ended]
  have kept : SameBytes (s.copied c (4 + p) r) ((s.copied c (4 + p) r).setQueue c (4 + p)
      { (s.copied c (4 + p) r).queue c (4 + p) with
        running := [{ plannedRun r (s.bytesAt (pmSrc r.desc) (pmSrcFmt r.desc).size) with done := some 0, writes := [] }] }) := SameBytes.of_eq rfl rfl
  refine ⟨?_, ?_, fun a out => ?_⟩
  · rw [State.bytesAt_congr kept]
    have written : (s.copied c (4 + p) r).bytesAt (pmDst r.desc) (s.bytesAt (pmSrc r.desc) (pmSrcFmt r.desc).size).length
        = s.bytesAt (pmSrc r.desc) (pmSrcFmt r.desc).size := by
      refine State.bytesAt_eq fun i hi => State.byteAt_memWrite false ?_ ?_ ?_ hi
      · rw [len]; exact granule_of_aligned h.aligned.2
      · rw [len]; exact State.reachable_hbm (pmSrcFmt r.desc).size_ne_zero (granule_of_aligned h.aligned.2) h.dst
      · rw [alike.lostAt]; exact dstLive
    rwa [len] at written
  · rw [State.queue_setQueue_same]
    rfl
  · rw [kept a]
    exact ((Memory.wrote_memWrite _ _ _ _).out a (by rw [len]; exact out)).trans (alike.bytes a)

theorem pumpCopiesElement : PumpCopiesElement := by
  constructor
  · intro s c p r runs _ running open' start remote good shape convert scale inner rows n src dst srcFree dstFree srcLive dstLive clean
    have ok : pumpOk r.desc = true := by
      simp only [State.pumpMalformed, Bool.or_eq_false_iff, Bool.not_eq_false'] at good
      exact good.1
    exact pumpCopies runs ⟨ok, shape, convert, scale, inner, rows, src, dst⟩ good running open' start remote srcFree dstFree srcLive dstLive clean
  · exact fun s c p r => pumpMalformedHalts

/-- Settles O20: the end of a descriptor register by register, the halt of a malformed one, and the copy phase by phase, its read, the plan of
its one write, and the write. -/
theorem pumpWork : Obligations.PumpWork := ⟨pumpCompleteRetires, pumpCopiesElement⟩

end Sys2Proof.Claims
end

section
/-! SUPPORT. The work of a matrix-engine descriptor: what it leaves as it was, and its end (05 R134–R137). -/

namespace Sys2Proof.Machine

open Sys2Proof.Claims

/-! ## The queues during the work -/

theorem State.queues_writeElems (s : State) (a size : Nat) (es : List Elem) : (s.writeElems a size es).queues = s.queues :=
  queues_foldl (fun s _ => s.queues_memWrite _ _ _) _ s

theorem State.queues_drainRow (s : State) (c : Nat) (d : List Byte) (u : MxUnit) (i : Nat) (es : List Elem) (t : MxTally) :
    (s.drainRow c d u i es t).1.queues = s.queues := s.queues_writeElems _ _ _

theorem State.queues_mxRow (s : State) (c e : Nat) (d : List Byte) (passes : List (Nat × MxTile)) (u : MxUnit) (t : MxTally) (i : Nat) :
    (s.mxRow c e d passes u t i).1.queues = s.queues := by
  have zeros : ∀ (l : List Nat) (v : State), (l.foldl (fun v j => v.setAcc c e (u.bank + i) j 0) v).queues = v.queues := queues_foldl fun _ _ => rfl
  have sums : ∀ (l : List (Elem × Nat)) (v : State), (l.foldl (fun v x => v.setAcc c e (u.bank + i) x.2 x.1.code) v).queues = v.queues :=
    queues_foldl fun _ _ => rfl
  have mark : (s.markRow c e (u.bank + i) false).queues = s.queues := rfl
  simp only [State.mxRow, apply_ite Prod.fst, apply_ite State.queues, State.queues_drainRow, zeros, sums, mark, ite_self]

/-- What every step of a fold with a tally keeps of the queues, the whole fold keeps. -/
theorem queues_foldl_tally {α : Type} {f : State × MxTally → α → State × MxTally} (step : ∀ a x, (f a x).1.queues = a.1.queues) (l : List α)
    (a : State × MxTally) : (l.foldl f a).1.queues = a.1.queues :=
  List.foldlRecOn (motive := fun b => b.1.queues = a.1.queues) l f rfl fun b kept x _ => (step b x).trans kept

theorem State.queues_mxUnit (s : State) (c e : Nat) (d : List Byte) (t : MxTally) (u : MxUnit) : (s.mxUnit c e d t u).1.queues = s.queues := by
  have rows := queues_foldl_tally (f := fun a i => a.1.mxRow c e d ((s.tileOrder d u).map fun kt => (kt, s.loadTile c d kt u.nt)) u a.2 i)
    (fun a i => a.1.queues_mxRow _ _ _ _ _ _ _) (List.range u.rows) (s, t)
  unfold State.mxUnit
  dsimp only
  split <;> exact rows

/-! ## The work and its end -/

/-- The units of a descriptor, one after the other. -/
def State.mxWork (s : State) (c e : Nat) (d : List Byte) : State × MxTally :=
  (mxUnits d).foldl (fun a u => a.1.mxUnit c e d a.2 u) (s, {})

/-- What follows the units: the marks of a region that took poison (05 R131), the summary, the events, the cycles and the draws. -/
def State.mxClose (s : State) (c e : Nat) (d : List Byte) (t : MxTally) : State :=
  let s := if t.poison then (mxRegion d).foldl (fun s r => s.markRow c e r true) s else s
  (((s.writeSummary c d t).countEvents (.mxe c e) 0x18 t.nans t.sats).countMx c e d).drawnN (mxM d * mxN d)

/-- Counts and draws: registers, and the number of draws. -/
def State.Tallied (s t : State) : Prop := t = { s with regs := t.regs, draws := t.draws }

namespace State.Tallied

theorem refl (s : State) : s.Tallied s := rfl

theorem trans {s t u : State} (h : s.Tallied t) (k : t.Tallied u) : s.Tallied u := Eq.trans k (by rw [h])

theorem addWrap (s : State) (b : Block) (o l n v : Nat) : s.Tallied (s.addWrap b o l n v) := rfl

theorem countEvents (s : State) (b : Block) (o nans sats : Nat) : s.Tallied (s.countEvents b o nans sats) := rfl

theorem drawnN (s : State) (n : Nat) : s.Tallied (s.drawnN n) := rfl

theorem countMx (s : State) (c e : Nat) (d : List Byte) : s.Tallied (s.countMx c e d) := by
  unfold State.countMx
  dsimp only
  split
  · exact (((((addWrap s _ _ _ _ _).trans (addWrap _ _ _ _ _ _)).trans (addWrap _ _ _ _ _ _)).trans (addWrap _ _ _ _ _ _)).trans
      (addWrap _ _ _ _ _ _)).trans (drawnN _ 2)
  · exact refl s

theorem queues {s t : State} (h : s.Tallied t) : t.queues = s.queues := by rw [h]

end State.Tallied

theorem State.queues_mxWork (s : State) (c e : Nat) (d : List Byte) : (s.mxWork c e d).1.queues = s.queues :=
  queues_foldl_tally (fun a u => a.1.queues_mxUnit c e d a.2 u) (mxUnits d) (s, {})

theorem State.queues_mxClose (s : State) (c e : Nat) (d : List Byte) (t : MxTally) : (s.mxClose c e d t).queues = s.queues := by
  have count : ∀ v : State, (v.countMx c e d).queues = v.queues := fun v => (State.Tallied.countMx v c e d).queues
  have marks : ∀ (l : List Nat) (v : State), (l.foldl (fun v r => v.markRow c e r true) v).queues = v.queues := queues_foldl fun _ _ => rfl
  simp only [State.mxClose, State.drawnN_queues, count, State.countEvents, State.addSat_queues, State.writeSummary, apply_ite State.queues,
    State.queues_memWrite, marks, ite_self]

section

variable {s : State} {c e : Nat} {x : Running} (running : (s.queue c e).running = [x]) (open' : x.done = none)
include running open'

theorem State.runMxe_refused (refused : s.mxRefusal c x.desc ≠ 0) : s.runMxe c e = s.endCurrent c e (s.mxRefusal c x.desc) := by
  simp only [State.runMxe, QueueRun.current_single running open', if_pos refused]

/-- A descriptor that no check refuses does its work and ends, with POISON where it read poisoned data. -/
theorem State.runMxe_works (good : s.mxRefusal c x.desc = 0) :
    s.runMxe c e = ((s.mxWork c e x.desc).1.mxClose c e x.desc (s.mxWork c e x.desc).2).endCurrent c e
      (if (s.mxWork c e x.desc).2.poison then 3 else 0) := by
  simp only [State.runMxe, QueueRun.current_single running open']
  exact if_neg (not_not_intro good)

/-- The end with an error of the only descriptor in progress shows in its queue, and changes the queue and its error registers alone. -/
theorem State.endCurrent_shows {code : Nat} (fle : e ≠ 2) (halted : (s.queue c e).halted = none) (again : (s.queue c e).again = none)
    (error : code ≠ 0) (small : code < 256) :
    (s.endCurrent c e code).queueState c e = 3 ∧ (s.endCurrent c e code).fldAt (.core c) (qOff e 0x120) 8 8 = code
      ∧ State.Queued (haltKeys c e) s (s.endCurrent c e code) := by
  rw [State.endCurrent_error fle halted again running open' error]
  refine ⟨State.queueState_halted (by rw [State.queue_haltQueue]), ?_, ?_⟩
  · rw [State.fldAt_low _ _ _ _ (by decide : 8 ≤ 56), State.error_haltQueue]
    omega
  · exact ((State.Queued.setQueue s c e _).trans (.setQueue _ c e _)).trans (State.queued_haltQueue _ c e _ _)

/-- The end with status 0 of the only descriptor in progress. -/
theorem State.endCurrent_zero :
    s.endCurrent c e 0 = s.setQueue c e { s.queue c e with running := [{ x with done := some 0, writes := [] }] } :=
  State.updateCurrent_fine _ running open' (.inr rfl)

end

theorem State.mxRefusal_lt (s : State) (c : Nat) (d : List Byte) : s.mxRefusal c d < 256 := by
  unfold State.mxRefusal
  split
  · decide
  · split
    · decide
    · split <;> decide

end Sys2Proof.Machine

namespace Sys2Proof.Claims

open Sys2Proof.Machine

theorem mxeDescriptorEnds : MxeDescriptorEnds := by
  intro s c e x runs halted again running open'
  have exec_eq : exec (.mxeDescriptor c e) s = .next (s.runMxe c e) := congrArg Host.Outcome.next (if_pos runs)
  have fle : e.val ≠ 2 := by omega
  refine ⟨fun good => ⟨_, exec_eq, ?_⟩, fun refused => ⟨_, exec_eq, ?_⟩⟩
  · rw [State.runMxe_works running open' good]
    have queue := State.queue_of_queues ((State.queues_mxClose _ c e x.desc (s.mxWork c e x.desc).2).trans (s.queues_mxWork c e x.desc)) c e
    rw [← queue] at running halted again
    cases (s.mxWork c e x.desc).2.poison with
    | false =>
      left
      rw [if_neg (by decide), State.endCurrent_zero running open', State.queue_setQueue_same]
      rfl
    | true =>
      right
      obtain ⟨state, status, -⟩ := State.endCurrent_shows running open' fle halted again (by decide : 3 ≠ 0) (by decide)
      exact ⟨state, status⟩
  · rw [State.runMxe_refused running open' refused]
    obtain ⟨state, status, queued⟩ := State.endCurrent_shows running open' fle halted again refused (s.mxRefusal_lt c x.desc)
    exact ⟨state, status, queued.only⟩

end Sys2Proof.Claims
end

section
/-! PROOF. A matrix-engine descriptor of a single product (05 R120, R122, R126): O22. -/

namespace Sys2Proof.Machine

open Sys2Proof.Claims

/-- M = N = K = 1 in resident mode, without an accumulation, an output or a summary. -/
structure SingleProduct (d : List Byte) : Prop where
  m    : mxM d = 1
  n    : mxN d = 1
  k    : mxK d = 1
  acc  : mxCtrl d 2 = false
  bank : mxCtrl d 3 = false
  out  : mxCtrl d 4 = false
  sum  : mxCtrl d 5 = false

/-- The tile of the one element of B. -/
def State.singleTile (s : State) (c : Nat) (d : List Byte) : MxTile := [[((s.mxElemB c d 0 0).code, (s.mxElemB c d 0 0).poison)]]

/-- The product of the one element of A and the one of B, rounded once to FP32. -/
def State.singleResult (s : State) (c : Nat) (d : List Byte) : Nat :=
  passResult none [(decodeNum (mxFmtA d) (s.mxElemA c d 0 0).code).mul (decodeNum (mxFmtB d) (s.mxElemB c d 0 0).code)]

/-- The state in which the product stands in the bank and the tile in the weight register. -/
def State.multiplied (s : State) (c e : Nat) (d : List Byte) : State :=
  ((s.markRow c e (Machine.mxRow d) false).setAcc c e (Machine.mxRow d) 0 (s.singleResult c d)).setTile c e (s.singleTile c d)

/-- Where neither element is poisoned, the one pass over the one tile makes the product, without poison. -/
theorem State.mxElement_single {s : State} {c : Nat} {d : List Byte}
    (clean : (s.mxElemA c d 0 0).poison = false ∧ (s.mxElemB c d 0 0).poison = false) :
    s.mxElement c d [(0, s.singleTile c d)] none 0 0 = { code := s.singleResult c d, poison := false } := by
  simp [State.mxElement, State.mxProducts, State.singleTile, State.singleResult, MxTile.at, clean]

namespace SingleProduct

variable {d : List Byte} (h : SingleProduct d)
include h

theorem units : mxUnits d = [{ m0 := 0, rows := 1, nt := 0, bank := Machine.mxRow d }] := by
  simp [mxUnits, h.bank, h.m, mxNt, h.n, ceilDiv]

theorem cols : mxCols d 0 = 1 := by simp [mxCols, h.n]

/-- The one K tile comes first whatever order the MXE chooses (05 R125). -/
theorem tileOrder (s : State) (u : MxUnit) : s.tileOrder d u = [0] := by
  have one : mxKt d = 1 := by simp [mxKt, h.k, ceilDiv]
  rw [State.tileOrder, one]
  rfl

theorem loadTile (s : State) (c : Nat) : s.loadTile c d 0 0 = s.singleTile c d := by
  simp [State.loadTile, State.singleTile, h.k, h.cols]

section

variable {s : State} {c : Nat} (clean : (s.mxElemA c d 0 0).poison = false ∧ (s.mxElemB c d 0 0).poison = false)
include clean

theorem row (e : Nat) :
    s.mxRow c e d [(0, s.singleTile c d)] { m0 := 0, rows := 1, nt := 0, bank := Machine.mxRow d } {} 0
      = ((s.markRow c e (Machine.mxRow d) false).setAcc c e (Machine.mxRow d) 0 (s.singleResult c d), {}) := by
  simp [State.mxRow, h.acc, h.bank, h.out, h.cols, State.mxElement_single clean]

theorem work (e : Nat) : s.mxWork c e d = (s.multiplied c e d, {}) := by
  simp [State.mxWork, State.mxUnit, h.units, h.tileOrder, h.loadTile, h.row clean, State.multiplied]

end

/-- Without poison and without a summary, the work closes with counts and draws alone. -/
theorem tallied_close (s : State) (c e : Nat) : s.Tallied (s.mxClose c e d {}) := by
  have close : s.mxClose c e d {} = ((s.countEvents (.mxe c e) 0x18 0 0).countMx c e d).drawnN (mxM d * mxN d) := by
    simp [State.mxClose, State.writeSummary, h.sum]
  rw [close]
  exact ((State.Tallied.countEvents s _ _ _ _).trans (.countMx _ c e d)).trans (.drawnN _ _)

end SingleProduct

section

variable (s : State) (c e : Nat) (d : List Byte)

theorem State.multiplied_acc : (s.multiplied c e d).acc
    = Tab.set 0 s.acc (accKey c e (Machine.mxRow d) 0) (BitVec.ofNat 32 (s.singleResult c d)) := by rfl

theorem State.multiplied_accPoison : (s.multiplied c e d).accPoison = Tab.set false s.accPoison (1024 * (2 * c + e) + Machine.mxRow d) false := by rfl

theorem State.multiplied_weights : (s.multiplied c e d).weights
    = Tab.set {} s.weights (2 * c + e) { weight := s.singleTile c d, shadow := s.singleTile c d } := by rfl

theorem State.multiplied_frame : s.multiplied c e d =
    { s with acc := (s.multiplied c e d).acc, accPoison := (s.multiplied c e d).accPoison, weights := (s.multiplied c e d).weights } := by rfl

theorem State.accAt_multiplied : (s.multiplied c e d).accAt c e (Machine.mxRow d) 0 = s.singleResult c d % 2 ^ 32 := by
  rw [State.accAt, State.multiplied_acc, Tab.get_set_same, BitVec.toNat_ofNat]

theorem State.acc_multiplied_other {k : Nat} (h : k ≠ accKey c e (Machine.mxRow d) 0) :
    Tab.get 0 (s.multiplied c e d).acc k = Tab.get 0 s.acc k := by
  rw [State.multiplied_acc, Tab.get_set_other _ _ _ _ _ _ h]

theorem State.rowMarked_multiplied : (s.multiplied c e d).rowMarked c e (Machine.mxRow d) = false := by
  rw [State.rowMarked, State.multiplied_accPoison, Tab.get_set_same]

theorem State.weight_multiplied : (Tab.get {} (s.multiplied c e d).weights (2 * c + e)).weight = s.singleTile c d := by
  rw [State.multiplied_weights, Tab.get_set_same]

end

end Sys2Proof.Machine

namespace Sys2Proof.Claims

open Sys2Proof.Machine

theorem mxeSingleProduct : MxeSingleProduct := by
  intro s c e x runs _ running open' good d m n k acc bank out sum a b cleanA cleanB
  have h : SingleProduct d := ⟨m, n, k, acc, bank, out, sum⟩
  obtain ⟨regs, draws, closed⟩ : ∃ regs draws, (s.multiplied c e d).mxClose c e d {} = { s.multiplied c e d with regs := regs, draws := draws } :=
    ⟨_, _, h.tallied_close (s.multiplied c e d) c e⟩
  have queue : ((s.multiplied c e d).mxClose c e d {}).queue c e = s.queue c e :=
    State.queue_of_queues ((State.queues_mxClose _ c e d _).trans rfl) c e
  have ended : s.runMxe c e = ((s.multiplied c e d).mxClose c e d {}).setQueue c e
      { s.queue c e with running := [{ x with done := some 0, writes := [] }] } := by
    rw [State.runMxe_works running open' good, h.work ⟨cleanA, cleanB⟩]
    exact (State.endCurrent_zero (by rw [queue]; exact running) open').trans (by rw [queue])
  refine ⟨s.runMxe c e, congrArg Host.Outcome.next (if_pos runs), ?_⟩
  rw [ended, closed]
  refine ⟨?_, ?_, fun k other => ?_, ?_, ?_, ?_⟩
  · exact s.accAt_multiplied c e d
  · exact s.rowMarked_multiplied c e d
  · exact s.acc_multiplied_other c e d other
  · rw [State.queue_setQueue_same]
    rfl
  · refine (s.weight_multiplied c e d).trans ?_
    rw [State.singleTile, cleanB]
  · have frame := s.multiplied_frame c e d
    generalize s.multiplied c e d = u at frame ⊢
    exact ⟨by rw [frame]; rfl, SameBytes.of_eq (by rw [frame]; rfl) (by rw [frame]; rfl)⟩

/-- Settles O22: the end of a refused descriptor and of one that does its work, by what each leaves of its queue, and the single product by what its one
pass leaves in the bank, the row's mark and the weight register. -/
theorem matrixWork : Obligations.MatrixWork := ⟨mxeDescriptorEnds, mxeSingleProduct⟩

end Sys2Proof.Claims
end

section
/-! SUPPORT. The stores of a chain stay within its spans (06 R149, R153, R161, R162, R167). -/

namespace Sys2Proof.Machine

open Sys2Proof.Claims

/-! ## Writes that spare bytes -/

/-- The queues, and the bytes at the addresses of a set, stay as they are. -/
structure State.Spared (P : Nat → Prop) (s t : State) : Prop where
  queues : t.queues = s.queues
  bytes  : ∀ a, P a → t.byteAt a = s.byteAt a

namespace State.Spared

variable {P : Nat → Prop}

theorem refl (s : State) : State.Spared P s s := ⟨rfl, fun _ _ => rfl⟩

theorem trans {s t u : State} (h : State.Spared P s t) (k : State.Spared P t u) : State.Spared P s u :=
  ⟨k.queues.trans h.queues, fun a ha => (k.bytes a ha).trans (h.bytes a ha)⟩

/-- What each element of a list spares, the fold over the list spares; `g` is the state that the fold carries. -/
theorem foldl {α β : Type} {g : β → State} {f : β → α → β} {l : List α} (step : ∀ b, ∀ x ∈ l, State.Spared P (g b) (g (f b x))) (b : β) :
    State.Spared P (g b) (g (l.foldl f b)) :=
  List.foldlRecOn (motive := fun y => State.Spared P (g b) (g y)) l f (refl _) fun y kept x hx => kept.trans (step y x hx)

theorem foldl_state {α : Type} {f : State → α → State} {l : List α} (step : ∀ s, ∀ x ∈ l, State.Spared P s (f s x)) (s : State) :
    State.Spared P s (l.foldl f s) :=
  foldl (g := id) step s

theorem ite {p : Prop} [Decidable p] {s t u : State} (yes : p → State.Spared P s t) (no : ¬ p → State.Spared P s u) :
    State.Spared P s (if p then t else u) := by
  split
  · exact yes ‹_›
  · exact no ‹_›

theorem ite_fst {β : Type} {p : Prop} [Decidable p] {s : State} {t u : State × β} (yes : p → State.Spared P s t.1)
    (no : ¬ p → State.Spared P s u.1) : State.Spared P s (if p then t else u).1 := by
  split
  · exact yes ‹_›
  · exact no ‹_›

theorem putPoison (s : State) (x : Nat) (p : Bool) : State.Spared P s (s.putPoison x p) :=
  ⟨s.putPoison_queues x p, fun a _ => State.byteAt_of_eq rfl rfl a⟩

theorem memWrite (s : State) {x : Nat} {bs : List Byte} (p : Bool) (out : ∀ a, P a → a < x ∨ x + bs.length ≤ a) :
    State.Spared P s (s.memWrite x bs p) :=
  ⟨s.queues_memWrite x bs p, fun a ha => (Memory.wrote_memWrite s x bs p).out a (out a ha)⟩

theorem putBytes (s : State) {x : Nat} {bs : List Byte} (out : ∀ a, P a → a < x ∨ x + bs.length ≤ a) : State.Spared P s (s.putBytes x bs) :=
  ⟨by rw [(Memory.touched_putBytes s x bs).frame], fun a ha => (Memory.wrote_putBytes bs s x).out a (out a ha)⟩

end State.Spared

@[simp] theorem length_leBytes (n v : Nat) : (leBytes n v).length = n := by
  induction n generalizing v with
  | zero => rfl
  | succ n ih => rw [leBytes, List.length_cons, ih]

theorem State.spared_writeLines {P : Nat → Prop} {size : Nat} {ws : List FlWrite}
    (out : ∀ w ∈ ws, ∀ a, P a → a < w.addr ∨ w.addr + size ≤ a) (s : State) : State.Spared P s (s.writeLines size ws) := by
  refine .trans (.foldl_state (fun s w hw => .putBytes s fun a ha => ?_) s)
    (.foldl_state (fun s l _ => .ite (fun _ => .putPoison s _ _) fun _ => .ite (fun _ => .putPoison s _ _) fun _ => .refl s) _)
  rw [length_leBytes]
  exact out w hw a ha

/-! ## The span of a stream (06 R149, R167) -/

/-- A part of an extent times a stride lies between 0 and the whole. -/
theorem part_between {n m : Nat} (h : n ≤ m) (x : Int) : min 0 (m * x) ≤ n * x ∧ (n * x : Int) ≤ max 0 (m * x) := by
  have le : (n : Int) ≤ m := by exact_mod_cast h
  rcases le_total 0 x with pos | neg
  · exact ⟨(min_le_left _ _).trans (by positivity), (mul_le_mul_of_nonneg_right le pos).trans (le_max_right _ _)⟩
  · exact ⟨(min_le_right _ _).trans (mul_le_mul_of_nonpos_right le neg),
      (mul_nonpos_of_nonneg_of_nonpos (by positivity) neg).trans (le_max_left _ _)⟩

/-- A dimension moves an address within what it adds to the span. -/
theorem between_step {p : Prop} [Decidable p] {base x y e : Int} {b : Int × Int} (before : base + b.1 ≤ x ∧ x ≤ base + b.2)
    (part : min 0 e ≤ y ∧ y ≤ max 0 e) :
    base + (if p then b else (b.1 + min 0 e, b.2 + max 0 e)).1 ≤ (if p then x else x + y)
      ∧ (if p then x else x + y) ≤ base + (if p then b else (b.1 + min 0 e, b.2 + max 0 e)).2 := by
  split
  · exact before
  · exact ⟨(add_assoc _ _ _).ge.trans (add_le_add before.1 part.1), (add_le_add before.2 part.2).trans (add_assoc _ _ _).le⟩

/-- Where no extent is 0, every element of a stream lies in the stream's span. -/
theorem flAddr_in_streamSpan {d : List Byte} (exts : ∀ k < 5, 0 < flExt d k) (c j skip i : Nat) (low : 0 ≤ (streamSpan d j skip).1) :
    wellBase c + (streamSpan d j skip).1 ≤ flAddr c d j skip i
      ∧ (flAddr c d j skip i : Int) + (stFmt d j).size ≤ wellBase c + (streamSpan d j skip).2 := by
  obtain ⟨above, below⟩ := List.foldl_rel (l := List.range 5) (r := fun (x : Int) (b : Int × Int) => stBase d j + b.1 ≤ x ∧ x ≤ stBase d j + b.2)
    (f := fun (a : Int) k => if (stBcast d j).testBit k || skip.testBit k then a else a + (flCoord d i k : Nat) * stStride d j k)
    (g := fun (a : Int × Int) k =>
      if (stBcast d j).testBit k || skip.testBit k then a
      else
        let e := ((flExt d k - 1 : Nat) : Int) * stStride d j k
        (a.1 + min 0 e, a.2 + max 0 e))
    (a := (stBase d j : Int)) (b := (0, 0)) ⟨(add_zero _).le, (add_zero _).ge⟩ fun k hk _ _ before =>
      between_step before (part_between (Nat.le_sub_one_of_lt (Nat.mod_lt _ (exts k (List.mem_range.mp hk)))) _)
  have inside : (flAddr c d j skip i : Int) = wellBase c + _ :=
    (Nat.cast_add _ _).trans (congrArg (_ + ·) (Int.toNat_of_nonneg (low.trans above)))
  exact ⟨(add_le_add_right above _).trans inside.ge,
    (add_le_add_left inside.le _).trans ((add_assoc _ _ _).le.trans (add_le_add_right (add_le_add_left below _) _))⟩

/-! ## What the checks of a chain give (06 R166, R167) -/

/-- What the checks of a chain answer: a status and the failing stage, or no refusal where no field is bad and every span is in its area. -/
theorem State.flRefusal_cases {P : Nat × Nat → Prop} (s : State) (c : Nat) (d : List Byte) (bad : ∀ code t, code ≠ 0 → code < 256 → P (code, t))
    (good : flFieldBad d (flStages d) = false → (∀ p ∈ flSpans d (flStages d), s.spanOut c p = false) → P (0, 15)) : P (s.flRefusal c d) := by
  unfold State.flRefusal
  dsimp only
  split
  · exact bad _ _ (by decide) (by decide)
  · split
    · exact bad _ _ (by decide) (by decide)
    · next fields =>
      split
      · exact bad _ _ (by decide) (by decide)
      · split
        · exact bad _ _ (by decide) (by decide)
        · next inside =>
          split
          · exact bad _ _ (by decide) (by decide)
          · exact good (Bool.eq_false_iff.mpr fun e => fields (Bool.or_eq_true_iff.mpr (.inr e)))
              fun p hp => Bool.eq_false_iff.mpr (List.find?_eq_none.mp inside p hp)

theorem State.flRefusal_lt (s : State) (c : Nat) (d : List Byte) : (s.flRefusal c d).1 < 256 :=
  s.flRefusal_cases (P := fun r => r.1 < 256) c d (fun _ _ _ small => small) fun _ _ => (by decide : 0 < 256)

theorem State.flRefusal_zero {s : State} {c : Nat} {d : List Byte} :
    (s.flRefusal c d).1 = 0 → flFieldBad d (flStages d) = false ∧ ∀ p ∈ flSpans d (flStages d), s.spanOut c p = false :=
  s.flRefusal_cases (P := fun r => r.1 = 0 → _) c d (fun _ _ error _ zero => absurd zero error) fun fields inside _ => ⟨fields, inside⟩

theorem flExt_pos {d : List Byte} {gs : List Stage} (h : flFieldBad d gs = false) {k : Nat} (hk : k < 5) : 0 < flExt d k := by
  refine Nat.pos_of_ne_zero fun zero => Bool.eq_false_iff.mp h ?_
  have bad : (((List.range 5).map (flExt d)).any fun e => e == 0 || decide (16_777_216 < e)) = true :=
    List.any_eq_true.mpr ⟨0, List.mem_map.mpr ⟨k, List.mem_range.mpr hk, zero⟩, rfl⟩
  rw [flFieldBad, bad]
  rfl

/-- An area that a span may be stored to begins at the well or above. -/
theorem State.lo_of_spanOut {s : State} {c : Nat} {p : Span} (h : s.spanOut c p = false) (store : p.store = true) : 0 ≤ p.lo := by
  simp only [State.spanOut, store, if_true, Bool.or_eq_false_iff, decide_eq_false_iff_not] at h
  exact (Int.natCast_nonneg _).trans (not_lt.mp h.1)

/-! ## The addresses that a chain spares -/

/-- The address is outside the spans that the chain stores to. -/
def FlOutside (c : Nat) (d : List Byte) (a : Nat) : Prop :=
  ∀ p ∈ flSpans d (flStages d), p.store = true → (a : Int) < wellBase c + p.lo ∨ (wellBase c : Int) + p.hi ≤ a

/-- No extent of the chain is 0, and its stores begin at the well or above. -/
structure FlSound (d : List Byte) : Prop where
  exts : ∀ k < 5, 0 < flExt d k
  low  : ∀ p ∈ flSpans d (flStages d), p.store = true → 0 ≤ p.lo

theorem State.flSound {s : State} {c : Nat} {d : List Byte} (good : (s.flRefusal c d).1 = 0) : FlSound d := by
  obtain ⟨fields, inside⟩ := State.flRefusal_zero good
  exact ⟨fun k => flExt_pos fields, fun p hp => State.lo_of_spanOut (inside p hp)⟩

/-- The reduced dimensions of a STORE are those of the REDUCE stage that it takes. -/
theorem reducedDims_reduce {gs : List Stage} {g h : Stage} (store : g.kind = 8) (source : (if g.a ≤ 7 then gs[g.a]? else none) = some h)
    (reduce : h.kind = 6) : reducedDims gs g = h.op / 8 := by
  split at source
  · next low => rw [reducedDims, if_pos ⟨store, low⟩, source]; exact if_pos reduce
  · cases source

/-- A STORE of element values reduces no dimension. -/
theorem reducedDims_elements {gs : List Stage} {g : Stage} (plain : ∀ h, (if g.a ≤ 7 then gs[g.a]? else none) = some h → h.kind ≠ 6) :
    reducedDims gs g = 0 := by
  unfold reducedDims
  split
  · next low =>
    split
    · next h source => exact if_neg (plain h (by rw [if_pos low.2]; exact source))
    · rfl
  · rfl

/-- The spans of a stage are spans of its chain. -/
theorem mem_flSpans {d : List Byte} {gs : List Stage} {g : Stage} {t : Nat} (mem : (g, t) ∈ gs.zipIdx) {p : Span} (hp : p ∈ stageSpans d gs t g) :
    p ∈ flSpans d gs :=
  List.mem_flatMap.mpr ⟨(g, t), mem, hp⟩

/-- The k-th element of a filtered list stands behind k that pass the filter. -/
theorem exists_of_getElem?_filter {α : Type} {p : α → Bool} {l : List α} {k : Nat} {x : α} (h : (l.filter p)[k]? = some x) :
    ∃ t : Nat, l[t]? = some x ∧ ((l.take t).filter p).length = k := by
  induction l generalizing k with
  | nil => cases h
  | cons y l ih =>
    by_cases hy : p y = true
    · have taken : ∀ m : List α, (y :: m).filter p = y :: m.filter p := fun m => List.filter_cons_of_pos hy
      rw [taken] at h
      cases k with
      | zero => exact ⟨0, h, rfl⟩
      | succ k =>
        obtain ⟨t, at', before⟩ := ih h
        exact ⟨t + 1, at', (congrArg List.length (taken _)).trans (congrArg (· + 1) before)⟩
    · have left : ∀ m : List α, (y :: m).filter p = m.filter p := fun m => List.filter_cons_of_neg hy
      rw [left] at h
      obtain ⟨t, at', before⟩ := ih h
      exact ⟨t + 1, at', (congrArg List.length (left _)).trans before⟩

theorem insertBy_subset {α : Type} (key : α → Nat) (x : α) (l : List α) : insertBy key x l ⊆ x :: l := by
  induction l with
  | nil => exact List.Subset.refl _
  | cons z l ih =>
    have stays : insertBy key x (z :: l) = if key x < key z then x :: z :: l else z :: insertBy key x l := rfl
    rw [stays]
    split
    · exact List.Subset.refl _
    · exact fun y hy => (List.Perm.swap x z l).subset (List.cons_subset_cons z ih hy)

theorem sortBy_subset {α : Type} (key : α → Nat) (l : List α) : sortBy key l ⊆ l := by
  induction l with
  | nil => exact List.Subset.refl _
  | cons x l ih => exact fun y hy => List.cons_subset_cons x ih (insertBy_subset key x _ hy)

/-- An element of a group belongs to a block of scales. -/
theorem div_lt_ceilDiv {i n b : Nat} (h : i < n) (pos : 0 < b) : i / b < ceilDiv n b := by
  have next : (i + b) / b ≤ ceilDiv n b := Nat.div_le_div_right (Nat.le_sub_one_of_lt (Nat.add_lt_add_right h b))
  rwa [Nat.add_div_right i pos] at next

theorem stBlock_pos (d : List Byte) (j : Nat) : 0 < stBlock d j := Nat.two_pow_pos _

/-- A group of a REDUCE is named by one of the chain's elements. -/
theorem lt_of_mem_flGroups {d : List Byte} {mask : Nat} {e : Nat × List Nat} (h : e ∈ flGroups d mask) : e.1 < flCount d := by
  obtain ⟨r, hr, rfl⟩ := List.mem_map.mp h
  exact List.mem_range.mp (List.mem_filter.mp hr).1

/-- An address outside a span is outside every part of it. -/
theorem outside_part {a base x n : Nat} {lo hi : Int} (out : (a : Int) < base + lo ∨ (base : Int) + hi ≤ a) (low : base + lo ≤ x)
    (high : (x : Int) + n ≤ base + hi) : a < x ∨ x + n ≤ a :=
  out.imp (fun below => Int.ofNat_lt.mp (below.trans_le low)) fun above => by exact_mod_cast high.trans above

/-- An address outside m words is outside each of them. -/
theorem outside_word {a base start b m : Nat} (out : (a : Int) < base + start ∨ (base : Int) + (start + (4 * m : Nat)) ≤ a) (h : b < m) :
    a < base + start + 4 * b ∨ base + start + 4 * b + 4 ≤ a := by
  have nat : a < base + start ∨ base + (start + 4 * m) ≤ a := by exact_mod_cast out
  have fits : base + start + 4 * (b + 1) ≤ base + (start + 4 * m) :=
    (Nat.add_le_add_left (Nat.mul_le_mul_left 4 h) _).trans (Nat.add_assoc _ _ _).le
  exact nat.imp (Nat.lt_add_right _) fits.trans

theorem outside_record {a base start k : Nat} (out : (a : Int) < base + (start + 64 * k) ∨ (base : Int) + (start + 64 * k + 64) ≤ a) :
    a < base + start + 64 * k ∨ base + start + 64 * k + 64 ≤ a := by
  rw [Nat.add_assoc base]
  exact_mod_cast out

section

variable {c : Nat} {d : List Byte} {a : Nat} {g : Stage} {t : Nat} (out : FlOutside c d a) (mem : (g, t) ∈ (flStages d).zipIdx)
include out mem

theorem FlOutside.scale (store : g.kind = 8) (scaled : stScaled d (g.op % 4) = true) {b : Nat} (hb : b < ceilDiv (flCount d) (stBlock d (g.op % 4))) :
    a < wellBase c + stScaleAt d (g.op % 4) + 4 * b ∨ wellBase c + stScaleAt d (g.op % 4) + 4 * b + 4 ≤ a := by
  have span : _ ∈ stageSpans d (flStages d) t g := (congrArg (_ ∈ ·) (if_pos (.inr store))).mpr
    (List.mem_cons_of_mem _ ((congrArg (_ ∈ ·) (if_pos scaled)).mpr (List.mem_singleton_self _)))
  exact outside_word (out _ (mem_flSpans mem span) (beq_iff_eq.mpr store)) hb

/-- The record of the stage with k SUMMARY stages before it. -/
theorem FlOutside.summary (sum : g.kind = 7) {k : Nat} (before : (((flStages d).take t).filter fun x => x.kind == 7).length = k) :
    a < wellBase c + flSum d + 64 * k ∨ wellBase c + flSum d + 64 * k + 64 ≤ a := by
  have none : ¬ (g.kind = 1 ∨ g.kind = 8) := by rw [sum]; decide
  have span := mem_flSpans (d := d) mem (by rw [stageSpans, if_neg none, if_pos sum]; exact List.mem_singleton_self _)
  rw [before] at span
  exact outside_record (out _ span rfl)

end

/-- A block's scale lies in its stream's scale array. -/
theorem State.spared_writeScale (s : State) {d : List Byte} {g : Stage} {t : Nat} (mem : (g, t) ∈ (flStages d).zipIdx) (store : g.kind = 8)
    (scaled : stScaled d (g.op % 4) = true) {b : Nat} (hb : b < ceilDiv (flCount d) (stBlock d (g.op % 4)))
    (c : Nat) (v : FlVal) :
    State.Spared (FlOutside c d) s (s.memWrite (wellBase c + stScaleAt d (g.op % 4) + 4 * b) (leBytes 4 v.code) v.poison) := by
  refine .memWrite s _ fun a out => ?_
  rw [length_leBytes]
  exact out.scale mem store scaled hb

theorem State.length_summaryRecord (s0 : State) (d : List Byte) (gs : List Stage) (g : Stage) (vals : Nat → List FlVal) (n : Nat) :
    (s0.summaryRecord d gs g vals n).length = 64 := rfl

/-- A record keeps its length where its last four bytes give way to SEQ. -/
theorem length_with_seq {bs : List Byte} (h : bs.length = 64) (seq : Nat) : (bs.take (bs.length - 4) ++ leBytes 4 seq).length = 64 := by
  rw [List.length_append, List.length_take, length_leBytes, h]
  rfl

/-- The summary records of a chain, whatever their SEQ. -/
theorem State.spared_summaries (s0 : State) (c : Nat) (d : List Byte) (vals : Nat → List FlVal) (n seq : Nat) (s : State) :
    State.Spared (FlOutside c d) s (s.lateWrites (withSeq seq (s0.summaries c d (flStages d) vals n))) := by
  suffices records : ∀ w ∈ withSeq seq (s0.summaries c d (flStages d) vals n), ∀ a, FlOutside c d a → a < w.addr ∨ w.addr + w.data.length ≤ a from
    .foldl_state (fun s w hw => .memWrite s _ (records w hw)) s
  refine List.forall_mem_map.mpr (List.forall_mem_map.mpr fun e he a out => ?_)
  have at' := List.mk_mem_zipIdx_iff_getElem?.mp he
  obtain ⟨t, mem, before⟩ := exists_of_getElem?_filter at'
  have sum := (List.mem_filter.mp (List.mem_of_getElem? at')).2
  rw [length_with_seq (State.length_summaryRecord ..)]
  exact out.summary (List.mk_mem_zipIdx_iff_getElem?.mpr mem) (beq_iff_eq.mp sum) before

namespace FlSound

variable {d : List Byte} (h : FlSound d) {g : Stage} {t : Nat} (mem : (g, t) ∈ (flStages d).zipIdx)
include h mem

theorem element (store : g.kind = 8) (c i a : Nat) (out : FlOutside c d a) :
    a < flAddr c d (g.op % 4) (reducedDims (flStages d) g) i
      ∨ flAddr c d (g.op % 4) (reducedDims (flStages d) g) i + (stFmt d (g.op % 4)).size ≤ a := by
  have span : _ ∈ stageSpans d (flStages d) t g := (congrArg (_ ∈ ·) (if_pos (.inr store))).mpr (List.mem_cons_self ..)
  have stores : (g.kind == 8) = true := beq_iff_eq.mpr store
  obtain ⟨above, below⟩ := flAddr_in_streamSpan h.exts c (g.op % 4) (reducedDims (flStages d) g) i (h.low _ (mem_flSpans mem span) stores)
  exact outside_part (out _ (mem_flSpans mem span) stores) above below

/-! ## The stores -/

/-- The elements that one vector stores. -/
theorem writeElements (store : g.kind = 8) (c : Nat) (es : List (Nat × FlVal)) (s : State) :
    State.Spared (FlOutside c d) s (s.writeLines (stFmt d (g.op % 4)).size
      (es.map fun e => { addr := flAddr c d (g.op % 4) (reducedDims (flStages d) g) e.1, val := e.2 })) :=
  State.spared_writeLines (List.forall_mem_map.mpr fun e _ => h.element mem store c e.1) s

theorem runStore (s0 : State) (c : Nat) (store : g.kind = 8) (plain : reducedDims (flStages d) g = 0) (vals : Nat → List FlVal) (s : State)
    (tally : FlTally) : State.Spared (FlOutside c d) s (s0.runStore c d (flStages d) t g vals s tally).1 := by
  have elements := h.writeElements mem store c
  rw [plain] at elements
  refine .ite_fst (fun scaled => .trans ?_ (.foldl_state (fun s b hb => s.spared_writeScale mem store scaled (List.mem_range.mp hb) c _) _)) fun _ => ?_
  · exact .foldl (g := Prod.fst) (fun acc v _ => elements _ acc.1) (s, tally)
  · exact .foldl (g := Prod.fst) (fun acc v _ => elements _ acc.1) (s, tally)

theorem runReduce (s0 : State) (c : Nat) (store : g.kind = 8) {x : Stage} (reduced : reducedDims (flStages d) g = x.op / 8) (vals : Nat → List FlVal)
    (s : State) (tally : FlTally) : State.Spared (FlOutside c d) s (s0.runReduce c d (flStages d) t g x vals s tally).1 := by
  have elements := h.writeElements mem store c
  rw [reduced] at elements
  refine .foldl (g := Prod.fst) (fun acc e he => .ite_fst (fun _ => .ite (fun scaled => ?_) fun _ => ?_) fun _ => .refl _) (s, tally)
  · have block := div_lt_ceilDiv (lt_of_mem_flGroups (sortBy_subset _ _ he)) (stBlock_pos d (g.op % 4))
    exact .trans (elements [(e.1, _)] acc.1) (State.spared_writeScale _ mem store scaled block c _)
  · exact elements [(e.1, _)] acc.1

theorem runStores (s0 : State) (c : Nat) (vals : Nat → List FlVal) (acc : State × FlTally) :
    State.Spared (FlOutside c d) acc.1 (s0.runStores c d (flStages d) vals acc (g, t)).1 := by
  refine .ite_fst (fun _ => .refl _) fun store => ?_
  have store : g.kind = 8 := not_not.mp store
  cases source : (if g.a ≤ 7 then (flStages d)[g.a]? else none) with
  | none => exact h.runStore mem s0 c store (reducedDims_elements fun y hy => by cases source.symm.trans hy) vals acc.1 acc.2
  | some x =>
    refine .ite_fst (fun reduce => h.runReduce mem s0 c store (reducedDims_reduce store source reduce) vals acc.1 acc.2) fun plain => ?_
    refine h.runStore mem s0 c store (reducedDims_elements fun y hy => ?_) vals acc.1 acc.2
    obtain rfl : x = y := Option.some.inj (source.symm.trans hy)
    exact plain

omit mem in
/-- The stores of a chain, one stage after the other. -/
theorem stores (s0 : State) (c : Nat) (vals : Nat → List FlVal) (s : State) (tally : FlTally) :
    State.Spared (FlOutside c d) s ((flStages d).zipIdx.foldl (s0.runStores c d (flStages d) vals) (s, tally)).1 :=
  .foldl (g := Prod.fst) (fun acc e mem => h.runStores (g := e.1) (t := e.2) mem s0 c vals acc) (s, tally)

end FlSound

end Sys2Proof.Machine
end

section
/-! PROOF. The end of a Flow Engine's chain (06 R143, R166, R167): the first part of O23. -/

namespace Sys2Proof.Machine

open Sys2Proof.Claims

/-! ## The work of a chain, and its end -/

/-- The elements' stage results and their events, then the STORE stages one after the other. -/
def State.flWork (s : State) (c : Nat) (d : List Byte) : State × FlTally :=
  let gs := flStages d
  let vals := fun i => s.flElement c d gs i
  gs.zipIdx.foldl (s.runStores c d gs vals) (s, (List.range (flCount d)).foldl (fun t i => t.add (vals i)) {})

/-- A LOAD of the chain reads poison. -/
def State.flPoison (s : State) (c : Nat) (d : List Byte) : Bool :=
  (List.range (flCount d)).any fun i => ((flStages d).zip (s.flElement c d (flStages d) i)).any fun e => e.1.kind == 1 && e.2.poison

/-- What follows the stores of a chain that began in `s0`: the events, the cycles and the draws. -/
def State.flClose (s0 : State) (c : Nat) (d : List Byte) (t : State × FlTally) : State :=
  let gs := flStages d
  let vals := fun i => s0.flElement c d gs i
  let tally := s0.reduceEvents d gs vals t.2
  ((t.1.countEvents (.fle c) 0x18 (tally.nans + sumNat ((gs.filter fun g => g.kind == 7).map fun g => s0.summaryNans d gs g vals))
    tally.sats).countFle c d gs).drawnN (8 * flCount d)

/-- The summary records that a chain leaves for its end. -/
def State.flRecords (s : State) (c : Nat) (d : List Byte) : List LateWrite :=
  s.summaries c d (flStages d) (fun i => s.flElement c d (flStages d) i) (flCount d)

theorem State.Tallied.countFle (s : State) (c : Nat) (d : List Byte) (gs : List Stage) : s.Tallied (s.countFle c d gs) := by
  unfold State.countFle
  dsimp only
  split
  · exact ((((addWrap s _ _ _ _ _).trans (addWrap _ _ _ _ _ _)).trans (addWrap _ _ _ _ _ _)).trans (addWrap _ _ _ _ _ _)).trans (drawnN _ 2)
  · exact refl s

theorem State.tallied_flClose (s0 : State) (c : Nat) (d : List Byte) (t : State × FlTally) : t.1.Tallied (s0.flClose c d t) :=
  ((State.Tallied.countEvents t.1 _ _ _ _).trans (.countFle _ c d _)).trans (.drawnN _ _)

theorem State.Tallied.spared {P : Nat → Prop} {s t : State} (h : s.Tallied t) : State.Spared P s t := by
  rw [h]
  exact ⟨rfl, fun a _ => State.byteAt_of_eq rfl rfl a⟩

/-- `t` is `s` but for the queues and what a halt writes, and shows the queue halted with a status. -/
structure HaltShown (s t : State) (c q code : Nat) : Prop where
  state  : t.queueState c q = 3
  status : t.fldAt (.core c) (qOff q 0x120) 8 8 = code
  queued : State.Queued (haltKeys c q) s t

theorem State.haltQueue_shows (s : State) (c q : Nat) {code : Nat} (h : Halted) (small : code < 256) :
    HaltShown s (s.haltQueue c q code h) c q code := by
  refine ⟨State.queueState_halted (congrArg QueueRun.halted (s.queue_haltQueue c q code h)), ?_, s.queued_haltQueue c q code h⟩
  rw [State.fldAt_low _ _ _ _ (by decide : 8 ≤ 56), State.error_haltQueue, Nat.mod_mod_of_dvd _ (by decide), Nat.add_mul_mod_self_right]
  exact Nat.mod_eq_of_lt small

theorem HaltShown.of_queue {s : State} {c q code : Nat} {h : Halted} (r : QueueRun) (small : code < 256) :
    HaltShown s ((s.setQueue c q r).haltQueue c q code h) c q code := by
  obtain ⟨state, status, queued⟩ := State.haltQueue_shows (s.setQueue c q r) c q h small
  exact ⟨state, status, (State.Queued.setQueue s c q r).trans queued⟩

/-- The oldest descriptor, ended with an error, makes its late writes and halts its queue. -/
theorem State.settleQueue_shows {s : State} {c q code : Nat} {r : Running} {rs : List Running} (halted : (s.queue c q).halted = none)
    (again : (s.queue c q).again = none) (running : (s.queue c q).running = r :: rs) (done : r.done = some code) (error : code ≠ 0)
    (small : code < 256) : HaltShown (s.endSummaries c q r) (s.settleQueue c q) c q code := by
  obtain ⟨n, rfl⟩ := Nat.exists_eq_succ_of_ne_zero error
  unfold State.settleQueue
  dsimp only
  rw [halted, running]
  dsimp only
  rw [again, done]
  exact .of_queue _ small

section

variable {s : State} {c : Nat} {x : Running} (running : (s.queue c 2).running = [x]) (open' : x.done = none)
include running open'

/-- A chain that a check refuses names the failing stage; any other does its work, and ends with POISON where a LOAD read poisoned data. -/
theorem State.runFle_current :
    s.runFle c =
      if (s.flRefusal c x.desc).1 ≠ 0 then (s.putFld (.fle c) 0x08 16 4 (s.flRefusal c x.desc).2).endCurrent c 2 (s.flRefusal c x.desc).1
      else (s.flClose c x.desc (s.flWork c x.desc)).endCurrent c 2 (if s.flPoison c x.desc then 3 else 0) (s.flRecords c x.desc) := by
  unfold State.runFle
  rw [QueueRun.current_single running open']
  rfl

/-- The end with an error of the FLE's only descriptor writes its summary records and then halts the queue. -/
theorem State.endFle_error {code : Nat} (ws : List LateWrite) (halted : (s.queue c 2).halted = none) (again : (s.queue c 2).again = none)
    (error : code ≠ 0) (small : code < 256) :
    ∃ u seq, State.Queued (haltKeys c 2) s u ∧ HaltShown (u.lateWrites (withSeq seq ws)) (s.endCurrent c 2 code ws) c 2 code := by
  have ended : s.endCurrent c 2 code ws = _ := State.updateCurrent_single _ running open'
  have queue := s.queue_setQueue_same c 2 { s.queue c 2 with running := [{ x with done := some code, writes := ws }] }
  rw [ended]
  exact ⟨_, _, .setQueue s c 2 _, State.settleQueue_shows ((congrArg QueueRun.halted queue).trans halted)
    ((congrArg QueueRun.again queue).trans again) (congrArg QueueRun.running queue) rfl error small⟩

/-- The end with an error and without summary records. -/
theorem State.endFle_bare {code : Nat} (halted : (s.queue c 2).halted = none) (again : (s.queue c 2).again = none) (error : code ≠ 0)
    (small : code < 256) : HaltShown s (s.endCurrent c 2 code) c 2 code := by
  obtain ⟨u, _, first, state, status, queued⟩ := State.endFle_error running open' [] halted again error small
  exact ⟨state, status, first.trans queued⟩

/-- The end with status 0 leaves the summary records for the completion. -/
theorem State.endFle_zero (ws : List LateWrite) :
    s.endCurrent c 2 0 ws = s.setQueue c 2 { s.queue c 2 with running := [{ x with done := some 0, writes := ws }] } :=
  State.updateCurrent_fine _ running open' (.inr rfl)

end

/-- What changes the queues and registers alone changes no memory. -/
theorem State.Queued.byteAt {keys : List Nat} {s t : State} (h : State.Queued keys s t) (a : Nat) : t.byteAt a = s.byteAt a := by
  obtain ⟨-, -, bytes⟩ := h.only
  exact bytes a

/-- The FLE's own registers are none of those that a halt writes. -/
theorem fleStatus_not_mem_haltKeys (c : Nat) : Claims.at_ (.fle c) 0x08 ∉ haltKeys c 2 := by
  have base : blockBase (.fle c) = blockBase (.core c) + 0x1200 := rfl
  simp [haltKeys, Claims.at_, base, qOff]

/-- The work of a chain spares every byte outside the spans that it stores to. -/
theorem FlSound.work {d : List Byte} (h : FlSound d) (s : State) (c : Nat) :
    State.Spared (FlOutside c d) s (s.flClose c d (s.flWork c d)) :=
  (h.stores s c _ s _).trans (s.tallied_flClose c d _).spared

/-- A chain that has done its work ends; its summary records stay within its spans. -/
theorem State.endFle_ends {s u : State} {c : Nat} {x : Running} (running : (u.queue c 2).running = [x]) (open' : x.done = none)
    (halted : (u.queue c 2).halted = none) (again : (u.queue c 2).again = none) (spared : State.Spared (FlOutside c x.desc) s u) {poison : Bool} :
    let t := u.endCurrent c 2 (if poison then 3 else 0) (s.flRecords c x.desc)
    ((t.queue c 2).running.map (·.done) = [some 0] ∨ (t.queueState c 2 = 3 ∧ t.fldAt (.core c) (qOff 2 0x120) 8 8 = 3))
      ∧ ∀ a, FlOutside c x.desc a → t.byteAt a = s.byteAt a := by
  cases poison with
  | false =>
    have ended : u.endCurrent c 2 0 (s.flRecords c x.desc) = _ := State.endFle_zero running open' _
    rw [if_neg (by decide), ended]
    refine ⟨.inl (congrArg (fun r => r.running.map (·.done)) (u.queue_setQueue_same c 2 _)), fun a out => ?_⟩
    exact ((State.Queued.setQueue (keys := []) u c 2 _).byteAt a).trans (spared.bytes a out)
  | true =>
    obtain ⟨v, seq, ended, shown⟩ := State.endFle_error running open' (s.flRecords c x.desc) halted again (by decide : 3 ≠ 0) (by decide)
    have records := (s.spared_summaries c x.desc (fun i => s.flElement c x.desc (flStages x.desc) i) (flCount x.desc) seq v).bytes
    exact ⟨.inr ⟨shown.state, shown.status⟩,
      fun a out => (shown.queued.byteAt a).trans ((records a out).trans ((ended.byteAt a).trans (spared.bytes a out)))⟩

end Sys2Proof.Machine

namespace Sys2Proof.Claims

open Sys2Proof.Machine

theorem fleChain_next {s t : State} {c : Fin 256} (runs : s.coreRuns c = true) (h : s.runFle c = t) : exec (.fleChain c) s = .next t :=
  congrArg Host.Outcome.next ((if_pos runs).trans h)

section

variable {s : State} {c : Fin 256} {x : Running} (runs : s.coreRuns c = true) (halted : (s.queue c 2).halted = none)
  (again : (s.queue c 2).again = none) (running : (s.queue c 2).running = [x]) (open' : x.done = none)
include runs halted again running open'

theorem fleChain_works (good : (s.flRefusal c x.desc).1 = 0) :
    Runs (.fleChain c) s fun t =>
      ((t.queue c 2).running.map (·.done) = [some 0] ∨ (t.queueState c 2 = 3 ∧ t.fldAt (.core c) (qOff 2 0x120) 8 8 = 3))
        ∧ ∀ a, FlOutside c x.desc a → t.byteAt a = s.byteAt a := by
  have spared := (State.flSound good).work s c
  have queue := State.queue_of_queues spared.queues c 2
  exact ⟨_, fleChain_next runs ((State.runFle_current running open').trans (if_neg (not_not_intro good))),
    State.endFle_ends ((congrArg QueueRun.running queue).trans running) open' ((congrArg QueueRun.halted queue).trans halted)
      ((congrArg QueueRun.again queue).trans again) spared⟩

theorem fleChain_refused (refused : (s.flRefusal c x.desc).1 ≠ 0) :
    Runs (.fleChain c) s fun t =>
      t.queueState c 2 = 3 ∧ t.fldAt (.core c) (qOff 2 0x120) 8 8 = (s.flRefusal c x.desc).1
        ∧ t.fldAt (.fle c) 0x08 16 4 = (s.flRefusal c x.desc).2 % 16
        ∧ Only s t { s with regs := t.regs, queues := t.queues } [at_ (.fle c) 0x08, at_ (.core c) (qOff 2 0x120), at_ (.core c) 0x030] := by
  have stage := s.fldAt_putFld_same (.fle c) 0x08 16 4 (s.flRefusal c x.desc).2 (by decide)
  have put : State.Queued (at_ (.fle c) 0x08 :: haltKeys c 2) s (s.putFld (.fle c) 0x08 16 4 (s.flRefusal c x.desc).2) :=
    .putFld s _ _ _ (List.mem_cons_self ..)
  have queue := State.queue_of_queues (s.putFld_queues (.fle c) 0x08 16 4 (s.flRefusal c x.desc).2) c 2
  have shown := State.endFle_bare ((congrArg QueueRun.running queue).trans running) open'
    ((congrArg QueueRun.halted queue).trans halted) ((congrArg QueueRun.again queue).trans again) refused (s.flRefusal_lt c x.desc)
  exact ⟨_, fleChain_next runs ((State.runFle_current running open').trans (if_pos refused)), shown.state, shown.status,
    (State.fldAt_of_reg (shown.queued.regs.reg (fleStatus_not_mem_haltKeys c)) 16 4).trans stage, (put.trans (shown.queued.mono fun k => List.mem_cons_of_mem _)).only⟩

end

theorem fleChainEnds : FleChainEnds := fun _ _ _ runs halted again running open' =>
  ⟨fleChain_works runs halted again running open', fleChain_refused runs halted again running open'⟩

end Sys2Proof.Claims
end

section
/-! PROOF. The end of an engine's descriptor (04 R100–R102, 05 R138, 06 R168): the second part of O23. -/

namespace Sys2Proof.Machine

open Sys2Proof.Claims

/-! ## The descriptor leaves its queue -/

/-- The registers of a queue stand above the event counters. -/
theorem qOff_ne_evtOff (q : Nat) {o : Nat} (h : 0x0C0 ≤ o) (d : List Byte) : qOff q o ≠ evtOff d :=
  (((evtOff_lt d).trans_le h).trans_le (Nat.le_add_right _ _)).ne'

/-- Q_DONE of any queue counts the descriptor. -/
theorem State.regN_counted (s : State) (c q : Nat) (r : Running) :
    (s.counted c q r).regN (.core c) (qOff q 0x128) = (s.regN (.core c) (qOff q 0x128) + 1) % 2 ^ 64 := by
  have whole : ∀ t : State, t.regN (.core c) (qOff q 0x128) = t.fldAt (.core c) (qOff q 0x128) 0 64 := fun t => (fld_whole _).symm
  have wake := qOff_ne_wake q (o := 0x128) (by decide)
  have head : qOff q 0x128 ≠ qOff q 0x118 := fun e => absurd (Nat.add_right_cancel e) (by decide)
  have last : (s.counted c q r).reg (.core c) (qOff q 0x128) = ((s.leave c q r).addWrap (.core c) (qOff q 0x128) 0 64 1).reg (.core c) (qOff q 0x128) := by
    rw [State.counted, State.reg_notify_other _ _ _ _ wake, State.reg_countEvent_other _ _ _ (qOff_ne_evtOff q (by decide) _) wake]
  rw [whole, whole, State.fldAt_of_reg last, State.fldAt_addWrap_same _ _ _ _ _ _ (by decide),
    State.fldAt_of_reg (State.reg_leave_other head)]

section

variable {s : State} {c q : Nat} {r : Running} {rs : List Running}

/-- The oldest descriptor, ended with status 0, completes. -/
theorem State.completing_oldest (halted : (s.queue c q).halted = none) (again : (s.queue c q).again = none)
    (running : (s.queue c q).running = r :: rs) (done : r.done = some 0) : s.completing c q = some r := by
  simp [State.completing, halted, again, running, done]

/-- Its late writes are made first, and it is counted then (04 R102). -/
theorem State.completeDesc_counted (completing : s.completing c q = some r) (running : (s.queue c q).running = r :: rs)
    (fine : ∀ x ∈ rs, x.done = none ∨ x.done = some 0) {ws : List LateWrite}
    (late : (if q = 2 then withSeq (s.qDone c q + 1) r.writes else r.writes) = ws) : s.completeDesc c q = (s.lateWrites ws).counted c q r := by
  rw [State.completeDesc, completing, ← late]
  exact State.retireDesc_counted (by rw [State.queue_of_queues (s.queues_lateWrites _)]; exact running) fine

end

/-! ## The descriptor's add -/

/-- The add that a descriptor's trigger word asks for. -/
def trigAdds (trig inc : Nat) : List TriggerAdd := if trig.testBit 31 then [{ counter := trig % 2 ^ 17, inc := inc, source := 1 }] else []

/-- The adds are sent. -/
def State.sendAll (s : State) (adds : List TriggerAdd) : State := { s with adds := s.adds ++ adds }

theorem State.sendAll_nil (s : State) : s.sendAll [] = s :=
  congrArg (fun adds => { s with adds := adds }) (List.append_nil s.adds)

theorem State.sendAdd_trigger (s : State) (trig inc : Nat) :
    (if trig.testBit 31 then s.sendAdd (trig % 2 ^ 17) inc 1 else s) = s.sendAll (trigAdds trig inc) := by
  rw [trigAdds]
  split
  · rfl
  · exact s.sendAll_nil.symm

theorem State.adds_lateWrites (s : State) (ws : List LateWrite) : (s.lateWrites ws).adds = s.adds := by
  have touched : Memory.Touched s (s.lateWrites ws) := Memory.Touched.foldl (fun s w => Memory.touched_memWrite s _ _ _) ws s
  exact (congrArg State.adds touched.frame :)

end Sys2Proof.Machine

namespace Sys2Proof.Claims

open Sys2Proof.Machine

/-- The descriptor has left its queue, is counted and has sent its add; `u` is the state in which its late writes stand. -/
def Retired (s u t : State) (c q : Nat) (r : Running) (rs : List Running) (trig inc : Nat) : Prop :=
  (t.queue c q).running = rs ∧ t.regN (.core c) (qOff q 0x128) = (u.regN (.core c) (qOff q 0x128) + 1) % 2 ^ 64
    ∧ t.adds = s.adds ++ trigAdds trig inc
    ∧ Only u t { u with regs := t.regs, queues := t.queues, adds := t.adds } (retireKeys c q r.desc)

theorem Retired.of_queued {s u t : State} {c q : Nat} {r : Running} {rs : List Running} (left : (t.queue c q).running = rs)
    (done : t.regN (.core c) (qOff q 0x128) = (u.regN (.core c) (qOff q 0x128) + 1) % 2 ^ 64) (adds : u.adds = s.adds)
    (queued : State.Queued (retireKeys c q r.desc) u t) (trig inc : Nat) :
    Retired s u (t.sendAll (trigAdds trig inc)) c q r rs trig inc :=
  ⟨left, done, congrArg (· ++ _) ((congrArg State.adds queued.frame).trans adds),
    .intro (congrArg (fun v => { v with adds := t.adds ++ trigAdds trig inc }) queued.frame) rfl rfl queued.regs⟩

theorem retired_counted {s : State} {c q : Nat} {r : Running} {rs : List Running} (running : (s.queue c q).running = r :: rs)
    (ws : List LateWrite) (trig inc : Nat) :
    Retired s (s.lateWrites ws) (((s.lateWrites ws).counted c q r).sendAll (trigAdds trig inc)) c q r rs trig inc := by
  refine .of_queued ?_ ((s.lateWrites ws).regN_counted c q r) (s.adds_lateWrites ws) State.queued_counted trig inc
  rw [State.queue_counted, State.queue_of_queues (s.queues_lateWrites ws), running]
  rfl

section

variable {s : State} {c : Fin 256} {r : Running} {rs : List Running} (runs : s.coreRuns c = true) (done : r.done = some 0)
  (fine : ∀ x ∈ rs, x.done = none ∨ x.done = some 0)
include runs done fine

theorem mxeComplete_retires (e : Fin 2) (halted : (s.queue c e).halted = none) (again : (s.queue c e).again = none)
    (running : (s.queue c e).running = r :: rs) :
    Runs (.mxeComplete c e) s fun t => Retired s (s.lateWrites r.writes) t c e r rs (mxTrig r.desc) (mxTrigInc r.desc) := by
  have completing := State.completing_oldest halted again running done
  have step : s.completeMxe c e = ((s.lateWrites r.writes).counted c e r).sendAll (trigAdds (mxTrig r.desc) (mxTrigInc r.desc)) := by
    rw [State.completeMxe, completing]
    exact (congrArg (State.mxAdd · r.desc) (State.completeDesc_counted completing running fine (if_neg e.isLt.ne))).trans (State.sendAdd_trigger _ _ _)
  exact ⟨_, congrArg Host.Outcome.next ((if_pos runs).trans step), retired_counted running _ _ _⟩

theorem fleComplete_retires (halted : (s.queue c 2).halted = none) (again : (s.queue c 2).again = none)
    (running : (s.queue c 2).running = r :: rs) :
    Runs (.fleComplete c) s fun t =>
      Retired s (s.lateWrites (withSeq (s.qDone c 2 + 1) r.writes)) t c 2 r rs (flTrig r.desc) (flTrigInc r.desc) := by
  have completing := State.completing_oldest halted again running done
  have step : s.completeFle c =
      ((s.lateWrites (withSeq (s.qDone c 2 + 1) r.writes)).counted c 2 r).sendAll (trigAdds (flTrig r.desc) (flTrigInc r.desc)) := by
    rw [State.completeFle, completing]
    exact (congrArg (State.flAdd · r.desc) (State.completeDesc_counted completing running fine (if_pos rfl))).trans (State.sendAdd_trigger _ _ _)
  exact ⟨_, congrArg Host.Outcome.next ((if_pos runs).trans step), retired_counted running _ _ _⟩

end

theorem engineCompletes : EngineCompletes := fun _ _ _ _ runs done fine =>
  ⟨mxeComplete_retires runs done fine, fleComplete_retires runs done fine⟩

/-- Settles O23: a chain's stores and summaries lie within its spans stage by stage, its end shows in the queue, and an engine's descriptor that
completes leaves its late writes, its count and its add. -/
theorem flowWork : Obligations.FlowWork := ⟨fleChainEnds, engineCompletes⟩

end Sys2Proof.Claims
end
